-- ==== Sys2Proof/Word.lean ====
section
/-! DEFINITION. The byte of the wire. Every other figure of the part is a count or a signed figure in a fixed unit
(00_scope.md, Units), held as Nat or Int. -/

namespace Sys2Proof

/-- One byte of a frame, body or record (R178, R189). -/
abbrev Byte := BitVec 8

end Sys2Proof
end

