-- ==== Sys2Proof/Config.lean ====
section
/-! DEFINITION. The free values: figures the spec has the part send or store without saying what they are. Each is an
opaque constant, applied to the count of free values drawn (`State.free`), so nothing can be proved of it. -/

namespace Sys2Proof.Config

/-- The day figure of a time stamped while the clock is unset (log entry 8). DESIGN CHOICE: R189 gives the second field only. -/
opaque unsetDay : Nat → BitVec 16

/-- The second figure of a session's open time stamped while the clock is unset (log entry 8). R16 says only "marked unset". -/
opaque unsetSecond : Nat → BitVec 32

/-- The interval index read while no interval is in progress (log entry 9). -/
opaque idleIndex : Nat → BitVec 16

/-- The latched interval length read while no interval is in progress (log entry 9). -/
opaque idleLength : Nat → BitVec 8

/-- The stored I_bmax read while the LIMITS record is absent (log entry 10). -/
opaque absentIbmax : Nat → BitVec 16

/-- The stored V_bmax read while the LIMITS record is absent (log entry 10). -/
opaque absentVbmax : Nat → BitVec 16

/-- The stored T_accept read while the LIMITS record is absent (log entry 10). -/
opaque absentTaccept : Nat → BitVec 16

/-- The stored P_heat_batt read while the LIMITS record is absent (log entry 10). -/
opaque absentPheat : Nat → BitVec 16

/-- The first slot sent for an undefined area table entry, by entry (log entry 33). R149 gives it for a defined entry only. -/
opaque undefinedFirst : Nat → Nat → BitVec 8

/-- The slot count sent for an undefined area table entry, by entry (log entry 33). -/
opaque undefinedCount : Nat → Nat → BitVec 16

/-- What the data output drives for the bytes clocked after a complete frame that was no FETCH, by byte (log entry 41). R178
and R181 give it while a frame is clocked in and after a FETCH frame only. -/
opaque restOutput : Nat → Nat → BitVec 8

end Sys2Proof.Config
end

