-- ==== Sys2Proof/Syntax.lean ====
section
/-! DEFINITION. The commands of the part: one constructor of `Instr` for each row of spec/opcode_table.json, and the
operands they carry. The rows give no bits. A request's operands are its port and its body bytes, so that every body length
and every field value the wire can carry is a command (R178, R180, R190). -/

namespace Sys2Proof

/-- The three port units (chapter 10). -/
inductive Port where
  | v | c | t
deriving DecidableEq, Repr

/-- The level of the PLUG input (R8). -/
inductive Plug where
  | present | absent
deriving DecidableEq, Repr

/-- An exact mean or conversion, `num / den` in the unit of its field, before rounding (R3, R5, R11; log entry 7). -/
structure Mean where
  num : Int
  den : Nat
deriving DecidableEq, Repr

/-- What the front end measured over one window (R3, R5, R8): four means, four conversions (none: the sensor is open) and
the PLUG level at the end of the window. -/
structure Window where
  pIn : Mean
  vBus : Mean
  iBat : Mean
  iHeat : Mean
  tPack : Option Mean
  tEl1 : Option Mean
  tEl2 : Option Mean
  tObc : Option Mean
  plug : Plug
deriving DecidableEq, Repr

/-- The commands, in the table's order. -/
inductive Instr where
  /-- COLD_RESET (R13). -/
  | coldReset
  /-- RESET_N_FALL (R1). -/
  | resetNFall
  /-- RESET_N_RISE (R36). -/
  | resetNRise
  /-- SAMPLE_SET_DELIVERY (R1). -/
  | sampleSetDelivery (w : Window)
  /-- TEMP_HOLD_EXPIRY (R6). -/
  | tempHoldExpiry (w : Window)
  /-- SC_SAMPLE_TAKING (R24). -/
  | scSampleTaking
  /-- PLUG_DEBOUNCE_CHANGE (R15). -/
  | plugDebounceChange
  /-- PC_UPDATE (R38). -/
  | pcUpdate
  /-- DERATE_WINDOW_END (R51). -/
  | derateWindowEnd
  /-- HC_SAMPLE_TAKING (R62). -/
  | hcSampleTaking
  /-- CONNECT_TIMER_EXPIRY (R67). -/
  | connectTimerExpiry
  /-- SETTLE_TIMER_EXPIRY (R73). -/
  | settleTimerExpiry
  /-- IDLE_TIMER_EXPIRY (R68). -/
  | idleTimerExpiry
  /-- DEFERRED_IDLE_DISCONNECT (R68). -/
  | deferredIdleDisconnect
  /-- BLANKING_TIMER_EXPIRY (R69). -/
  | blankingTimerExpiry
  /-- IM_SAMPLE_TAKING (R78). -/
  | imSampleTaking
  /-- CYCLE_COUNTDOWN_EXPIRY (R81). -/
  | cycleCountdownExpiry
  /-- PENDING_MEASUREMENT_START (R82). -/
  | pendingMeasurementStart
  /-- CHASSIS_SAMPLE (R86). -/
  | chassisSample (v : Mean)
  /-- PHASE_TIMER_EXPIRY (R87). -/
  | phaseTimerExpiry
  /-- LEVEL_AGE_EXPIRY (R96). -/
  | levelAgeExpiry
  /-- LIMITS_VALIDITY_EXPIRY (R18). -/
  | limitsValidityExpiry
  /-- VERIFICATION_TIMER_EXPIRY (R23). -/
  | verificationTimerExpiry
  /-- EA_ALLOCATION (R108). -/
  | eaAllocation
  /-- PULSE_HIGH_END (R122). -/
  | pulseHighEnd
  /-- PULSE_LOW_END (R122). -/
  | pulseLowEnd
  /-- CLOCK_TICK (R126). -/
  | clockTick
  /-- BOUNDARY_CLOSE (R135). -/
  | boundaryClose
  /-- PERIOD_CLOSE (R135). -/
  | periodClose
  /-- TARIFF_APPLY_AT_SESSION_END (R129). -/
  | tariffApplyAtSessionEnd
  /-- HELD_RECORD_APPEND (R142). -/
  | heldRecordAppend
  /-- PENDING_FINAL_PLACED (R142). -/
  | pendingFinalPlaced
  /-- SNAPSHOT_SELECTION (R170). -/
  | snapshotSelection
  /-- COMPOSITION_COMPLETE (R173). -/
  | compositionComplete
  /-- PERIODIC_TIMER_EXPIRY (R174). -/
  | periodicTimerExpiry
  /-- FRAMING_ERROR (R178). -/
  | framingError (p : Port) (received : List Byte) (bits : Nat)
  /-- OVERLONG_FRAME (R178). -/
  | overlongFrame (p : Port) (kind len : Byte)
  /-- CRC_ERROR (R179). -/
  | crcError (p : Port) (kind : Byte) (body : List Byte) (check : Byte)
  /-- UNKNOWN_KIND_REQUEST (R180). -/
  | unknownKindRequest (p : Port) (kind : Byte) (body : List Byte)
  /-- FETCH (R181). -/
  | fetch (p : Port) (body : List Byte)
  /-- REPLY_SHIFT_COMPLETE (R181). -/
  | replyShiftComplete (p : Port)
  /-- LIMITS (R17). -/
  | limits (p : Port) (body : List Byte)
  /-- HEAT_REQUEST (R60). -/
  | heatRequest (p : Port) (body : List Byte)
  /-- INS_START (R79). -/
  | insStart (p : Port) (body : List Byte)
  /-- INS_STOP (R79). -/
  | insStop (p : Port) (body : List Byte)
  /-- FAULT_ACK (R104). -/
  | faultAck (p : Port) (body : List Byte)
  /-- LOCKOUT_RELEASE (R33). -/
  | lockoutRelease (p : Port) (body : List Byte)
  /-- HEATER_RESTORE (R75). -/
  | heaterRestore (p : Port) (body : List Byte)
  /-- MEASURE_NOW (R83). -/
  | measureNow (p : Port) (body : List Byte)
  /-- SESSION_OPEN (R20). -/
  | sessionOpen (p : Port) (body : List Byte)
  /-- OFFER_UPDATE (R26). -/
  | offerUpdate (p : Port) (body : List Byte)
  /-- STATION_PAUSE (R25). -/
  | stationPause (p : Port) (body : List Byte)
  /-- SESSION_CLOSE (R27). -/
  | sessionClose (p : Port) (body : List Byte)
  /-- TARIFF_LOAD (R128). -/
  | tariffLoad (p : Port) (body : List Byte)
  /-- STATUS_GET (R187). -/
  | statusGet (p : Port) (body : List Byte)
  /-- READING_GET (R119). -/
  | readingGet (p : Port) (body : List Byte)
  /-- FAULT_LIST (R105). -/
  | faultList (p : Port) (body : List Byte)
  /-- TARIFF_GET (R131). -/
  | tariffGet (p : Port) (body : List Byte)
  /-- CONFIG_GET (R186). -/
  | configGet (p : Port) (body : List Byte)
  /-- CONFIG_SET (R185). -/
  | configSet (p : Port) (body : List Byte)
  /-- SNAPSHOT_NOW (R175). -/
  | snapshotNow (p : Port) (body : List Byte)
  /-- NOTICE_GET (R184). -/
  | noticeGet (p : Port) (body : List Byte)
  /-- NOTICE_CLEAR (R184). -/
  | noticeClear (p : Port) (body : List Byte)
  /-- NOTICE_ENABLE (R184). -/
  | noticeEnable (p : Port) (body : List Byte)
  /-- ERR_CLEAR (R182). -/
  | errClear (p : Port) (body : List Byte)
  /-- TIME_SET (R127). -/
  | timeSet (p : Port) (body : List Byte)
  /-- AREA_SET (R150). -/
  | areaSet (p : Port) (body : List Byte)
  /-- AREA_CLEAR (R151). -/
  | areaClear (p : Port) (body : List Byte)
  /-- JOIN (R153). -/
  | join (p : Port) (body : List Byte)
  /-- UNJOIN (R154). -/
  | unjoin (p : Port) (body : List Byte)
  /-- DESC_SET (R169). -/
  | descSet (p : Port) (body : List Byte)
  /-- VECTOR_SET (R168). -/
  | vectorSet (p : Port) (body : List Byte)
  /-- STREAM_READ (R159). -/
  | streamRead (p : Port) (body : List Byte)
  /-- STREAM_ACK (R160). -/
  | streamAck (p : Port) (body : List Byte)
  /-- PWM_PERIOD_START (R42). -/
  | pwmPeriodStart
deriving DecidableEq, Repr

end Sys2Proof
end

