-- ==== Sys2Proof/Decode.lean ====
section
/-! DEFINITION. The rows of spec/opcode_table.json give no bits (98_reader.md: no row has "fixed"), so no word spells a
command (log entry 29). -/

namespace Sys2Proof

/-- The command a word of the table's bits spells: none, for every word (log entry 29). -/
def decodeTableWord (_nbits _w : Nat) : Option Instr := none

end Sys2Proof
end

