-- ==== Sys2Proof/Machine/State.lean ====
section
/-! DEFINITION. The state of the part: one structure for each block of 00_scope.md's table, the configuration items and
the queue of waiting commands. INVENTORY.md lists each piece with the rule that names it. Powers are in W, voltages in
0.1 V, battery current in 0.1 A, heater current in 0.01 A, temperatures in 0.1 °C, energies in Wh and mW·ds, timers in ms
(00_scope.md, Units). -/

namespace Sys2Proof.Machine

/-! ## Time stamps -/

/-- A time on a record: day and second of day if the clock was valid, else marked unset, with the count of the stamping
block in `sec` (R91, R102, R166, R189). -/
structure Stamp where
  unset : Bool
  day : Nat
  sec : Nat
deriving DecidableEq, Repr

/-! ## Measurement front end (chapter 1) -/

/-- The mark of a temperature channel (section 1.1), in the order of R193. -/
inductive TempMark where
  | unmarked | saturated | held | missing
deriving DecidableEq, Repr

/-- A temperature as delivered (R5, R6). -/
structure TempReading where
  value : Int
  mark : TempMark
deriving DecidableEq, Repr

/-- A sample set (section 1.1). -/
structure SampleSet where
  seq : Nat
  pIn : Int
  vBus : Nat
  iBat : Int
  iHeat : Nat
  satPIn : Bool
  satVBus : Bool
  satIBat : Bool
  satIHeat : Bool
  tPack : TempReading
  tEl1 : TempReading
  tEl2 : TempReading
  tObc : TempReading
  plug : Plug
deriving DecidableEq, Repr

/-- A chassis sample, handed to the insulation monitor as one arrival (R11). No field of State: the sampler keeps no copy. -/
structure ChassisSample where
  vChs : Nat
  insA : Bool
  insB : Bool
  index : Nat
  saturated : Bool
deriving DecidableEq, Repr

/-- The hold mechanism of one temperature channel (R6): last valid value and hold counter 0..11. -/
structure HoldChannel where
  last : Option Int
  counter : Nat
deriving DecidableEq, Repr

/-- The front end (R1 to R13). The `due` flags say which consumers have still to take the latest set (R9). -/
structure FrontEnd where
  latest : Option SampleSet
  nextSeq : Nat
  windowMs : Nat
  tPack : HoldChannel
  tEl1 : HoldChannel
  tEl2 : HoldChannel
  tObc : HoldChannel
  dueSc : Bool
  duePc : Bool
  dueHc : Bool
  dueIm : Bool
  dueEa : Bool
  insA : Bool
  insB : Bool
  chassisMs : Nat
  chassisIndex : Nat
deriving DecidableEq, Repr

/-! ## Session controller (chapter 2) -/

/-- The session states, in the order of chapter 2's table. -/
inductive SessionState where
  | unplugged | connected | verifying | preheat | charging | hold | closing | lockedOut
deriving DecidableEq, Repr

/-- Who pays (R16, R19). -/
inductive Payer where
  | station | fleet
deriving DecidableEq, Repr

/-- The close reason of the session record, in the order of R16. -/
inductive CloseReason where
  | noReason | requested | unplugged | verifyTimeout | lockout | aborted
deriving DecidableEq, Repr

/-- The session record (R16). -/
structure SessionRecord where
  number : Nat
  payer : Payer
  label : List Byte
  openTime : Stamp
  offer : Nat
  pause : Bool
  closeReason : CloseReason
deriving DecidableEq, Repr

/-- The stored LIMITS fields (R17). -/
structure LimitsRecord where
  iBmax : Nat
  vBmax : Nat
  tAccept : Int
  pHeatBatt : Nat
deriving DecidableEq, Repr

/-- The hold-reason set, a Bool for each member, in the order of R24. -/
structure HoldSet where
  stationPause : Bool
  insulationUnknown : Bool
  packSensor : Bool
  busLow : Bool
  limitsStale : Bool
deriving DecidableEq, Repr

/-- The lockout-reason set, in the order of R30. -/
structure LockoutSet where
  insulationFault : Bool
  overtemp : Bool
deriving DecidableEq, Repr

/-- The session controller (R14 to R37). The LIMITS record is valid while its validity timer runs (R17, R18). `lossNow` says
that a plug loss has put the session into CLOSING at this very instant: a SESSION_CLOSE that falls together with it is answered
OK (R27; log entry 43). -/
structure Session where
  state : SessionState
  plug : Plug
  plugCount : Nat
  record : SessionRecord
  limits : Option LimitsRecord
  validity : Option Nat
  gate : Bool
  hold : HoldSet
  lockout : LockoutSet
  verify : Option Nat
  finalPending : Bool
  commandZero : Bool
  lossNow : Bool
deriving DecidableEq, Repr

/-! ## Power command (chapter 3) -/

/-- The derate states (section 3.6), from the coolest. -/
inductive Derate where
  | normal | warm | hot | trip
deriving DecidableEq, Repr

/-- The power command (R38 to R55). `duty` is the duty being driven on OBC_CMD (R42). -/
structure Power where
  pCmd : Nat
  aH : Nat
  lStation : Nat
  lObc : Nat
  bReq : Nat
  derate : Derate
  windowCount : Nat
  windowLen : Nat
  used : Nat
  exhausted : Bool
  duty : Nat
  pwmMs : Nat
deriving DecidableEq, Repr

/-! ## Heater controller (chapter 4) -/

/-- The two elements. -/
inductive ElemId where
  | e1 | e2
deriving DecidableEq, Repr

/-- Element states (R57). -/
inductive ElemState where
  | off | on | hotLock | disabled
deriving DecidableEq, Repr

/-- Disable causes (R70, R71). -/
inductive ElemCause where
  | noCause | openCircuit | overcurrent
deriving DecidableEq, Repr

/-- One element: state, disable cause, hot condition, dwell in ms saturating at 1000 (R63), rated power and expected
current held from the latest set (R56). -/
structure Element where
  state : ElemState
  cause : ElemCause
  hot : Bool
  dwell : Nat
  rated : Nat
  current : Nat
deriving DecidableEq, Repr

/-- Leg states, in the order chapter 4 first names them (its list of held state). -/
inductive LegState where
  | connected | connecting | disconnected | isolated
deriving DecidableEq, Repr

/-- The heater controller (R56 to R77). -/
structure Heater where
  e1 : Element
  e2 : Element
  leg : LegState
  connect : Option Nat
  settle : Option Nat
  idle : Option Nat
  idleDeferred : Bool
  mode : Bool
  target : Int
  thermostat : Bool
  sensor : Bool
  blanking : Option Nat
  diagnosis : Bool
  localiseHold : Bool
deriving DecidableEq, Repr

/-! ## Insulation monitor (chapter 5) -/

/-- The class of a result (R89, R90), coded as R192. -/
inductive Class where
  | noClass | ok | warning | fault
deriving DecidableEq, Repr

/-- Why a result is invalid (R91), coded as R192. -/
inductive InvalidReason where
  | noReason | busLow | implausible | settleTimeout | disturbed
deriving DecidableEq, Repr

/-- The insulation level (R93). -/
inductive Level where
  | unmeasured | ok | warning | fault | unknown
deriving DecidableEq, Repr

/-- The measurement states (R84). -/
inductive Meas where
  | idle | phaseA | phaseB | localising
deriving DecidableEq, Repr

/-- Rp, Rn and U of a result or an entry. -/
structure Figures where
  rp : Nat
  rn : Nat
  u : Nat
deriving DecidableEq, Repr

/-- A result record (R91). -/
structure ResultRecord where
  number : Nat
  time : Stamp
  valid : Bool
  reason : InvalidReason
  va : Nat
  vb : Nat
  figures : Figures
  cls : Class
  settleA : Nat
  settleB : Nat
  leg : Bool
  localise : Bool
deriving DecidableEq, Repr

/-- The kinds of fault table entry (R102). -/
inductive FaultKind where
  | warning | fault | unknown | heaterLeg
deriving DecidableEq, Repr

/-- A fault table entry (R102). -/
structure FaultEntry where
  seq : Nat
  kind : FaultKind
  time : Stamp
  figures : Figures
deriving DecidableEq, Repr

/-- A run: its count and its bounding class, `noClass` when empty (R94, R95, R193). -/
structure Run where
  count : Nat
  bound : Class
deriving DecidableEq, Repr

/-- The insulation monitor (R78 to R107). `va` is Va with its settle time once phase A of the attempt has settled. -/
structure Insulation where
  runRequested : Bool
  running : Bool
  cycleRun : Bool
  cycleLeft : Nat
  request : Bool
  meas : Meas
  number : Nat
  localise : Bool
  abandoned : Nat
  phase : Option Nat
  window : List Nat
  va : Option (Nat × Nat)
  legFlag : Bool
  counter : Nat
  last : Option ResultRecord
  lastValid : Option Figures
  level : Level
  worse : Run
  better : Run
  age : Option Nat
  locRecord : Option Figures
  faults : List FaultEntry
  entrySeq : Nat
  overflow : Bool
  overflowCount : Nat
  uptime : Nat
deriving DecidableEq, Repr

/-! ## Energy account (chapter 6) -/

/-- An account field: whole Wh and a residue in mW·ds (R110). -/
structure Energy where
  wh : Nat
  res : Nat
deriving DecidableEq, Repr

/-- An account: five fields and its two freezes (R113). -/
structure Account where
  g : Energy
  bg : Energy
  hg : Energy
  lg : Energy
  hb : Energy
  gridFrozen : Bool
  hbFrozen : Bool
deriving DecidableEq, Repr

/-- The states of the PULSE output (R122). -/
inductive PulseState where
  | ready | high | low
deriving DecidableEq, Repr

/-- The energy account (R108 to R125). `pulses` is the pending pulse count. -/
structure EnergyAccount where
  session : Account
  accruing : Bool
  lifetime : Account
  unassigned : Energy
  unassignedFrozen : Bool
  acc : Nat
  pulses : Nat
  lost : Nat
  pulse : PulseState
  pulseMs : Nat
deriving DecidableEq, Repr

/-! ## Clock and tariff unit (chapter 7) -/

/-- A tariff period (R128). -/
structure Period where
  start : Nat
  price : Nat
deriving DecidableEq, Repr

/-- The tables of one kind (R129, R130). -/
structure TariffKind where
  active : Option (List Period)
  staged : Option (List Period)
  generation : Nat
deriving DecidableEq, Repr

/-- The flags of the interval in progress (R133). -/
structure IntervalFlags where
  clockUnset : Bool
  noTariff : Bool
  merged : Bool
  mixedPrice : Bool
  reverse : Bool
  saturatedInput : Bool
deriving DecidableEq, Repr

/-- Whole Wh of the five fields of the session account. -/
structure WhFigures where
  g : Nat
  bg : Nat
  hg : Nat
  lg : Nat
  hb : Nat
deriving DecidableEq, Repr

/-- The billing interval in progress (R133). `startSec` is the session elapsed count when CLOCK_UNSET. -/
structure Interval where
  index : Nat
  startDay : Nat
  startSec : Nat
  openElapsed : Nat
  base : WhFigures
  latched : Nat
  flags : IntervalFlags
deriving DecidableEq, Repr

/-- The close reason of a billing record (R138), coded as R191. -/
inductive BillingReason where
  | boundary | period | clockSet | final | aborted
deriving DecidableEq, Repr

/-- A billing record (R138), its flags in the order of R140. -/
structure BillingRecord where
  number : Nat
  index : Nat
  payer : Payer
  generation : Nat
  startDay : Nat
  startSec : Nat
  duration : Nat
  price : Nat
  wh : WhFigures
  cost : Nat
  reason : BillingReason
  clockUnset : Bool
  noTariff : Bool
  merged : Bool
  mixedPrice : Bool
  reverse : Bool
  saturatedInput : Bool
  saturatedAccount : Bool
  lockout : Bool
  final : Bool
  aborted : Bool
deriving DecidableEq, Repr

/-- The clock and tariff unit (R126 to R147). `timebase` counts ms towards the next tick. -/
structure ClockTariff where
  day : Nat
  sec : Nat
  valid : Bool
  timebase : Nat
  station : TariffKind
  fleet : TariffKind
  interval : Option Interval
  price : Nat
  elapsed : Nat
  cost : Nat
  reported : Nat
  held : Option BillingRecord
  finalRecord : Option BillingRecord
deriving DecidableEq, Repr

/-! ## Record store (chapter 8) and captured records (chapter 9) -/

/-- The streams, in the order of R190's codes. -/
inductive Stream where
  | billing | insulation | events | readings
deriving DecidableEq, Repr

/-- The field sets (R169). -/
inductive FieldSet where
  | session | energy | power | thermal | insulation | limits
deriving DecidableEq, Repr

/-- A captured record: the header of R172 and the 30-byte body of R193. `seq` is absent when no set has arrived. -/
structure CapturedRecord where
  source : Nat
  port : Option Port
  desc : Nat
  repeating : Bool
  fieldSet : FieldSet
  time : Stamp
  seq : Option Nat
  missed : Nat
  countAfter : Nat
  body : List Byte
deriving DecidableEq, Repr

/-- The three kinds of record (R148). -/
inductive Record where
  | billing (r : BillingRecord)
  | result (r : ResultRecord)
  | captured (r : CapturedRecord)
deriving DecidableEq, Repr

/-- A defined area (R149). -/
structure Area where
  first : Nat
  count : Nat
deriving DecidableEq, Repr

/-- The join of a stream with its queue (R152). -/
structure Join where
  area : Nat
  port : Port
  head : Nat
  count : Nat
deriving DecidableEq, Repr

/-- One stream (R152). -/
structure StreamState where
  join : Option Join
  lost : Nat
  overwritten : Nat
deriving DecidableEq, Repr

/-- The record store (R148 to R165). `slots` lists the slots that hold a record, slot numbers strictly rising. -/
structure Store where
  slots : List (Nat × Record)
  areas : Vector (Option Area) 6
  billing : StreamState
  insulation : StreamState
  events : StreamState
  readings : StreamState
deriving DecidableEq, Repr

/-! ## Snapshot engine (chapter 9) -/

/-- The snapshot sources, in the order of section 9.1's table. -/
inductive Source where
  | sessionOpened | sessionClosed | stateChanged | intervalClosed | levelChanged | heaterEvent
  | derateChanged | tariffApplied | limitsChanged | offerChanged | periodic | request
deriving DecidableEq, Repr

/-- A vector table entry (R168). -/
structure VectorEntry where
  enabled : Bool
  first : Nat
deriving DecidableEq, Repr

/-- A descriptor (R169). `repeating` is mode REPEAT; `toReadings` is stream READINGS. -/
structure Descriptor where
  repeating : Bool
  fieldSet : FieldSet
  toReadings : Bool
  count : Nat
  reload : Nat
  chain : Bool
  notify : Bool
deriving DecidableEq, Repr

/-- A member of the pending set (R166). -/
structure Member where
  time : Stamp
  port : Option Port
deriving DecidableEq, Repr

/-- The source under service: its fixed chain, the part of the chain still to come up after the descriptor in
composition, the record in composition and the ms it still takes (R170, R171). -/
structure Service where
  source : Nat
  member : Member
  chain : List Nat
  rest : List Nat
  record : CapturedRecord
  left : Nat
deriving DecidableEq, Repr

/-- The snapshot engine (R166 to R177). It is IDLE while no source is under service. `justServed` is the chain of the
composition that has completed at this very instant: for a DESC_SET that falls together with the completion it is still
under service (R173; log entry 39). -/
structure SnapshotEngine where
  vectors : Vector VectorEntry 12
  descs : Vector Descriptor 16
  waiting : Vector (Option Member) 12
  missed : Vector Nat 12
  service : Option Service
  justServed : List Nat
  periodic : Nat
  uptime : Nat
deriving DecidableEq, Repr

/-! ## Port units (chapter 10) -/

/-- The status codes of R189. -/
inductive Status where
  | ok | clamped | wait | unknownKind | length | permission | state | busy | invalid | noLimits | notPlugged | locked
  | notJoined | notConsumer | empty | overlap | notEmpty | exhausted | notFound
deriving DecidableEq, Repr

/-- A reply (R180): the kind it answers, the status and the body. -/
structure Reply where
  kind : Byte
  status : Status
  body : List Byte
deriving DecidableEq, Repr

/-- The error set of a port (R182). -/
structure ErrorSet where
  framing : Bool
  crc : Bool
  overrun : Bool
deriving DecidableEq, Repr

/-- The alarm set of a port (R158). -/
structure AlarmSet where
  billing : Bool
  insulation : Bool
  events : Bool
  readings : Bool
deriving DecidableEq, Repr

/-- A port unit. `flags` and `mask` are read and written whole, so they are the 12-bit sets of R184. `shift` is what the
data output drives after a FETCH frame; `shiftsReply` says that it is the pending reply (R181). -/
structure PortUnit where
  request : List Byte
  reply : Option Reply
  shift : List Byte
  shiftsReply : Bool
  errors : ErrorSet
  flags : BitVec 12
  mask : BitVec 12
  alarm : AlarmSet
deriving DecidableEq, Repr

/-- The three port units. -/
structure Ports where
  v : PortUnit
  c : PortUnit
  t : PortUnit
deriving DecidableEq, Repr

/-! ## Configuration items (section 10.3) -/

/-- The stored configuration items (R186). -/
structure Items where
  insPeriodS : Nat
  insWarnOpv : Nat
  insFaultOpv : Nat
  insSettleTol : Nat
  resE1 : Nat
  resE2 : Nat
  heatBand : Nat
  heatIdleS : Nat
  obcPmax : Nat
  obcEff : Nat
  rampStep : Nat
  closeRampStep : Nat
  derateTWarm : Nat
  derateTHot : Nat
  derateTTrip : Nat
  derateWindowS : Nat
  allowWarm : Nat
  allowHot : Nat
  billIntervalMin : Nat
  pulseWhInt : Nat
  pulseWhEighths : Nat
  snapPeriodS : Nat
  markBilling : Nat
  markInsulation : Nat
  markEvents : Nat
  markReadings : Nat
deriving DecidableEq, Repr

/-! ## The machine -/

/-- The state of the part. `resetLow`: RESET_N is low. `free` counts the free values drawn (the model's own field, log
entry 8). `pending` is the queue of waiting commands (the model's own field). -/
structure State where
  resetLow : Bool
  fe : FrontEnd
  sc : Session
  pc : Power
  hc : Heater
  im : Insulation
  ea : EnergyAccount
  ct : ClockTariff
  rs : Store
  se : SnapshotEngine
  ports : Ports
  cfg : Items
  free : Nat
  pending : List Instr
deriving DecidableEq, Repr

/-- Nothing stops the part: every refusal is a reply and every error a member of an error set (R180, R182). No
constructor; safe. -/
inductive Fault where
deriving DecidableEq, Repr

/-- Reasons for which a command has no meaning. -/
inductive Refusal where
  /-- Raised by an arm of `exec` whose command has no meaning yet; safe. No arm raises it. -/
  | notModelled (mnemonic : String)
deriving DecidableEq, Repr

/-! ## Values after reset -/

/-- No last valid value, counter 0 (R7). -/
def HoldChannel.reset : HoldChannel := ⟨none, 0⟩

/-- The front end after either reset (R13). -/
def FrontEnd.reset : FrontEnd :=
  { latest := none, nextSeq := 0, windowMs := 0
    tPack := .reset, tEl1 := .reset, tEl2 := .reset, tObc := .reset
    dueSc := false, duePc := false, dueHc := false, dueIm := false, dueEa := false
    insA := false, insB := false, chassisMs := 0, chassisIndex := 0 }

/-- The empty hold-reason set. -/
def HoldSet.empty : HoldSet := ⟨false, false, false, false, false⟩

/-- The empty lockout-reason set. -/
def LockoutSet.empty : LockoutSet := ⟨false, false⟩

/-- The session controller after COLD (R16, R37). The figures of the unset open time are 0 (DESIGN CHOICE, log entry 25). -/
def Session.reset : Session :=
  { state := .unplugged, plug := .absent, plugCount := 0
    record :=
      { number := 0, payer := .station, label := [], openTime := ⟨true, 0, 0⟩, offer := 0, pause := false
        closeReason := .noReason }
    limits := none, validity := none, gate := false, hold := .empty, lockout := .empty, verify := none
    finalPending := false, commandZero := false, lossNow := false }

/-- The power command after either reset (R55). -/
def Power.reset : Power :=
  { pCmd := 0, aH := 0, lStation := 0, lObc := 0, bReq := 0, derate := .normal, windowCount := 0, windowLen := 600
    used := 0, exhausted := false, duty := 0, pwmMs := 0 }

/-- An element after COLD (R77): OFF, dwell complete. -/
def Element.reset : Element := ⟨.off, .noCause, false, 1000, 0, 0⟩

/-- The heater controller after COLD (R77). -/
def Heater.reset : Heater :=
  { e1 := .reset, e2 := .reset, leg := .disconnected, connect := none, settle := none, idle := none
    idleDeferred := false, mode := false, target := 0, thermostat := false, sensor := false, blanking := none
    diagnosis := false, localiseHold := false }

/-- The empty run. -/
def Run.empty : Run := ⟨0, .noClass⟩

/-- The insulation monitor after COLD (R107). -/
def Insulation.reset : Insulation :=
  { runRequested := true, running := false, cycleRun := false, cycleLeft := 0, request := false, meas := .idle
    number := 0, localise := false, abandoned := 0, phase := none, window := [], va := none, legFlag := false
    counter := 0, last := none, lastValid := none, level := .unmeasured, worse := .empty, better := .empty
    age := some 0, locRecord := none, faults := [], entrySeq := 0, overflow := false, overflowCount := 0, uptime := 0 }

/-- An account of zeros (R115). -/
def Account.zero : Account := ⟨⟨0, 0⟩, ⟨0, 0⟩, ⟨0, 0⟩, ⟨0, 0⟩, ⟨0, 0⟩, false, false⟩

/-- The energy account after COLD (R123, R125). -/
def EnergyAccount.reset : EnergyAccount :=
  { session := .zero, accruing := false, lifetime := .zero, unassigned := ⟨0, 0⟩, unassignedFrozen := false
    acc := 0, pulses := 0, lost := 0, pulse := .ready, pulseMs := 0 }

/-- The clock and tariff unit after COLD (R147). R147 has the timebase running and gives no phase: it starts at 0 ms, so that
the first tick falls 1 s after the reset (DESIGN CHOICE, log entry 38). -/
def ClockTariff.reset : ClockTariff :=
  { day := 0, sec := 0, valid := false, timebase := 0, station := ⟨none, none, 0⟩, fleet := ⟨none, none, 0⟩
    interval := none, price := 0, elapsed := 0, cost := 0, reported := 0, held := none, finalRecord := none }

/-- The default plan (R163). -/
def Store.reset : Store :=
  { slots := []
    areas := #v[some ⟨0, 96⟩, some ⟨96, 64⟩, some ⟨160, 64⟩, some ⟨224, 32⟩, none, none]
    billing := ⟨some ⟨0, .t, 0, 0⟩, 0, 0⟩
    insulation := ⟨some ⟨1, .v, 96, 0⟩, 0, 0⟩
    events := ⟨some ⟨2, .t, 160, 0⟩, 0, 0⟩
    readings := ⟨some ⟨3, .c, 224, 0⟩, 0, 0⟩ }

/-- The snapshot engine after COLD (R176). -/
def SnapshotEngine.reset : SnapshotEngine :=
  { vectors := #v[⟨false, 0⟩, ⟨false, 1⟩, ⟨false, 2⟩, ⟨false, 3⟩, ⟨false, 4⟩, ⟨false, 5⟩, ⟨false, 6⟩, ⟨false, 7⟩,
      ⟨false, 8⟩, ⟨false, 9⟩, ⟨false, 10⟩, ⟨false, 11⟩]
    descs := Vector.replicate 16 ⟨false, .session, false, 0, 1, false, false⟩
    waiting := Vector.replicate 12 none
    missed := Vector.replicate 12 0
    service := none, justServed := [], periodic := 0, uptime := 0 }

/-- A port unit after either reset (R188), with its default enable mask (R184). -/
def PortUnit.reset (mask : BitVec 12) : PortUnit :=
  { request := [], reply := none, shift := [], shiftsReply := false, errors := ⟨false, false, false⟩, flags := 0
    mask := mask, alarm := ⟨false, false, false, false⟩ }

/-- The port units after either reset, with the default enable masks of R184: V enables SESSION, INSULATION, FAULT_TABLE,
HEATER, DERATE, LIMITS_STALE, STREAM, ALARM, PORT_ERROR; C enables SESSION, INSULATION, DERATE, TARIFF, STREAM, ALARM,
PORT_ERROR; T enables SESSION, TARIFF, BILLING, CAPTURE, STREAM, ALARM, PORT_ERROR. -/
def Ports.reset : Ports :=
  ⟨.reset 0b111000111111, .reset 0b111001010011, .reset 0b111111000001⟩

/-- The defaults of R186. -/
def Items.reset : Items :=
  { insPeriodS := 10, insWarnOpv := 500, insFaultOpv := 100, insSettleTol := 3, resE1 := 800, resE2 := 800
    heatBand := 20, heatIdleS := 30, obcPmax := 11000, obcEff := 960, rampStep := 500, closeRampStep := 1000
    derateTWarm := 750, derateTHot := 850, derateTTrip := 950, derateWindowS := 60, allowWarm := 150, allowHot := 60
    billIntervalMin := 15, pulseWhInt := 1, pulseWhEighths := 0, snapPeriodS := 0, markBilling := 1
    markInsulation := 1, markEvents := 8, markReadings := 16 }

/-- The part after a COLD reset, with no command waiting and RESET_N high (DESIGN CHOICE, log entry 17: no rule gives that
level). -/
def State.reset : State :=
  { resetLow := false, fe := .reset, sc := .reset, pc := .reset, hc := .reset, im := .reset, ea := .reset
    ct := .reset, rs := .reset, se := .reset, ports := .reset, cfg := .reset, free := 0, pending := [] }

end Sys2Proof.Machine
end

