-- ==== Sys2Proof/Machine/Ops.lean ====
section
/-! DEFINITION. The named operations every block uses: one update per block of State, rounding and clamping, the slots of
the record store, time stamps, notices and errors of the ports, snapshot occurrences, and the passing of time. -/

namespace Sys2Proof.Machine

/-! ## One update for each block -/

def State.onFe (s : State) (f : FrontEnd → FrontEnd) : State := { s with fe := f s.fe }
def State.onSc (s : State) (f : Session → Session) : State := { s with sc := f s.sc }
def State.onPc (s : State) (f : Power → Power) : State := { s with pc := f s.pc }
def State.onHc (s : State) (f : Heater → Heater) : State := { s with hc := f s.hc }
def State.onIm (s : State) (f : Insulation → Insulation) : State := { s with im := f s.im }
def State.onEa (s : State) (f : EnergyAccount → EnergyAccount) : State := { s with ea := f s.ea }
def State.onCt (s : State) (f : ClockTariff → ClockTariff) : State := { s with ct := f s.ct }
def State.onRs (s : State) (f : Store → Store) : State := { s with rs := f s.rs }
def State.onSe (s : State) (f : SnapshotEngine → SnapshotEngine) : State := { s with se := f s.se }
def State.onPorts (s : State) (f : Ports → Ports) : State := { s with ports := f s.ports }
def State.onCfg (s : State) (f : Items → Items) : State := { s with cfg := f s.cfg }

/-- One more free value drawn (log entry 8). -/
def State.draw (s : State) : State := { s with free := s.free + 1 }

/-! ## Figures -/

/-- Rounding to the nearest unit, halves away from zero (R3, R5, R11). -/
def roundMean (m : Mean) : Int :=
  if m.num < 0 then -(((2 * m.num.natAbs + m.den) / (2 * m.den) : Nat) : Int)
  else (((2 * m.num.natAbs + m.den) / (2 * m.den) : Nat) : Int)

/-- The nearer end of `lo..hi` for a figure outside it (R4, R17, R185). -/
def clampInt (lo hi x : Int) : Int := if x < lo then lo else if hi < x then hi else x

/-- `clampInt` on counts. -/
def clampNat (lo hi x : Nat) : Nat := if x < lo then lo else if hi < x then hi else x

/-- The maximum of a 32-bit count. -/
def max32 : Nat := 4294967295

/-- A count that saturates at `top` (00_scope.md, Counts and arithmetic). -/
def satAdd (top x n : Nat) : Nat := min top (x + n)

/-- One Wh in mW·ds (R110). -/
def whUnit : Nat := 36000000

/-! ## Vectors -/

/-- Write entry `i` of a table whose index is in range. -/
def vput {α : Type} {n : Nat} (v : Vector α n) (i : Fin n) (x : α) : Vector α n := v.set i.val x i.isLt

/-! ## The slots of the record store (R148)

An unlisted slot is empty, so the canonical form lists the slots that hold a record, their numbers strictly rising. -/

/-- The record slot `a` holds. -/
def slotGet : List (Nat × Record) → Nat → Option Record
  | [], _ => none
  | (k, r) :: m, a => if k = a then some r else slotGet m a

/-- Write record `r` into slot `a`. -/
def slotPut : List (Nat × Record) → Nat → Record → List (Nat × Record)
  | [], a, r => [(a, r)]
  | (k, x) :: m, a, r => if a < k then (a, r) :: (k, x) :: m else if a = k then (a, r) :: m else (k, x) :: slotPut m a r

/-- Empty slot `a`. -/
def slotClear : List (Nat × Record) → Nat → List (Nat × Record)
  | [], _ => []
  | (k, x) :: m, a => if k = a then slotClear m a else (k, x) :: slotClear m a

/-- Empty each slot of a list. -/
def slotClearAll : List (Nat × Record) → List Nat → List (Nat × Record)
  | m, [] => m
  | m, a :: as => slotClearAll (slotClear m a) as

/-- The canonical form from slot `lo` on: slot numbers strictly rising, at least `lo` and at most 255. -/
def slotsWfFrom : Nat → List (Nat × Record) → Bool
  | _, [] => true
  | lo, (k, _) :: m => lo ≤ k && k ≤ 255 && slotsWfFrom (k + 1) m

/-- The canonical form. -/
def slotsWf (m : List (Nat × Record)) : Bool := slotsWfFrom 0 m

/-! ## The port units, by port -/

/-- The unit of port `p`. -/
def Ports.get (u : Ports) : Port → PortUnit
  | .v => u.v
  | .c => u.c
  | .t => u.t

/-- Replace the unit of port `p`. -/
def Ports.put (u : Ports) (p : Port) (x : PortUnit) : Ports :=
  match p with
  | .v => { u with v := x }
  | .c => { u with c := x }
  | .t => { u with t := x }

/-- Update the unit of port `p`. -/
def State.onPort (s : State) (p : Port) (f : PortUnit → PortUnit) : State :=
  s.onPorts fun u => u.put p (f (u.get p))

/-- Update every unit alike. -/
def Ports.map (u : Ports) (f : PortUnit → PortUnit) : Ports := ⟨f u.v, f u.c, f u.t⟩

/-! ## Notices (R183) -/

/-- The notice flags (section 10.2). -/
inductive Notice where
  | session | insulation | faultTable | heater | derate | limitsStale | tariff | billing | capture | stream | alarm
  | portError
deriving DecidableEq, Repr

/-- The flag's position in every flag set (section 10.2). -/
def Notice.code : Notice → Nat
  | .session => 0
  | .insulation => 1
  | .faultTable => 2
  | .heater => 3
  | .derate => 4
  | .limitsStale => 5
  | .tariff => 6
  | .billing => 7
  | .capture => 8
  | .stream => 9
  | .alarm => 10
  | .portError => 11

/-- The flag set that holds the flag alone. -/
def Notice.bit (n : Notice) : BitVec 12 := BitVec.ofNat 12 (2 ^ n.code)

/-- Set a flag of one unit; a flag already set stays set (R183). -/
def PortUnit.raise (n : Notice) (u : PortUnit) : PortUnit := { u with flags := u.flags ||| n.bit }

/-- Raise a notice in all three ports (R183). -/
def raiseAll (n : Notice) (s : State) : State := s.onPorts fun u => u.map (PortUnit.raise n)

/-- Raise a notice in one port (R183). -/
def raiseAt (p : Port) (n : Notice) (s : State) : State := s.onPort p (PortUnit.raise n)

/-! ## Errors of a port (R182) -/

/-- The errors a port records (R182). -/
inductive PortError where
  | framing | crc | overrun
deriving DecidableEq, Repr

/-- Add a member to an error set. -/
def ErrorSet.add (e : ErrorSet) : PortError → ErrorSet
  | .framing => { e with framing := true }
  | .crc => { e with crc := true }
  | .overrun => { e with overrun := true }

/-- Record an error: it joins the set and raises PORT_ERROR of that port (R182). -/
def recordError (p : Port) (x : PortError) (s : State) : State :=
  s.onPort p fun u => PortUnit.raise .portError { u with errors := u.errors.add x }

/-! ## Time stamps (R91, R102, R126, R166) -/

/-- The time stamp a block makes now: day and second if the clock is valid, else the block's own count marked unset, the
day figure a free value (log entry 8). -/
def stamp (count : Nat) (s : State) : Stamp :=
  if s.ct.valid then ⟨false, s.ct.day, s.ct.sec⟩ else ⟨true, (Config.unsetDay s.free).toNat, count⟩

/-- The state once a stamp has been made: a free value is drawn if the clock is unset. -/
def stamped (s : State) : State := if s.ct.valid then s else s.draw

/-! ## Snapshot occurrences (R166) -/

/-- The source's number (section 9.1). -/
def Source.code : Source → Fin 12
  | .sessionOpened => 0
  | .sessionClosed => 1
  | .stateChanged => 2
  | .intervalClosed => 3
  | .levelChanged => 4
  | .heaterEvent => 5
  | .derateChanged => 6
  | .tariffApplied => 7
  | .limitsChanged => 8
  | .offerChanged => 9
  | .periodic => 10
  | .request => 11

/-- What became of an occurrence (R175), coded in that order. -/
inductive Occurrence where
  | pended | missed | disabled
deriving DecidableEq, Repr

/-- How the engine handles an occurrence of a source now (R166). -/
def occurOutcome (src : Source) (s : State) : Occurrence :=
  if (s.se.vectors.get src.code).enabled then
    match s.se.waiting.get src.code with
    | none => .pended
    | some _ => .missed
  else .disabled

/-- One occurrence of a source (R166): ignored, joined to the pending set with its trigger time, or missed. -/
def occurFrom (port : Option Port) (src : Source) (s : State) : State :=
  match occurOutcome src s with
  | .disabled => s
  | .pended =>
    (stamped s).onSe fun e => { e with waiting := vput e.waiting src.code (some ⟨stamp s.se.uptime s, port⟩) }
  | .missed =>
    raiseAll .capture (s.onSe fun e =>
      { e with missed := vput e.missed src.code (satAdd 255 (e.missed.get src.code) 1) })

/-- An occurrence that no port asked for. -/
def occur (src : Source) (s : State) : State := occurFrom none src s

/-! ## The passing of time (log entries 1 and 2) -/

/-- A timer that counts down to 0 after `dt` ms. -/
def countDown (dt : Nat) (t : Option Nat) : Option Nat := t.map (· - dt)

/-- A timer that counts up after `dt` ms. -/
def countUp (dt : Nat) (t : Option Nat) : Option Nat := t.map (· + dt)

def FrontEnd.elapse (dt : Nat) (f : FrontEnd) : FrontEnd :=
  { f with
    windowMs := f.windowMs + dt
    chassisMs := if f.insA || f.insB then f.chassisMs + dt else f.chassisMs }

/-- The session timers run; once time passes, a plug loss is no longer of this instant (R18, R23, R27). -/
def Session.elapse (dt : Nat) (c : Session) : Session :=
  { c with
    validity := countDown dt c.validity
    verify := countDown dt c.verify
    lossNow := if dt = 0 then c.lossNow else false }

/-- A dwell timer saturates once its 1000 ms are complete (R63). -/
def Element.elapse (dt : Nat) (e : Element) : Element := { e with dwell := satAdd 1000 e.dwell dt }

def Heater.elapse (dt : Nat) (h : Heater) : Heater :=
  { h with
    e1 := h.e1.elapse dt
    e2 := h.e2.elapse dt
    connect := countDown dt h.connect
    settle := countDown dt h.settle
    blanking := countDown dt h.blanking
    idle := countUp dt h.idle }

def Insulation.elapse (dt : Nat) (m : Insulation) : Insulation :=
  { m with
    cycleLeft := if m.cycleRun then m.cycleLeft - dt else m.cycleLeft
    phase := countDown dt m.phase
    age := countUp dt m.age }

/-- A composition nears its end; once time passes, a completion is no longer of this instant (R171, R173). -/
def SnapshotEngine.elapse (dt : Nat) (e : SnapshotEngine) : SnapshotEngine :=
  { e with
    service := e.service.map fun v => { v with left := v.left - dt }
    justServed := if dt = 0 then e.justServed else [] }

/-- `dt` ms pass. While RESET_N is low only the timebase of the day clock runs (R126; log entry 24). -/
def elapse (dt : Nat) (s : State) : State :=
  let s := s.onCt fun c => { c with timebase := c.timebase + dt }
  if s.resetLow then s
  else
    { s with
      fe := s.fe.elapse dt
      sc := s.sc.elapse dt
      pc := { s.pc with pwmMs := s.pc.pwmMs + dt }
      hc := s.hc.elapse dt
      im := s.im.elapse dt
      ea := { s.ea with pulseMs := s.ea.pulseMs - dt }
      se := s.se.elapse dt }

end Sys2Proof.Machine
end

