-- ==== Sys2Proof/Machine/Flags.lean ====
section
/-! DEFINITION. The figures and outputs the spec derives from the state: session open, CHG_EN, H_on and demand, the drives,
the notice lines, the STREAM conditions, the pulse quantum, SATURATED summaries and tariff status. -/

namespace Sys2Proof.Machine

/-! ## Front end -/

/-- The SATURATED summary of a set (R4): at least one electrical channel carries SATURATED. -/
def SampleSet.saturated (x : SampleSet) : Bool := x.satPIn || x.satVBus || x.satIBat || x.satIHeat

/-- The channel carries a value, unmarked, SATURATED or HELD. -/
def TempReading.carries (t : TempReading) : Bool := t.mark != .missing

/-- v_bus of the latest sample set, 0 where none has arrived since the last reset (R43; log entry 26). -/
def latestVBus (s : State) : Nat :=
  match s.fe.latest with
  | some x => x.vBus
  | none => 0

/-! ## Session -/

/-- A session is open (chapter 2): VERIFYING, PREHEAT, CHARGING, HOLD or CLOSING. -/
def SessionState.isOpen : SessionState → Bool
  | .verifying | .preheat | .charging | .hold | .closing => true
  | .unplugged | .connected | .lockedOut => false

/-- The LIMITS record is valid (R17, R18). -/
def Session.limitsValid (c : Session) : Bool := c.validity.isSome

/-- The hold-reason set is non-empty. -/
def HoldSet.any (h : HoldSet) : Bool := h.stationPause || h.insulationUnknown || h.packSensor || h.busLow || h.limitsStale

/-- The level is OK or WARNING. -/
def Level.sound : Level → Bool
  | .ok | .warning => true
  | .unmeasured | .fault | .unknown => false

/-- The session state lets CHG_EN be high (R34). -/
def Session.permits (c : Session) : Bool :=
  match c.state with
  | .preheat | .charging | .hold => true
  | .closing => !c.commandZero
  | .unplugged | .connected | .verifying | .lockedOut => false

/-- CHG_EN (R34). It is low while RESET_N is low (section 1.7, R37). -/
def chgEn (s : State) : Bool := !s.resetLow && s.sc.permits && s.im.level.sound

/-! ## Power command -/

/-- The duty P_cmd sets, in per-mille (R42). -/
def dutySet (pCmd : Nat) : Nat := pCmd * 1000 / 22000

/-- The duty driven on OBC_CMD; 0 holds it low (R42, R55). -/
def obcCmd (s : State) : Nat := if s.resetLow then 0 else s.pc.duty

/-! ## Heater -/

/-- The element with index `k`. -/
def Heater.get (h : Heater) : ElemId → Element
  | .e1 => h.e1
  | .e2 => h.e2

/-- The element is ON. -/
def Element.isOn (e : Element) : Bool := e.state == .on

/-- At least one element is ON. -/
def Heater.anyOn (h : Heater) : Bool := h.e1.isOn || h.e2.isOn

/-- The disconnect HLD is closed (R59). -/
def Heater.hldClosed (h : Heater) : Bool := h.leg == .connecting || h.leg == .connected

/-- Available to selection (R57): OFF or ON, and not E2 held out by the OPEN diagnosis. -/
def Heater.available (h : Heater) : ElemId → Bool
  | .e1 => h.e1.state == .off || h.e1.state == .on
  | .e2 => (h.e2.state == .off || h.e2.state == .on) && !h.diagnosis

/-- H_on: the summed rated power of the elements that are ON (R57). -/
def Heater.hOn (h : Heater) : Nat :=
  (if h.e1.isOn then h.e1.rated else 0) + (if h.e2.isOn then h.e2.rated else 0)

/-- Demand (R57). -/
def Heater.demand (h : Heater) : Nat :=
  if h.thermostat then
    (if h.available .e1 then h.e1.rated else 0) + (if h.available .e2 then h.e2.rated else 0)
  else 0

/-- The drive of an element switch; held open while RESET_N is low (R57, R59). -/
def heDrive (k : ElemId) (s : State) : Bool := !s.resetLow && (s.hc.get k).isOn

/-- The drive of the leg disconnect; held open while RESET_N is low (R59). -/
def hldDrive (s : State) : Bool := !s.resetLow && s.hc.hldClosed

/-! ## Insulation monitor -/

/-- The measurement-in-phase condition (R84, R85). -/
def Insulation.inPhase (m : Insulation) : Bool := m.meas == .phaseA || m.meas == .phaseB

/-- The drive of INS_A; held open while RESET_N is low (R84, R107). -/
def insADrive (s : State) : Bool := !s.resetLow && s.fe.insA

/-- The drive of INS_B; held open while RESET_N is low (R84, R107). -/
def insBDrive (s : State) : Bool := !s.resetLow && s.fe.insB

/-- A measurement is in progress (R79): PHASE_A, PHASE_B or LOCALISING. -/
def Insulation.busy (m : Insulation) : Bool := m.meas != .idle

/-- The age limit of the level in ms, from the item in force (R96). -/
def ageLimit (s : State) : Nat := 3 * s.cfg.insPeriodS * 1000

/-! ## Energy account -/

/-- Either freeze of an account sets its saturated flag (R113). -/
def Account.saturated (a : Account) : Bool := a.gridFrozen || a.hbFrozen

/-- The pulse quantum q in eighths of a Wh (R120). -/
def pulseQuantum (i : Items) : Nat := 8 * i.pulseWhInt + i.pulseWhEighths

/-- The pulse path is stalled (R121). -/
def EnergyAccount.stalled (a : EnergyAccount) : Bool := a.pulses == 255 && a.lost == max32

/-- PULSE (R122); low while RESET_N is low (R123). -/
def pulseOut (s : State) : Bool := !s.resetLow && s.ea.pulse == .high

/-! ## Tariffs -/

/-- The status of a kind (R130). -/
inductive TariffStatus where
  | noTable | waiting | applied
deriving DecidableEq, Repr

/-- NONE, PENDING or APPLIED (R130). -/
def TariffKind.status (k : TariffKind) : TariffStatus :=
  match k.staged, k.active with
  | some _, _ => .waiting
  | none, some _ => .applied
  | none, none => .noTable

/-- The tables of a kind. -/
def ClockTariff.kind (c : ClockTariff) : Payer → TariffKind
  | .station => c.station
  | .fleet => c.fleet

/-- Minute of day (R126). -/
def minuteOf (sec : Nat) : Nat := sec / 60

/-! ## Record store -/

/-- The state of a stream. -/
def Store.stream (r : Store) : Stream → StreamState
  | .billing => r.billing
  | .insulation => r.insulation
  | .events => r.events
  | .readings => r.readings

/-- The definition of an area; no slots where it is undefined or out of range. -/
def Store.area (r : Store) (i : Nat) : Area :=
  match r.areas[i]? with
  | some (some a) => a
  | _ => ⟨0, 0⟩

/-- The mark in force (R161). -/
def Items.mark (i : Items) : Stream → Nat
  | .billing => i.markBilling
  | .insulation => i.markInsulation
  | .events => i.markEvents
  | .readings => i.markReadings

/-- The stream is over its mark and `p` is its consumer port (R161). -/
def overMarkFor (p : Port) (st : Stream) (s : State) : Bool :=
  match (s.rs.stream st).join with
  | some j => j.port == p && 0 < s.cfg.mark st && s.cfg.mark st ≤ j.count
  | none => false

/-- The STREAM condition of a port (R161). -/
def streamCondition (p : Port) (s : State) : Bool :=
  overMarkFor p .billing s || overMarkFor p .insulation s || overMarkFor p .events s || overMarkFor p .readings s

/-- BILLING has a free slot (R162). -/
def billingRoom (s : State) : Bool :=
  match s.rs.billing.join with
  | some j => j.count < (s.rs.area j.area).count
  | none => false

/-! ## Ports -/

/-- The notice line of a port is asserted (R183); released while RESET_N is low (R188). -/
def noticeLine (p : Port) (s : State) : Bool :=
  !s.resetLow && ((s.ports.get p).flags &&& (s.ports.get p).mask) != 0

/-- What the controller does at a port: chip select is released, a frame is being clocked in, or a byte is clocked after the
complete frame, which was a FETCH or another frame; bytes after the frame are numbered from 0 (R178, R181). -/
inductive Clocking where
  | released
  | frame
  | afterFetch (k : Nat)
  | afterOther (k : Nat)
deriving DecidableEq, Repr

/-- What a port's data output does. -/
inductive DataOut where
  | highImpedance
  | drives (b : Byte)
deriving DecidableEq, Repr

/-- The data output of a port (R178, R181): high-impedance while RESET_N is low or chip select is high, 0x00 while a frame is
clocked in; after a FETCH frame the reply, then 0x00. After another frame the byte is a free value (log entry 41). -/
def dataOut (p : Port) (x : Clocking) (s : State) : DataOut :=
  if s.resetLow then .highImpedance
  else
    match x with
    | .released => .highImpedance
    | .frame => .drives 0
    | .afterFetch k => .drives ((s.ports.get p).shift.getD k 0)
    | .afterOther k => .drives (Config.restOutput s.free k)

/-- A flag of a set is set. -/
def flagSet (n : Notice) (f : BitVec 12) : Bool := (f &&& n.bit) != 0

/-- Write one flag of a set. -/
def writeFlag (n : Notice) (b : Bool) (f : BitVec 12) : BitVec 12 := if b then f ||| n.bit else f &&& ~~~ n.bit

/-- The STREAM flag of each port takes its condition (R161). -/
def refreshStream (s : State) : State :=
  s.onPorts fun u =>
    { v := { u.v with flags := writeFlag .stream (streamCondition .v s) u.v.flags }
      c := { u.c with flags := writeFlag .stream (streamCondition .c s) u.c.flags }
      t := { u.t with flags := writeFlag .stream (streamCondition .t s) u.t.flags } }

end Sys2Proof.Machine
end

