-- ==== Sys2Proof/Machine/HeaterOps.lean ====
section
/-! DEFINITION. The operations of the heater controller: turning elements on and off, opening and connecting the leg, the
fit of the elements in the allowance, the selection, the commands of the insulation monitor and the lockout (chapter 4). -/

namespace Sys2Proof.Machine

/-- Update one element. -/
def Heater.on (h : Heater) (k : ElemId) (f : Element → Element) : Heater :=
  match k with
  | .e1 => { h with e1 := f h.e1 }
  | .e2 => { h with e2 := f h.e2 }

/-- An element leaves ON: its dwell and the blanking timer restart, a diagnosis is abandoned when E1 leaves ON, and the
idle timer starts when no element is ON on a CONNECTED leg (R63, R68, R69, R70). Nothing for an element that is not ON. -/
def Heater.turnOff (left : ElemState) (k : ElemId) (h : Heater) : Heater :=
  if (h.get k).isOn then
    let h := h.on k fun e => { e with state := left, dwell := 0 }
    { h with
      blanking := some 300
      diagnosis := if k = .e1 then false else h.diagnosis
      idle := if h.leg = .connected ∧ h.anyOn = false then some 0 else h.idle }
  else h

/-- Both elements turned off. -/
def Heater.allOff (h : Heater) : Heater := (h.turnOff .off .e1).turnOff .off .e2

/-- The leg opens from CONNECTING or CONNECTED, its elements with it, and the settle timer starts (R59). -/
def Heater.openLeg (h : Heater) : Heater :=
  if h.hldClosed then
    { h.allOff with leg := .disconnected, settle := some 200, connect := none, idle := none, idleDeferred := false }
  else h

/-- A turn-on (R64). -/
def Heater.turnOn (k : ElemId) (h : Heater) : Heater :=
  { h.on k (fun e => { e with state := .on, dwell := 0 }) with blanking := some 300, idle := none, idleDeferred := false }

/-! ## Selection and fit (R62, R65) -/

/-- A set of elements to have on. -/
structure Selection where
  e1 : Bool
  e2 : Bool
deriving DecidableEq, Repr

/-- The element is selected. -/
def Selection.has (x : Selection) : ElemId → Bool
  | .e1 => x.e1
  | .e2 => x.e2

/-- The element may be chosen alone: available, of a rated power above 0 and at most `a` (R62). -/
def Heater.fitsAlone (h : Heater) (a : Nat) (k : ElemId) : Bool :=
  h.available k && 0 < (h.get k).rated && (h.get k).rated ≤ a

/-- The single-element rule of R62: the one with the largest rated power that fits, E1 when they are equal. -/
def Heater.single (h : Heater) (a : Nat) : Selection :=
  if h.fitsAlone a .e1 && h.fitsAlone a .e2 then
    if h.e1.rated < h.e2.rated then ⟨false, true⟩ else ⟨true, false⟩
  else ⟨h.fitsAlone a .e1, h.fitsAlone a .e2⟩

/-- The selection against the allowance `a` (R62). An element with a rated power of 0 is not chosen. -/
def Heater.selection (h : Heater) (a : Nat) : Selection :=
  if !h.thermostat then ⟨false, false⟩
  else if h.available .e1 && h.available .e2 && h.e1.rated + h.e2.rated ≤ a then
    ⟨0 < h.e1.rated, 0 < h.e2.rated⟩
  else h.single a

/-- The fit of the elements ON in the allowance `a`; those that do not fit are turned off (R65). -/
def Heater.fit (a : Nat) (h : Heater) : Heater :=
  if h.hOn ≤ a then h
  else if h.e1.isOn && h.e2.isOn then
    let x := h.single a
    let h := if x.e1 then h else h.turnOff .off .e1
    if x.e2 then h else h.turnOff .off .e2
  else h.allOff

/-! ## Applying the selection (R63, R64) -/

/-- An element ON outside the selection goes off once its ON dwell is complete. -/
def Heater.dropUnselected (x : Selection) (k : ElemId) (h : Heater) : Heater :=
  if !x.has k && 1000 ≤ (h.get k).dwell then h.turnOff .off k else h

/-- What a turn-on needs besides the element's own conditions (R64). -/
structure TurnOnBars where
  phase : Bool
  lockedOut : Bool
deriving DecidableEq, Repr

/-- A selected element that is OFF goes on when all of R64 holds. -/
def Heater.takeSelected (a : Nat) (bars : TurnOnBars) (x : Selection) (k : ElemId) (h : Heater) : Heater :=
  if x.has k && (h.get k).state == .off && h.leg == .connected && 1000 ≤ (h.get k).dwell && !bars.phase &&
      !h.localiseHold && !bars.lockedOut && h.hOn + (h.get k).rated ≤ a then
    h.turnOn k
  else h

/-- The selection applied: turn-offs, then turn-ons, E1 first (R64). -/
def Heater.applySelection (a : Nat) (bars : TurnOnBars) (h : Heater) : Heater :=
  let x := h.selection a
  let h := (h.dropUnselected x .e1).dropUnselected x .e2
  (h.takeSelected a bars x .e1).takeSelected a bars x .e2

/-- A connection is started when all of R66 holds. -/
def Heater.startConnection (bars : TurnOnBars) (h : Heater) : Heater :=
  if h.thermostat && h.leg == .disconnected && h.settle.isNone && !bars.phase && !h.localiseHold && !bars.lockedOut then
    { h with leg := .connecting, connect := some 200 }
  else h

/-! ## Rated powers and hot conditions (R56, R58) -/

/-- Rated power and expected current at a bus voltage (R56). -/
def Element.rate (vBus res : Nat) (e : Element) : Element :=
  { e with rated := vBus * vBus / (10 * res), current := vBus * 100 / res }

/-- The hot condition after a reading (R58). -/
def hotAfter (t : TempReading) (hot : Bool) : Bool :=
  if t.mark = .missing then true else if 1200 ≤ t.value then true else if t.value < 1100 then false else hot

/-- The hot condition taken from a reading, with the element's passage into or out of HOT_LOCK (R58). -/
def Heater.takeTemp (t : TempReading) (k : ElemId) (h : Heater) : Heater :=
  let hot := hotAfter t (h.get k).hot
  let h := h.on k fun e => { e with hot := hot }
  if hot then
    match (h.get k).state with
    | .off => h.on k fun e => { e with state := .hotLock }
    | .on => h.turnOff .hotLock k
    | .hotLock | .disabled => h
  else
    match (h.get k).state with
    | .hotLock => h.on k fun e => { e with state := .off }
    | .off | .on | .disabled => h

/-! ## The thermostat (R61) -/

/-- The thermostat flag after a reading of t_pack (R61). -/
def Heater.thermostatAfter (band : Nat) (t : TempReading) (h : Heater) : Bool :=
  if !h.mode then false
  else if t.mark = .missing then false
  else if h.target ≤ t.value then false
  else if t.value < h.target - band then true
  else h.thermostat

/-- The notice and the source of a heater event (R76). -/
def heaterEvent (s : State) : State := occur .heaterEvent (raiseAll .heater s)

/-- Thermostat flag and HEATER_SENSOR evaluated from t_pack (R61). A MISSING t_pack turns the elements off at once, as a
safety turn-off (R61, R64; log entry 22). -/
def evalThermostat (t : TempReading) (s : State) : State :=
  let flag := s.hc.thermostatAfter s.cfg.heatBand t
  if t.mark = .missing then
    let s' := s.onHc fun h => { h with thermostat := flag, sensor := true }.allOff
    if s.hc.sensor then s' else heaterEvent s'
  else s.onHc fun h => { h with thermostat := flag, sensor := false }

/-! ## The current check (R69 to R71) -/

/-- The outcome of a current check. -/
inductive Check where
  | notRun | low | high | pass
deriving DecidableEq, Repr

/-- I_exp: the summed expected current of the elements ON (R69). -/
def Heater.expected (h : Heater) : Nat :=
  (if h.e1.isOn then h.e1.current else 0) + (if h.e2.isOn then h.e2.current else 0)

/-- The current check on a set (R69). -/
def Heater.check (vBus iHeat : Nat) (h : Heater) : Check :=
  if h.anyOn && h.blanking.isNone && 500 ≤ vBus then
    if 4 * iHeat < 3 * h.expected then .low
    else if 5 * h.expected < 4 * iHeat then .high
    else .pass
  else .notRun

/-- An element enters DISABLED with a cause, its switch opening if it was ON (R57, R70). -/
def Heater.disable (c : ElemCause) (k : ElemId) (h : Heater) : Heater :=
  (h.turnOff .disabled k).on k fun e => { e with state := .disabled, cause := c }

/-- A low check with both elements ON begins the diagnosis: E2 off and held out (R70). -/
def Heater.beginDiagnosis (h : Heater) : Heater := { h.turnOff .off .e2 with diagnosis := true }

/-- An overcurrent finding: all off, leg open, both DISABLED with cause OVERCURRENT, any diagnosis ended (R71). -/
def Heater.overcurrent (h : Heater) : Heater :=
  { (h.allOff.openLeg.disable .overcurrent .e1).disable .overcurrent .e2 with diagnosis := false }

/-- The current check of a set and what it finds (R69, R70, R71). -/
def takeCheck (vBus iHeat : Nat) (s : State) : State :=
  match s.hc.check vBus iHeat with
  | .notRun => s
  | .high => heaterEvent (s.onHc Heater.overcurrent)
  | .low =>
    if s.hc.e1.isOn && s.hc.e2.isOn then s.onHc Heater.beginDiagnosis
    else if s.hc.e1.isOn then heaterEvent (s.onHc fun h => { h.disable .openCircuit .e1 with diagnosis := false })
    else heaterEvent (s.onHc (Heater.disable .openCircuit .e2))
  | .pass =>
    if s.hc.diagnosis then heaterEvent (s.onHc fun h => { h.disable .openCircuit .e2 with diagnosis := false }) else s

/-! ## The idle disconnect (R68) -/

/-- The idle timer has reached HEAT_IDLE_S, and a HEAT_IDLE_S of 0 keeps the leg connected (R68). -/
def Heater.idleReached (idleS : Nat) (h : Heater) : Bool :=
  match h.idle with
  | some t => 0 < idleS && idleS * 1000 ≤ t
  | none => false

/-- The idle limit acts: the leg opens, or the disconnect waits while a measurement phase holds (R68, R72). -/
def idleLimit (s : State) : State :=
  if s.im.inPhase then s.onHc fun h => { h with idleDeferred := true } else s.onHc Heater.openLeg

/-! ## Commands of the insulation monitor and lockout (R73, R74) -/

/-- LOCALISE (R73). -/
def localiseLeg (s : State) : State := s.onHc fun h => { h.allOff.openLeg with localiseHold := true }

/-- ISOLATE (R73): the hold ends and the leg enters ISOLATED. -/
def isolateLeg (s : State) : State := heaterEvent (s.onHc fun h => { h with localiseHold := false, leg := .isolated })

/-- RELEASE (R73): the hold ends and the leg stays DISCONNECTED. -/
def releaseLeg (s : State) : State := s.onHc fun h => { h with localiseHold := false }

/-- The turn-offs of entry into LOCKED_OUT (R74): elements off, diagnosis cancelled, leg open. -/
def heaterLockout (s : State) : State := s.onHc fun h => { h.allOff.openLeg with diagnosis := false }

end Sys2Proof.Machine
end

