-- ==== Sys2Proof/Machine/PowerOps.lean ====
section
/-! DEFINITION. The operations of the power command that other blocks bring about: the stage values, the heater allowance
and its publication, and the effect of a change of session state on P_cmd (sections 3.1 to 3.3, 3.6, 3.7). -/

namespace Sys2Proof.Machine

/-! ## Stage values (R39, R40) -/

/-- Stage 1, the station limit (R39). -/
def lStationOf (s : State) : Nat := s.sc.record.offer * s.cfg.obcEff / 1024

/-- Stage 2, the charger limit (R39). -/
def lObcOf (s : State) : Nat :=
  match s.pc.derate with
  | .normal => s.cfg.obcPmax
  | .warm => if s.pc.exhausted then 0 else s.cfg.obcPmax
  | .hot => if s.pc.exhausted then 0 else s.cfg.obcPmax / 2
  | .trip => 0

/-- Stage 3, the battery request at a bus voltage (R40). -/
def bReqOf (vBus : Nat) (s : State) : Nat :=
  match s.sc.limits with
  | none => 0
  | some l =>
    if s.sc.state = .preheat ∨ s.sc.limitsValid = false ∨ l.vBmax ≤ vBus then 0 else vBus * l.iBmax / 100

/-- P_heat_batt while the LIMITS record is valid, else 0 (R43). -/
def pHeatBatt (s : State) : Nat :=
  match s.sc.limits with
  | none => 0
  | some l => if s.sc.limitsValid then l.pHeatBatt else 0

/-- Stage 5, the heater allowance (R43). -/
def allowanceOf (vBus : Nat) (s : State) : Nat :=
  match s.sc.state with
  | .preheat | .charging => min (lStationOf s) (lObcOf s) - bReqOf vBus s
  | .lockedOut => 0
  | .unplugged | .connected | .verifying | .hold | .closing => pHeatBatt s

/-- The stage values and the allowance computed and published; a change of A_h makes the heater controller check the fit
(R43, R65). -/
def recompute (vBus : Nat) (s : State) : State :=
  let a := allowanceOf vBus s
  let s' := s.onPc fun p => { p with lStation := lStationOf s, lObc := lObcOf s, bReq := bReqOf vBus s, aH := a }
  if a = s.pc.aH then s' else s'.onHc (Heater.fit a)

/-- A recomputation of the allowance between updates, at v_bus of the latest set (R43). -/
def recomputeNow (s : State) : State := recompute (latestVBus s) s

/-- A command in whole tens of W (R42). -/
def quantise (p : Nat) : Nat := p / 10 * 10

/-- Set P_cmd. -/
def setCommand (p : Nat) (s : State) : State := s.onPc fun c => { c with pCmd := p }

/-- The states entered with P_cmd kept (R45). -/
def keepsCommand (c : Session) : Bool :=
  match c.state with
  | .preheat | .charging => true
  | .closing => c.record.closeReason != .unplugged
  | .unplugged | .connected | .verifying | .hold | .lockedOut => false

/-- What a change of session state does to P_cmd and the allowance (R43, R45). -/
def stateChangeCommand (s : State) : State := recomputeNow (if keepsCommand s.sc then s else setCommand 0 s)

/-! ## Derate state (R48, R49) -/

/-- Severity of a derate state. -/
def Derate.rank : Derate → Nat
  | .normal => 0
  | .warm => 1
  | .hot => 2
  | .trip => 3

/-- The highest state, at most `top`, whose limit the temperature has reached: the thresholds less `slack` (R48). -/
def derateReached (i : Items) (slack : Int) (top : Derate) (t : Int) : Derate :=
  if 3 ≤ top.rank ∧ (i.derateTTrip : Int) - slack ≤ t then .trip
  else if 2 ≤ top.rank ∧ (i.derateTHot : Int) - slack ≤ t then .hot
  else if 1 ≤ top.rank ∧ (i.derateTWarm : Int) - slack ≤ t then .warm
  else .normal

/-- The derate state after a reading of t_obc (R48, R49). -/
def derateAfter (i : Items) (t : TempReading) (d : Derate) : Derate :=
  if t.mark = .missing then (if d = .trip then .trip else .hot)
  else
    let rise := derateReached i 0 .trip t.value
    if d.rank < rise.rank then rise else derateReached i 50 d t.value

/-! ## Derate window (R51 to R53) -/

/-- Charger output energy of a set in mW·ds (R52). -/
def outputEnergy (x : SampleSet) : Nat :=
  let g := x.pIn.toNat * 1000
  let hg := min (x.vBus * x.iHeat) g
  let b := x.vBus * x.iBat.toNat * 10
  hg + min b (g - hg)

/-- Step 2 of the update: the set's energy joins the window, which ends when the set completes it (R51, R52). The first
set of a window latches its length. -/
def takeWindow (x : SampleSet) (s : State) : State :=
  s.onPc fun p =>
    let len := if p.windowCount = 0 then s.cfg.derateWindowS * 10 else p.windowLen
    if p.windowCount + 1 = len then { p with windowLen := len, windowCount := 0, used := 0 }
    else { p with windowLen := len, windowCount := p.windowCount + 1, used := p.used + outputEnergy x }

/-- Step 3 of the update: the exhaustion flag (R53). -/
def takeExhaustion (s : State) : State :=
  s.onPc fun p =>
    { p with
      exhausted :=
        match p.derate with
        | .warm => decide (s.cfg.allowWarm * whUnit ≤ p.used)
        | .hot => decide (s.cfg.allowHot * whUnit ≤ p.used)
        | .normal | .trip => false }

end Sys2Proof.Machine
end

