-- ==== Sys2Proof/Machine/StoreOps.lean ====
section
/-! DEFINITION. The operations of the record store: offering a record to a stream, taking records from the oldest end, and
the tests of the plan requests (chapter 8). -/

namespace Sys2Proof.Machine

/-- Replace the state of a stream. -/
def Store.putStream (r : Store) (st : Stream) (x : StreamState) : Store :=
  match st with
  | .billing => { r with billing := x }
  | .insulation => { r with insulation := x }
  | .events => { r with events := x }
  | .readings => { r with readings := x }

/-- The slot `k` after slot `head` of an area taken as a ring (R152). -/
def ringSlot (a : Area) (head k : Nat) : Nat := a.first + (head - a.first + k) % a.count

/-- The slots of the `n` records from the head on. -/
def ringSlots (a : Area) (head n : Nat) : List Nat := (List.range n).map (ringSlot a head)

/-- A record dropped on arrival (R155, R156). -/
def dropRecord (st : Stream) (s : State) : State :=
  s.onRs fun r => r.putStream st { r.stream st with lost := satAdd max32 (r.stream st).lost 1 }

/-- A record appended after the newest (R155). -/
def appendRecord (st : Stream) (rec : Record) (j : Join) (s : State) : State :=
  refreshStream (s.onRs fun r =>
    { r.putStream st { r.stream st with join := some { j with count := j.count + 1 } } with
      slots := slotPut r.slots (ringSlot (r.area j.area) j.head j.count) rec })

/-- The oldest READINGS record replaced by the offered one (R156). -/
def overwriteRecord (st : Stream) (rec : Record) (j : Join) (s : State) : State :=
  s.onRs fun r =>
    { r.putStream st
        { r.stream st with
          join := some { j with head := ringSlot (r.area j.area) j.head 1 }
          overwritten := satAdd max32 (r.stream st).overwritten 1 } with
      slots := slotPut r.slots j.head rec }

/-- The policy of a full stream (R156). -/
def offerFull (st : Stream) (rec : Record) (j : Join) (s : State) : State :=
  match st with
  | .billing => s
  | .insulation => dropRecord .insulation s
  | .events => dropRecord .events s
  | .readings => overwriteRecord .readings rec j s

/-- An offer to a stream that is not joined (R155). -/
def offerUnjoined (st : Stream) (s : State) : State :=
  match st with
  | .billing => s
  | .insulation => dropRecord .insulation s
  | .events => dropRecord .events s
  | .readings => dropRecord .readings s

/-- A producer offers a record to a stream (R155, R156). -/
def offer (st : Stream) (rec : Record) (s : State) : State :=
  match (s.rs.stream st).join with
  | none => offerUnjoined st s
  | some j => if j.count < (s.rs.area j.area).count then appendRecord st rec j s else offerFull st rec j s

/-- Remove the `n` oldest records of a joined stream, at most all of them (R160). -/
def takeOldest (st : Stream) (j : Join) (n : Nat) (s : State) : State :=
  let m := min n j.count
  refreshStream (s.onRs fun r =>
    { r.putStream st
        { r.stream st with join := some { j with head := ringSlot (r.area j.area) j.head m, count := j.count - m } } with
      slots := slotClearAll r.slots (ringSlots (r.area j.area) j.head m) })

/-- The record at position `k` of a joined stream (R159). -/
def recordAt (j : Join) (k : Nat) (r : Store) : Option Record :=
  if k < j.count then slotGet r.slots (ringSlot (r.area j.area) j.head k) else none

/-- Area `i` is joined to a stream (R149). -/
def Store.joined (r : Store) (i : Nat) : Bool :=
  let on (x : StreamState) : Bool := x.join.any fun j => j.area == i
  on r.billing || on r.insulation || on r.events || on r.readings

/-- Two runs of slots share a slot. -/
def Area.meets (a b : Area) : Bool := a.first < b.first + b.count && b.first < a.first + a.count

/-- The run shares a slot with a defined area other than area `i` (R150, check 4). -/
def Store.overlaps (r : Store) (i : Nat) (a : Area) : Bool :=
  (List.range 6).any fun k =>
    k != i && match r.areas[k]? with
      | some (some b) => a.meets b
      | _ => false

/-- Write the entry of an area. -/
def Store.putArea (r : Store) (i : Nat) (a : Option Area) : Store := { r with areas := r.areas.setIfInBounds i a }

end Sys2Proof.Machine
end

