-- ==== Sys2Proof/Machine/TariffOps.lean ====
section
/-! DEFINITION. The operations of the clock and tariff unit: the price, applying a staged table, opening and closing an
interval, forming and placing a billing record (chapter 7). -/

namespace Sys2Proof.Machine

/-! ## The price (R132) -/

/-- The price of the period whose start is the latest not after minute `m`; `p` if none is. -/
def periodPrice : List Period → Nat → Nat → Nat
  | [], _, p => p
  | x :: xs, m, p => periodPrice xs m (if x.start ≤ m then x.price else p)

/-- The price of a kind now (R132). -/
def priceOf (k : Payer) (s : State) : Nat :=
  match (s.ct.kind k).active with
  | none => 0
  | some [] => 0
  | some (x :: xs) => if s.ct.valid then periodPrice xs (minuteOf s.ct.sec) x.price else x.price

/-- The payer of the session record. -/
def payerNow (s : State) : Payer := s.sc.record.payer

/-- The price register looked up afresh; a change within an interval that continues sets MIXED_PRICE (R132, R136). -/
def lookUpPrice (s : State) : State :=
  let p := priceOf (payerNow s) s
  s.onCt fun c =>
    { c with
      price := p
      interval := c.interval.map fun i =>
        if p = c.price then i else { i with flags := { i.flags with mixedPrice := true } } }

/-! ## Tariff tables -/

/-- Replace the tables of a kind. -/
def ClockTariff.putKind (c : ClockTariff) (k : Payer) (x : TariffKind) : ClockTariff :=
  match k with
  | .station => { c with station := x }
  | .fleet => { c with fleet := x }

/-- Apply the staged table of a kind, if there is one (R130). -/
def applyStaged (k : Payer) (s : State) : State :=
  match (s.ct.kind k).staged with
  | none => s
  | some t =>
    occur .tariffApplied (raiseAll .tariff (s.onCt fun c =>
      c.putKind k ⟨some t, none, ((c.kind k).generation + 1) % 65536⟩))

/-! ## Intervals (R133, R134) -/

/-- The whole Wh of an account. -/
def Account.whole (a : Account) : WhFigures := ⟨a.g.wh, a.bg.wh, a.hg.wh, a.lg.wh, a.hb.wh⟩

/-- Open an interval with the given index: start, base figures, latched length, flags and price register (R133). -/
def openInterval (index : Nat) (s : State) : State :=
  let p := priceOf (payerNow s) s
  s.onCt fun c =>
    { c with
      price := p
      interval := some
        { index := index
          startDay := if c.valid then c.day else 0
          startSec := if c.valid then c.sec else c.elapsed
          openElapsed := c.elapsed
          base := s.ea.session.whole
          latched := s.cfg.billIntervalMin
          flags := ⟨!c.valid, (c.kind (payerNow s)).active.isNone, false, false, false, false⟩ } }

/-! ## Billing records (R138 to R140) -/

/-- Round-half-up of the session cost in minor units (R139). -/
def roundedCost (cost : Nat) : Nat := (cost + 500) / 1000

/-- The record of an interval as the figures stand (R138). -/
def formRecord (reason : BillingReason) (lockout : Bool) (i : Interval) (s : State) : BillingRecord :=
  let w := s.ea.session.whole
  { number := s.sc.record.number
    index := i.index
    payer := payerNow s
    generation := (s.ct.kind (payerNow s)).generation
    startDay := i.startDay
    startSec := i.startSec
    duration := s.ct.elapsed - i.openElapsed
    price := s.ct.price
    wh := ⟨w.g - i.base.g, w.bg - i.base.bg, w.hg - i.base.hg, w.lg - i.base.lg, w.hb - i.base.hb⟩
    cost := roundedCost s.ct.cost - s.ct.reported
    reason := reason
    clockUnset := i.flags.clockUnset
    noTariff := i.flags.noTariff
    merged := i.flags.merged
    mixedPrice := i.flags.mixedPrice
    reverse := i.flags.reverse
    saturatedInput := i.flags.saturatedInput
    saturatedAccount := s.ea.session.saturated
    lockout := lockout
    final := reason == .final || reason == .aborted
    aborted := reason == .aborted }

/-! ## Placing (R141, R142) -/

/-- A record finds a place: the BILLING stream has a free slot or the hold slot is empty (R137, R141). -/
def placeable (s : State) : Bool := billingRoom s || s.ct.held.isNone

/-- Place a record: into the stream, else into the hold slot with the BILLING notice (R141). -/
def placeRecord (r : BillingRecord) (s : State) : State :=
  if billingRoom s then offer .billing (.billing r) s
  else if s.ct.held.isNone then raiseAll .billing (s.onCt fun c => { c with held := some r })
  else s

/-- The held record takes the room the stream has gained (R142). -/
def appendHeld (s : State) : State :=
  match s.ct.held with
  | none => s
  | some r =>
    if billingRoom s then (offer .billing (.billing r) s).onCt fun c => { c with held := none } else s

/-! ## The close (R137, R143, R144) -/

/-- Steps 3 to 6 of a real close: form the record, advance the reported cost, place the record or keep it pending, fire
INTERVAL_CLOSED, apply a staged table of the payer's kind (R137, R144). -/
def realClose (reason : BillingReason) (lockout : Bool) (i : Interval) (s : State) : State :=
  let r := formRecord reason lockout i s
  let s := s.onCt fun c => { c with reported := roundedCost c.cost }
  let s :=
    if placeable s then placeRecord r s
    else raiseAll .billing (s.onCt fun c => { c with finalRecord := some r })
  applyStaged (payerNow s) (occur .intervalClosed s)

/-- A merged close: the interval goes on with MERGED set (R143), its length latched anew (R134). -/
def mergedClose (i : Interval) (s : State) : State :=
  raiseAll .billing (s.onCt fun c =>
    { c with
      interval := some { i with latched := s.cfg.billIntervalMin, flags := { i.flags with merged := true } } })

/-- A BOUNDARY or PERIOD close of a tick (R137): real, with the next interval opened, or merged with the price register
recomputed. -/
def tickClose (reason : BillingReason) (i : Interval) (s : State) : State :=
  if placeable s then openInterval ((i.index + 1) % 65536) (realClose reason false i s)
  else lookUpPrice (mergedClose i s)

/-- The session's last close (R137, R144): accrual ends, the record is formed and placed or kept pending, no interval
opens. -/
def finalClose (reason : BillingReason) (lockout : Bool) (s : State) : State :=
  let s := s.onEa fun a => { a with accruing := false }
  match s.ct.interval with
  | none => s
  | some i => (realClose reason lockout i s).onCt fun c => { c with interval := none }

/-- Give the pending final record a flag while it waits (R144, R145). -/
def markFinal (f : BillingRecord → BillingRecord) (s : State) : State :=
  s.onCt fun c => { c with finalRecord := c.finalRecord.map f }

end Sys2Proof.Machine
end

