-- ==== Sys2Proof/Machine/SessionOps.lean ====
section
/-! DEFINITION. The operations of the session controller: a change of state, the end of a session, closing, the hold-reason
moves, lockout, the verdict and the opening of a session (chapter 2). -/

namespace Sys2Proof.Machine

/-- A change of the session state (R15 to R33): the SESSION notice, STATE_CHANGED, the effect on P_cmd and the allowance
(R43, R45), and a staged table of the payer's kind applied when the open states are left (R129). A state equal to the one
held is no change (R24). -/
def setState (x : SessionState) (s : State) : State :=
  if s.sc.state = x then s
  else
    let s' := stateChangeCommand (occur .stateChanged (raiseAll .session (s.onSc fun c => { c with state := x })))
    if s.sc.state.isOpen && !x.isOpen then applyStaged (payerNow s') s' else s'

/-- The state a session or a lockout ends in, by the debounced plug level (R29, R33). -/
def restingState (c : Session) : SessionState :=
  match c.plug with
  | .present => .connected
  | .absent => .unplugged

/-- The placing of the final record ends the session (R29, R36). -/
def sessionEnd (s : State) : State :=
  let s := if s.sc.state = .closing then setState (restingState s.sc) s else s
  occur .sessionClosed (raiseAll .session (s.onSc fun c =>
    { c with
      hold := .empty
      gate := false
      commandZero := false
      finalPending := false
      record := { c.record with pause := false } }))

/-- The answer to the last close request: the session ends, or FINAL_PENDING is set (R29). -/
def answerClose (s : State) : State :=
  if s.ct.finalRecord.isNone then sessionEnd s
  else raiseAll .session (s.onSc fun c => { c with finalPending := true })

/-- The pending final record is placed once it finds room, and the session ends (R29, R142). -/
def placeFinal (s : State) : State :=
  match s.ct.finalRecord with
  | none => s
  | some r =>
    if placeable s then sessionEnd ((placeRecord r s).onCt fun c => { c with finalRecord := none }) else s

/-- What the clock and tariff unit does when BILLING gains room (R142, R162). -/
def billingGainsRoom (s : State) : State := placeFinal (appendHeld s)

/-- The command has reached 0 in CLOSING: the command-zero condition is set and the FINAL close asked, once (R28). -/
def commandZeroReached (s : State) : State :=
  if s.sc.state = .closing ∧ s.pc.pCmd = 0 ∧ s.sc.commandZero = false then
    answerClose (finalClose .final false (s.onSc fun c => { c with commandZero := true }))
  else s

/-- Entry into CLOSING with a reason (R28). -/
def enterClosing (r : CloseReason) (s : State) : State :=
  commandZeroReached (setState .closing (s.onSc fun c =>
    { c with verify := none, record := { c.record with closeReason := r } }))

/-- PREHEAT or CHARGING, by the temperature gate (R21, R24). -/
def poweredState (c : Session) : SessionState := if c.gate then .charging else .preheat

/-- The move the hold-reason set makes when a member comes or goes (R24). -/
def holdMove (s : State) : State :=
  match s.sc.state with
  | .preheat | .charging => if s.sc.hold.any then setState .hold s else s
  | .hold => if s.sc.hold.any then s else setState (poweredState s.sc) s
  | .unplugged | .connected | .verifying | .closing | .lockedOut => s

/-- The move made from the values a sample set has updated, where no plug transition is due (R22, R24). -/
def sampleMove (s : State) : State :=
  match s.sc.state with
  | .preheat | .charging | .hold => setState (if s.sc.hold.any then .hold else poweredState s.sc) s
  | .unplugged | .connected | .verifying | .closing | .lockedOut => s

/-- Whether R15 gives a transition, or an effect, for a change of the debounced level. -/
def plugMoves (l : Plug) (c : SessionState) : Bool :=
  match l, c with
  | .present, .unplugged => true
  | .present, _ => false
  | .absent, .unplugged | .absent, .lockedOut => false
  | .absent, _ => true

/-- A plug loss closes the session (R28), and is marked as of this instant (R27; log entry 43). -/
def closeOnLoss (s : State) : State := enterClosing .unplugged (s.onSc fun c => { c with lossNow := true })

/-- The transition of R15 for a change of the debounced level. In CLOSING a plug loss sets P_cmd to 0 and no more: the
command-zero condition waits for the next update that leaves P_cmd at 0 (R28, R46). -/
def plugTransition (l : Plug) (s : State) : State :=
  match l with
  | .present =>
    match s.sc.state with
    | .unplugged => setState .connected s
    | .connected | .verifying | .preheat | .charging | .hold | .closing | .lockedOut => s
  | .absent =>
    match s.sc.state with
    | .connected => setState .unplugged s
    | .verifying | .preheat | .charging | .hold => closeOnLoss s
    | .closing => setCommand 0 s
    | .unplugged | .lockedOut => s

/-- The debounced level changes at this set (R14). -/
def debounceChanges (l : Plug) (c : Session) : Bool := l != c.plug && 3 ≤ c.plugCount + 1

/-- The debounced level and count after a set's plug level (R14). -/
def Session.debounce (l : Plug) (c : Session) : Session :=
  if l = c.plug then { c with plugCount := 0 }
  else if 3 ≤ c.plugCount + 1 then { c with plug := l, plugCount := 0 }
  else { c with plugCount := c.plugCount + 1 }

/-- The temperature gate flag after t_pack (R22). -/
def Session.gateAfter (t : TempReading) (c : Session) : Bool :=
  match c.limits with
  | none => c.gate
  | some l =>
    if t.mark = .missing then c.gate
    else if l.tAccept ≤ t.value then true
    else if t.value < l.tAccept - 20 then false
    else c.gate

/-- The gate flag and the sample set's hold reasons, kept while a session is open (R22, R24). -/
def Session.takeSet (x : SampleSet) (c : Session) : Session :=
  if c.state.isOpen then
    { c with
      gate := c.gateAfter x.tPack
      hold := { c.hold with packSensor := x.tPack.mark = .missing, busLow := x.vBus < 500 } }
  else c

/-- The session controller takes a sample set (R14, R15, R22, R24). -/
def scTake (x : SampleSet) (s : State) : State :=
  let changes := debounceChanges x.plug s.sc
  let s := s.onSc fun c => (c.debounce x.plug).takeSet x
  if changes && plugMoves x.plug s.sc.state then plugTransition x.plug s else sampleMove s

/-! ## Lockout (R30 to R32) -/

/-- The reasons of lockout (R30). -/
inductive LockoutReason where
  | insulationFault | overtemp
deriving DecidableEq, Repr

/-- The set holds the reason. -/
def LockoutSet.has (l : LockoutSet) : LockoutReason → Bool
  | .insulationFault => l.insulationFault
  | .overtemp => l.overtemp

/-- Add a reason. -/
def LockoutSet.add (l : LockoutSet) : LockoutReason → LockoutSet
  | .insulationFault => { l with insulationFault := true }
  | .overtemp => { l with overtemp := true }

/-- A further reason in LOCKED_OUT (R32). -/
def addLockoutReason (r : LockoutReason) (s : State) : State :=
  if s.sc.lockout.has r then s
  else raiseAll .session (s.onSc fun c => { c with lockout := c.lockout.add r })

/-- What entry into LOCKED_OUT does to the session controller's own state, whatever the state left (R30, R31). -/
def Session.lockOut (r : LockoutReason) (c : Session) : Session :=
  { c with
    verify := none
    commandZero := false
    hold := .empty
    lockout := c.lockout.add r
    record := if c.state.isOpen then { c.record with pause := false } else c.record }

/-- Entry into LOCKED_OUT (R30): the session's close is taken first (R129), then the state moves, the heater goes off
(R74) and the placing is answered (R29, R31). A record already pending gains LOCKOUT (R31, R144; log entry 15). -/
def enterLockout (r : LockoutReason) (s : State) : State :=
  if s.sc.state = .lockedOut then addLockoutReason r s
  else
    let asks := s.sc.state.isOpen && s.ea.accruing
    let s := s.onSc (Session.lockOut r)
    let s :=
      if asks then
        finalClose .final true (s.onSc fun c => { c with record := { c.record with closeReason := .lockout } })
      else markFinal (fun f => { f with lockout := true }) s
    let s := heaterLockout (setState .lockedOut s)
    if asks then answerClose s else s

/-! ## Insulation level and verdict (R21, R24, R97) -/

/-- The session controller takes a new level (R97): lockout on FAULT, else the INSULATION_UNKNOWN hold reason (R24). -/
def takeLevel (l : Level) (s : State) : State :=
  if l = .fault then enterLockout .insulationFault s
  else
    holdMove (s.onSc fun c =>
      if c.state.isOpen then { c with hold := { c.hold with insulationUnknown := l = .unknown } } else c)

/-- The verdict (R21): VERIFYING is left. -/
def giveVerdict (s : State) : State :=
  setState (if s.sc.hold.any then .hold else poweredState s.sc) (s.onSc fun c => { c with verify := none })

/-- The session controller seeks its verdict in a result (R21). -/
def seekVerdict (valid : Bool) (k : Class) (s : State) : State :=
  if s.sc.state = .verifying ∧ valid = true ∧ s.im.level.sound = true ∧ (k = .ok ∨ k = .warning) then giveVerdict s else s

/-! ## Opening a session (R19, R20) -/

/-- The refusal of SESSION_OPEN, the first condition of R19 that holds. -/
def openRefusal (payerCode : Nat) (s : State) : Option Status :=
  if s.sc.state = .unplugged then some .notPlugged
  else if s.sc.state.isOpen then some .state
  else if s.sc.state = .lockedOut then some .locked
  else if s.sc.finalPending then some .busy
  else if s.sc.limitsValid = false then some .noLimits
  else if (payerCode = 0 ∨ payerCode = 1) then none
  else some .invalid

/-- The open time (R16); its figures are free values while the clock is unset (log entry 8). -/
def openStamp (s : State) : Stamp :=
  if s.ct.valid then ⟨false, s.ct.day, s.ct.sec⟩
  else ⟨true, (Config.unsetDay s.free).toNat, (Config.unsetSecond s.free).toNat⟩

/-- The hold reasons whose condition holds at the acceptance of SESSION_OPEN (R20, R24). -/
def openingHold (s : State) : HoldSet :=
  { stationPause := false
    insulationUnknown := s.im.level = .unknown
    packSensor := s.fe.latest.any fun x => x.tPack.mark = .missing
    busLow := s.fe.latest.any fun x => x.vBus < 500
    limitsStale := !s.sc.limitsValid }

/-- The acceptance of SESSION_OPEN in the session controller, the energy account and the clock and tariff unit (R20, R115,
R133); the priority request follows. -/
def openSession (payer : Payer) (offer : Nat) (label : List Byte) (s : State) : State :=
  let record : SessionRecord :=
    { number := (s.sc.record.number + 1) % 4294967296, payer := payer, label := label, openTime := openStamp s
      offer := offer, pause := false, closeReason := .noReason }
  let s := (stamped s).onSc fun c => { c with record := record, gate := false, hold := openingHold s, verify := some 30000 }
  let s := s.onEa fun a => { a with session := .zero, accruing := true }
  let s := openInterval 0 (s.onCt fun c => { c with cost := 0, reported := 0, elapsed := 0 })
  occur .sessionOpened (setState .verifying s)

end Sys2Proof.Machine
end

