-- ==== Sys2Proof/Machine/InsulationOps.lean ====
section
/-! DEFINITION. The operations of the insulation monitor: the switches and the chassis sampler, measurement and attempt,
the result event, the level machine, localisation, the fault table and disturbances (chapter 5, section 1.6). -/

namespace Sys2Proof.Machine

/-! ## Switches (R10, R84) -/

/-- The closed switches become `a` (INS_A) and `b` (INS_B); a change restarts or stops the sampler (R10). -/
def FrontEnd.setSwitches (a b : Bool) (f : FrontEnd) : FrontEnd :=
  if f.insA = a ∧ f.insB = b then f else { f with insA := a, insB := b, chassisMs := 0, chassisIndex := 0 }

/-- Open both switches. -/
def openSwitches (s : State) : State := s.onFe (FrontEnd.setSwitches false false)

/-! ## Measurement and attempt (R81, R84, R85) -/

/-- The full period of the cycle countdown in ms (R81). -/
def fullPeriod (s : State) : Nat := s.cfg.insPeriodS * 1000

/-- An attempt begins (R85); it serves the pending request flag (R82). -/
def startAttempt (s : State) : State :=
  (s.onFe (FrontEnd.setSwitches true false)).onIm fun m =>
    { m with
      meas := .phaseA
      phase := some 3000
      window := []
      va := none
      legFlag := s.hc.hldClosed
      request := false }

/-- A measurement starts (R84): a new number, the countdown restarted (R81), the first attempt. -/
def startMeasurement (localise : Bool) (s : State) : State :=
  startAttempt (s.onIm fun m =>
    { m with
      counter := (m.counter + 1) % 4294967296
      number := (m.counter + 1) % 4294967296
      abandoned := 0
      localise := localise
      cycleRun := m.running
      cycleLeft := fullPeriod s })

/-- A measurement request while RUN_REQUESTED is set (R82, R83): a start, or the pending request flag. -/
def requestMeasurement (s : State) : State :=
  if s.im.meas = .idle ∧ s.im.running = true then startMeasurement false s
  else s.onIm fun m => { m with request := true }

/-- The priority request of the session controller; discarded while RUN_REQUESTED is clear (R83). -/
def priorityRequest (s : State) : State := if s.im.runRequested then requestMeasurement s else s

/-- The switches open and the state becomes IDLE (R79, R80, R86 to R88). -/
def endMeasurement (s : State) : State :=
  (openSwitches s).onIm fun m => { m with meas := .idle, phase := none, window := [], va := none }

/-! ## Fault table (R102, R103) -/

/-- An entry is due: appended with the next sequence, or refused (R102, R103). -/
def appendFault (k : FaultKind) (x : Figures) (s : State) : State :=
  if 8 ≤ s.im.faults.length ∨ max32 ≤ s.im.entrySeq then
    let s' := s.onIm fun m => { m with overflow := true, overflowCount := satAdd 255 m.overflowCount 1 }
    if s.im.overflow then s' else raiseAll .faultTable s'
  else
    raiseAll .faultTable ((stamped s).onIm fun m =>
      { m with
        faults := m.faults ++ [⟨m.entrySeq + 1, k, stamp m.uptime s, x⟩]
        entrySeq := m.entrySeq + 1 })

/-! ## The level machine (R93 to R97) -/

/-- Severity of a class (R93). -/
def Class.rank : Class → Nat
  | .noClass => 0
  | .ok => 1
  | .warning => 2
  | .fault => 3

/-- The level a class names. -/
def Class.level : Class → Level
  | .noClass | .ok => .ok
  | .warning => .warning
  | .fault => .fault

/-- The entry a change into a level appends (R97). -/
def Level.faultKind : Level → Option FaultKind
  | .warning => some .warning
  | .fault => some .fault
  | .unknown => some .unknown
  | .ok | .unmeasured => none

/-- A change of the level with the figures its entry carries (R97). A setting to the standing value raises nothing. -/
def setLevel (l : Level) (x : Figures) (s : State) : State :=
  if s.im.level = l then s
  else
    let s := s.onIm fun m => { m with level := l, worse := .empty, better := .empty }
    let s := occur .levelChanged (raiseAll .insulation s)
    let s := match l.faultKind with
      | some k => appendFault k x s
      | none => s
    takeLevel l s

/-- The less severe of two classes, where the first bounds a run that may be empty (R94). -/
def floorOf (r : Run) (k : Class) : Class := if r.count = 0 ∨ k.rank < r.bound.rank then k else r.bound

/-- The more severe of two classes, where the first bounds a run that may be empty (R95). -/
def ceilingOf (r : Run) (k : Class) : Class := if r.count = 0 ∨ r.bound.rank < k.rank then k else r.bound

/-- A localisation begins (R98). -/
def beginLocalisation (x : Figures) (s : State) : State :=
  localiseLeg (s.onIm fun m => { m with meas := .localising, locRecord := some x })

/-- A worse result (R94): the run grows, and at 2 the level moves to its floor, or a localisation begins (R98). -/
def takeWorse (k : Class) (x : Figures) (leg : Bool) (s : State) : State :=
  let run : Run := ⟨min 2 (s.im.worse.count + 1), floorOf s.im.worse k⟩
  let s := s.onIm fun m => { m with worse := run, better := .empty }
  if run.count = 2 then
    if run.bound = .fault ∧ leg = true ∧ s.hc.leg ≠ .isolated then beginLocalisation x s
    else setLevel run.bound.level x s
  else s

/-- A better result (R95): the run grows, and at 3 the level moves to its ceiling. -/
def takeBetter (k : Class) (x : Figures) (s : State) : State :=
  let run : Run := ⟨min 3 (s.im.better.count + 1), ceilingOf s.im.better k⟩
  let s := s.onIm fun m => { m with better := run, worse := .empty }
  if run.count = 3 then setLevel run.bound.level x s else s

/-- A result equal to the level empties both runs (R93). -/
def emptyRuns (s : State) : State := s.onIm fun m => { m with worse := .empty, better := .empty }

/-- A valid result applied to the level (R93 to R95). -/
def takeClass (k : Class) (x : Figures) (leg : Bool) (s : State) : State :=
  match s.im.level with
  | .unmeasured | .unknown => if k = .fault then takeWorse k x leg s else setLevel k.level x s
  | .ok => if k.rank = Class.ok.rank then emptyRuns s else takeWorse k x leg s
  | .warning =>
    if k.rank = Class.warning.rank then emptyRuns s
    else if Class.warning.rank < k.rank then takeWorse k x leg s
    else takeBetter k x s
  | .fault => if k.rank = Class.fault.rank then emptyRuns s else takeBetter k x s

/-- The result of a localisation applied in place of the runs (R100). -/
def takeLocalisation (r : ResultRecord) (s : State) : State :=
  let rec0 := s.im.locRecord.getD ⟨0, 0, 0⟩
  let s := s.onIm fun m => { m with locRecord := none }
  if r.valid = true ∧ (r.cls = .ok ∨ r.cls = .warning) then
    emptyRuns (setLevel r.cls.level r.figures (appendFault .heaterLeg rec0 (isolateLeg s)))
  else setLevel .fault r.figures (releaseLeg s)

/-! ## Results (R89 to R92) -/

/-- R_warn (R90). -/
def rWarn (i : Items) (u : Nat) : Nat := i.insWarnOpv * u / 10000

/-- R_fault (R90). -/
def rFault (i : Items) (u : Nat) : Nat := min (min i.insFaultOpv (i.insWarnOpv - 10) * u / 10000) (rWarn i u - 1)

/-- The class of a valid result (R90). -/
def classOf (i : Items) (x : Figures) : Class :=
  let r := min x.rp x.rn
  if r < rFault i x.u then .fault else if r < rWarn i x.u then .warning else .ok

/-- Rp, in kΩ (R89). -/
def rpOf (va vb : Nat) : Nat := if vb = 0 then 65535 else min 65535 (400 * (va - vb) / vb)

/-- Rn, in kΩ (R89). -/
def rnOf (va vb u : Nat) : Nat := if va = u then 65535 else min 65535 (400 * (va - vb) / (u - va))

/-- The last result, the last valid figures and the age of the level (R92, R96). -/
def keepResult (r : ResultRecord) (s : State) : State :=
  s.onIm fun m =>
    { m with
      last := some r
      lastValid := if r.valid then some r.figures else m.lastValid
      age := if r.valid then some 0 else m.age }

/-- A result applied to the level: a localisation's in place of the runs, else a valid one to them (R93 to R95, R100). -/
def applyResult (r : ResultRecord) (s : State) : State :=
  if r.localise then takeLocalisation r s
  else if r.valid then takeClass r.cls r.figures r.leg s
  else s

/-- The result event (R92): record offered, kept, applied, reported. -/
def resultEvent (r : ResultRecord) (s : State) : State :=
  seekVerdict r.valid r.cls (applyResult r (keepResult r (offer .insulation (.result r) s)))

/-- A measurement ends with an invalid result (R80, R87, R88): Va with its settle time if phase A of the attempt had
settled. An ending in LOCALISING gives the localisation's result, leg flag clear (R91, R99; log entry 16). -/
def endInvalid (why : InvalidReason) (u : Nat) (s : State) : State :=
  let r : ResultRecord :=
    { number := s.im.number, time := stamp s.im.uptime s, valid := false, reason := why
      va := (s.im.va.getD (0, 0)).1, vb := 0, figures := ⟨0, 0, u⟩, cls := .noClass
      settleA := (s.im.va.getD (0, 0)).2, settleB := 0
      leg := s.im.meas != .localising && s.im.legFlag
      localise := s.im.meas == .localising || s.im.localise }
  resultEvent r (stamped (endMeasurement s))

/-- The result of a settled phase B (R89, R90, R91). -/
def settledResult (va sa vb sb u : Nat) (s : State) : ResultRecord :=
  let why : InvalidReason := if u < 500 then .busLow else if va ≤ vb ∨ u < va then .implausible else .noReason
  let x : Figures := if why = .noReason then ⟨rpOf va vb, rnOf va vb u, u⟩ else ⟨0, 0, u⟩
  { number := s.im.number, time := stamp s.im.uptime s, valid := why = .noReason, reason := why
    va := va, vb := vb, figures := x, cls := if why = .noReason then classOf s.cfg x else .noClass
    settleA := sa, settleB := sb, leg := s.im.legFlag, localise := s.im.localise }

/-! ## Chassis samples (R86, R11) -/

/-- The phase is settled (R86). -/
def settledWindow (tol : Nat) (w : List Nat) : Bool :=
  match w with
  | [a, b, c] => max a (max b c) - min a (min b c) ≤ tol
  | _ => false

/-- The last three values of a window with one more (R86). -/
def pushWindow (w : List Nat) (v : Nat) : List Nat :=
  match w with
  | [_, b, c] => [b, c, v]
  | w => w ++ [v]

/-- Phase A settles on the sample (R86): Va and its settle time, INS_B in place of INS_A. -/
def settleA (x : ChassisSample) (s : State) : State :=
  (s.onFe (FrontEnd.setSwitches false true)).onIm fun m =>
    { m with meas := .phaseB, va := some (x.vChs, x.index * 50), phase := some 3000, window := [] }

/-- Phase B settles on the sample (R86, R89): the result is formed and the measurement ends. -/
def settleB (x : ChassisSample) (s : State) : State :=
  let a := s.im.va.getD (0, 0)
  let r := settledResult a.1 a.2 x.vChs (x.index * 50) (latestVBus s) s
  resultEvent r (stamped (endMeasurement s))

/-- The insulation monitor takes a chassis sample whose closed set is that of the phase (R86). A SATURATED v_chs is used as
delivered. -/
def takeChassis (x : ChassisSample) (s : State) : State :=
  let w := pushWindow s.im.window x.vChs
  match s.im.meas with
  | .phaseA =>
    if x.insA && !x.insB then
      if settledWindow s.cfg.insSettleTol w then settleA x s else s.onIm fun m => { m with window := w }
    else s
  | .phaseB =>
    if x.insB && !x.insA then
      if settledWindow s.cfg.insSettleTol w then settleB x s else s.onIm fun m => { m with window := w }
    else s
  | .idle | .localising => s

/-! ## Disturbances (R47, R72, R88) -/

/-- One disturbance report taken (R88). -/
def disturb (s : State) : State :=
  if s.im.inPhase then
    if s.im.abandoned = 0 then startAttempt ((openSwitches s).onIm fun m => { m with abandoned := 1 })
    else endInvalid .disturbed (latestVBus s) s
  else s

/-- P_cmd fell by more than 500 W (R47). -/
def commandFell (before after : State) : Bool := after.pc.pCmd + 500 < before.pc.pCmd

/-- An element was turned off or HLD opened (R72). -/
def driveOpened (before after : State) : Bool :=
  (before.hc.e1.isOn && !after.hc.e1.isOn) || (before.hc.e2.isOn && !after.hc.e2.isOn) ||
    (before.hc.hldClosed && !after.hc.hldClosed)

/-- The reports of one event, taken when its own work is done: the power command's and the heater controller's, one each
(R47, R72; log entry 11). A plug loss in CLOSING that takes P_cmd to 0 reports its fall (DEDUCED, log entry 35). -/
def takeReports (before after : State) : State :=
  if before.im.inPhase then
    let s := if commandFell before after then disturb after else after
    if driveOpened before after then disturb s else s
  else after

/-! ## Bus level and stop (R78 to R80, R101) -/

/-- The cycle countdown restarted as RUNNING begins (R80). -/
def runningBegins (s : State) : State :=
  let s := s.onIm fun m => { m with running := true, cycleRun := true, cycleLeft := fullPeriod s }
  if s.im.request = true ∧ s.im.meas = .idle then startMeasurement false s else s

/-- RUNNING ends by a low bus (R80). -/
def runningEnds (u : Nat) (s : State) : State :=
  let s := s.onIm fun m => { m with running := false, cycleRun := false }
  if s.im.busy then endInvalid .busLow u s else s

/-- The insulation monitor takes a sample set (R78, R80). -/
def imTake (x : SampleSet) (s : State) : State :=
  let holds := s.im.runRequested && 500 ≤ x.vBus
  if holds && !s.im.running then runningBegins s
  else if !holds && s.im.running then runningEnds x.vBus s
  else s

/-- A localisation is in progress (R101). -/
def Insulation.localisationRuns (m : Insulation) : Bool := m.meas == .localising || (m.busy && m.localise)

/-- The forced stop (R79, R101). -/
def forcedStop (s : State) : State :=
  let localising := s.im.localisationRuns
  let s := endMeasurement s
  let s := s.onIm fun m =>
    { m with runRequested := false, running := false, cycleRun := false, cycleLeft := fullPeriod s, request := false }
  if localising then releaseLeg (s.onIm fun m => { m with worse := ⟨1, .fault⟩, locRecord := none }) else s

/-- The figures an UNKNOWN entry carries (R102). -/
def unknownFigures (m : Insulation) : Figures := m.lastValid.getD ⟨65535, 65535, 0⟩

end Sys2Proof.Machine
end

