-- ==== Sys2Proof/Machine/Operands.lean ====
section
/-! DEFINITION. The operands of a request: its kind, the body lengths and ports R190 gives the kind, and the fields of a
body (R189: most significant byte first, two's complement). -/

namespace Sys2Proof.Machine

/-! ## Fields of a body -/

/-- The byte at offset `i`; 0 past the end, which the length check of R180 keeps from being read. -/
def u8 (b : List Byte) (i : Nat) : Nat := (b.getD i 0).toNat

/-- The two-byte field at offset `i`. -/
def u16 (b : List Byte) (i : Nat) : Nat := u8 b i * 256 + u8 b (i + 1)

/-- The four-byte field at offset `i`. -/
def u32 (b : List Byte) (i : Nat) : Nat := u16 b i * 65536 + u16 b (i + 2)

/-- The signed two-byte field at offset `i`. -/
def s16 (b : List Byte) (i : Nat) : Int := if u16 b i < 32768 then (u16 b i : Int) else (u16 b i : Int) - 65536

/-- A flag byte: 0 clear, other set (R190). -/
def flag (b : List Byte) (i : Nat) : Bool := u8 b i != 0

/-! ## Kinds (R190) -/

/-- The request kinds of R190, FETCH among them. -/
inductive Kind where
  | fetch | limits | heatRequest | insStart | insStop | faultAck | lockoutRelease | heaterRestore | measureNow
  | sessionOpen | offerUpdate | stationPause | sessionClose | tariffLoad | statusGet | readingGet | faultList | tariffGet
  | configGet | configSet | snapshotNow | noticeGet | noticeClear | noticeEnable | errClear | timeSet | areaSet
  | areaClear | joinStream | unjoin | descSet | vectorSet | streamRead | streamAck
deriving DecidableEq, Repr

/-- The requests that change the area plan (R149). -/
def Kind.plan (k : Kind) : Bool := k == .areaSet || k == .areaClear || k == .joinStream || k == .unjoin

/-- The code of a kind (R190). -/
def Kind.code : Kind → Nat
  | .fetch => 0x00
  | .limits => 0x10
  | .heatRequest => 0x11
  | .insStart => 0x12
  | .insStop => 0x13
  | .faultAck => 0x14
  | .lockoutRelease => 0x15
  | .heaterRestore => 0x16
  | .measureNow => 0x17
  | .sessionOpen => 0x18
  | .offerUpdate => 0x19
  | .stationPause => 0x1A
  | .sessionClose => 0x1B
  | .tariffLoad => 0x1C
  | .statusGet => 0x20
  | .readingGet => 0x21
  | .faultList => 0x22
  | .tariffGet => 0x23
  | .configGet => 0x24
  | .configSet => 0x25
  | .snapshotNow => 0x26
  | .noticeGet => 0x27
  | .noticeClear => 0x28
  | .noticeEnable => 0x29
  | .errClear => 0x2A
  | .timeSet => 0x30
  | .areaSet => 0x31
  | .areaClear => 0x32
  | .joinStream => 0x33
  | .unjoin => 0x34
  | .descSet => 0x35
  | .vectorSet => 0x36
  | .streamRead => 0x38
  | .streamAck => 0x39

/-- The codes of R190's table: 0x00, 0x10 to 0x1C, 0x20 to 0x2A, 0x30 to 0x36, 0x38 and 0x39. -/
def knownKind (k : Byte) : Bool :=
  let n := k.toNat
  n == 0 || (0x10 ≤ n && n ≤ 0x1C) || (0x20 ≤ n && n ≤ 0x2A) || (0x30 ≤ n && n ≤ 0x36) || n == 0x38 || n == 0x39

/-- The body length is one R190 gives the kind (R180, step 3). -/
def lengthOk (k : Kind) (b : List Byte) : Bool :=
  match k with
  | .fetch | .insStart | .insStop | .lockoutRelease | .measureNow | .sessionClose | .statusGet | .readingGet
  | .snapshotNow | .noticeGet | .errClear => b.length == 0
  | .heaterRestore | .stationPause | .faultList | .configGet | .areaClear => b.length == 1
  | .tariffGet | .noticeClear | .noticeEnable | .unjoin | .streamRead => b.length == 2
  | .heatRequest | .configSet | .joinStream | .vectorSet | .streamAck => b.length == 3
  | .faultAck | .offerUpdate | .areaSet => b.length == 4
  | .timeSet => b.length == 6
  | .limits => b.length == 8
  | .descSet => b.length == 9
  | .sessionOpen => 6 ≤ b.length && u8 b 5 ≤ 16 && b.length == 6 + u8 b 5
  | .tariffLoad => 6 ≤ b.length && b.length ≤ 34 && b.length % 4 == 2

/-- The port is among those R190 gives the kind (R180, step 4). -/
def portOk (k : Kind) (p : Port) : Bool :=
  match k with
  | .limits | .heatRequest | .insStart | .insStop | .faultAck | .lockoutRelease | .heaterRestore => p == .v
  | .measureNow => p == .v || p == .c
  | .sessionOpen | .offerUpdate | .stationPause | .sessionClose => p == .c
  | .tariffLoad => p == .c || p == .t
  | .timeSet | .areaSet | .areaClear | .joinStream | .unjoin | .descSet | .vectorSet => p == .t
  | .fetch | .statusGet | .readingGet | .faultList | .tariffGet | .configGet | .configSet | .snapshotNow | .noticeGet
  | .noticeClear | .noticeEnable | .errClear | .streamRead | .streamAck => true

/-! ## Codes of operands (R190) -/

/-- The stream a code names. -/
def streamOf : Nat → Option Stream
  | 0 => some .billing
  | 1 => some .insulation
  | 2 => some .events
  | 3 => some .readings
  | _ => none

/-- The port a code names. -/
def portOf : Nat → Option Port
  | 1 => some .v
  | 2 => some .c
  | 3 => some .t
  | _ => none

/-- The payer, or tariff kind, a code names. -/
def payerOf : Nat → Option Payer
  | 0 => some .station
  | 1 => some .fleet
  | _ => none

/-- The field set a code names (R169). -/
def fieldSetOf : Nat → Option FieldSet
  | 0 => some .session
  | 1 => some .energy
  | 2 => some .power
  | 3 => some .thermal
  | 4 => some .insulation
  | 5 => some .limits
  | _ => none

/-! ## Configuration items (R186) -/

/-- The items of R186. -/
inductive Item where
  | insPeriodS | insWarnOpv | insFaultOpv | insSettleTol | resE1 | resE2 | heatBand | heatIdleS | obcPmax | obcEff
  | rampStep | closeRampStep | derateTWarm | derateTHot | derateTTrip | derateWindowS | allowWarm | allowHot
  | billIntervalMin | pulseWhInt | pulseWhEighths | snapPeriodS | markBilling | markInsulation | markEvents
  | markReadings
deriving DecidableEq, Repr

/-- The item a code names (R186). -/
def itemOf : Nat → Option Item
  | 0x01 => some .insPeriodS
  | 0x02 => some .insWarnOpv
  | 0x03 => some .insFaultOpv
  | 0x04 => some .insSettleTol
  | 0x05 => some .resE1
  | 0x06 => some .resE2
  | 0x07 => some .heatBand
  | 0x08 => some .heatIdleS
  | 0x09 => some .obcPmax
  | 0x0A => some .obcEff
  | 0x0B => some .rampStep
  | 0x0C => some .closeRampStep
  | 0x0D => some .derateTWarm
  | 0x0E => some .derateTHot
  | 0x0F => some .derateTTrip
  | 0x10 => some .derateWindowS
  | 0x11 => some .allowWarm
  | 0x12 => some .allowHot
  | 0x20 => some .billIntervalMin
  | 0x21 => some .pulseWhInt
  | 0x22 => some .pulseWhEighths
  | 0x23 => some .snapPeriodS
  | 0x24 => some .markBilling
  | 0x25 => some .markInsulation
  | 0x26 => some .markEvents
  | 0x27 => some .markReadings
  | _ => none

/-- The stored value of an item. -/
def Items.get (i : Items) : Item → Nat
  | .insPeriodS => i.insPeriodS
  | .insWarnOpv => i.insWarnOpv
  | .insFaultOpv => i.insFaultOpv
  | .insSettleTol => i.insSettleTol
  | .resE1 => i.resE1
  | .resE2 => i.resE2
  | .heatBand => i.heatBand
  | .heatIdleS => i.heatIdleS
  | .obcPmax => i.obcPmax
  | .obcEff => i.obcEff
  | .rampStep => i.rampStep
  | .closeRampStep => i.closeRampStep
  | .derateTWarm => i.derateTWarm
  | .derateTHot => i.derateTHot
  | .derateTTrip => i.derateTTrip
  | .derateWindowS => i.derateWindowS
  | .allowWarm => i.allowWarm
  | .allowHot => i.allowHot
  | .billIntervalMin => i.billIntervalMin
  | .pulseWhInt => i.pulseWhInt
  | .pulseWhEighths => i.pulseWhEighths
  | .snapPeriodS => i.snapPeriodS
  | .markBilling => i.markBilling
  | .markInsulation => i.markInsulation
  | .markEvents => i.markEvents
  | .markReadings => i.markReadings

/-- Replace the stored value of an item. -/
def Items.put (i : Items) (k : Item) (x : Nat) : Items :=
  match k with
  | .insPeriodS => { i with insPeriodS := x }
  | .insWarnOpv => { i with insWarnOpv := x }
  | .insFaultOpv => { i with insFaultOpv := x }
  | .insSettleTol => { i with insSettleTol := x }
  | .resE1 => { i with resE1 := x }
  | .resE2 => { i with resE2 := x }
  | .heatBand => { i with heatBand := x }
  | .heatIdleS => { i with heatIdleS := x }
  | .obcPmax => { i with obcPmax := x }
  | .obcEff => { i with obcEff := x }
  | .rampStep => { i with rampStep := x }
  | .closeRampStep => { i with closeRampStep := x }
  | .derateTWarm => { i with derateTWarm := x }
  | .derateTHot => { i with derateTHot := x }
  | .derateTTrip => { i with derateTTrip := x }
  | .derateWindowS => { i with derateWindowS := x }
  | .allowWarm => { i with allowWarm := x }
  | .allowHot => { i with allowHot := x }
  | .billIntervalMin => { i with billIntervalMin := x }
  | .pulseWhInt => { i with pulseWhInt := x }
  | .pulseWhEighths => { i with pulseWhEighths := x }
  | .snapPeriodS => { i with snapPeriodS := x }
  | .markBilling => { i with markBilling := x }
  | .markInsulation => { i with markInsulation := x }
  | .markEvents => { i with markEvents := x }
  | .markReadings => { i with markReadings := x }

/-- The range of an item (R186), its two ends. -/
def Item.range : Item → Nat × Nat
  | .insPeriodS => (5, 120)
  | .insWarnOpv => (100, 1000)
  | .insFaultOpv => (50, 500)
  | .insSettleTol => (1, 50)
  | .resE1 | .resE2 => (100, 5000)
  | .heatBand => (5, 100)
  | .heatIdleS => (0, 255)
  | .obcPmax => (1000, 22000)
  | .obcEff => (800, 1024)
  | .rampStep => (50, 2000)
  | .closeRampStep => (100, 5000)
  | .derateTWarm | .derateTHot | .derateTTrip => (400, 1300)
  | .derateWindowS => (10, 600)
  | .allowWarm | .allowHot => (0, 1000)
  | .billIntervalMin => (1, 60)
  | .pulseWhInt => (0, 255)
  | .pulseWhEighths => (0, 7)
  | .snapPeriodS => (0, 3600)
  | .markBilling | .markInsulation | .markEvents | .markReadings => (0, 256)

/-- The owner port of an item (R186). -/
def Item.owner : Item → Port
  | .billIntervalMin | .pulseWhInt | .pulseWhEighths | .snapPeriodS | .markBilling | .markInsulation | .markEvents
  | .markReadings => .t
  | .insPeriodS | .insWarnOpv | .insFaultOpv | .insSettleTol | .resE1 | .resE2 | .heatBand | .heatIdleS | .obcPmax
  | .obcEff | .rampStep | .closeRampStep | .derateTWarm | .derateTHot | .derateTTrip | .derateWindowS | .allowWarm
  | .allowHot => .v

end Sys2Proof.Machine
end

