-- ==== Sys2Proof/Machine/Wire.lean ====
section
/-! DEFINITION. The wire: fields, codes, check bytes, frames, the three record layouts, the field sets of captured records
and the pieces that several reply bodies share (R179, R181, R189 to R194). -/

namespace Sys2Proof.Machine

/-! ## Fields (R189) -/

/-- A count in `k` bytes, most significant first; one too wide is carried at the field's largest value. -/
def be (k n : Nat) : List Byte :=
  let x := min n (256 ^ k - 1)
  (List.range k).map fun i => BitVec.ofNat 8 (x / 256 ^ (k - 1 - i))

/-- A signed figure in `k` bytes, two's complement. -/
def beSigned (k : Nat) (x : Int) : List Byte := if 0 ≤ x then be k x.toNat else be k (256 ^ k - x.natAbs)

/-- One byte. -/
def b1 (n : Nat) : List Byte := be 1 n

/-- A flag: 0 clear, 1 set (R194). -/
def bFlag (b : Bool) : List Byte := b1 (if b then 1 else 0)

/-- A set as the sum of 2 raised to the code of each member, the members in code order (R189). -/
def setSum : List Bool → Nat
  | [] => 0
  | b :: bs => (if b then 1 else 0) + 2 * setSum bs

/-- Fill a body of `n` bytes with zeros after its last figure (R192, R193). -/
def padTo (n : Nat) (b : List Byte) : List Byte := b ++ List.replicate (n - b.length) 0

/-- A time of a record: day (2), second or count (4) (R189). -/
def bTime (t : Stamp) : List Byte := be 2 t.day ++ be 4 t.sec

/-- A time that may be unset, with its unset mark (R194). -/
def bTimeMarked (t : Stamp) : List Byte := bTime t ++ bFlag t.unset

/-! ## Check byte (R179) -/

/-- One bit of the CRC-8 register, generator x⁸ + x² + x + 1. -/
def crcShift (c : Byte) : Byte := if c.msb then (c <<< 1) ^^^ 0x07#8 else c <<< 1

/-- One byte into the register, most significant bit first. -/
def crcByte (c x : Byte) : Byte :=
  crcShift (crcShift (crcShift (crcShift (crcShift (crcShift (crcShift (crcShift (c ^^^ x))))))))

/-- The check byte of a run of bytes (R179). -/
def crc8 (bs : List Byte) : Byte := bs.foldl crcByte 0

/-- The check byte of a request frame: kind, length, body (R179). -/
def requestCheck (kind : Byte) (body : List Byte) : Byte := crc8 (kind :: BitVec.ofNat 8 body.length :: body)

/-! ## Codes (R189, R190, R194; log entry 20) -/

def Status.code : Status → Nat
  | .ok => 0x00
  | .clamped => 0x01
  | .wait => 0x02
  | .unknownKind => 0x10
  | .length => 0x11
  | .permission => 0x12
  | .state => 0x13
  | .busy => 0x14
  | .invalid => 0x15
  | .noLimits => 0x16
  | .notPlugged => 0x17
  | .locked => 0x18
  | .notJoined => 0x19
  | .notConsumer => 0x1A
  | .empty => 0x1B
  | .overlap => 0x1C
  | .notEmpty => 0x1D
  | .exhausted => 0x1E
  | .notFound => 0x1F

def Stream.code : Stream → Nat
  | .billing => 0
  | .insulation => 1
  | .events => 2
  | .readings => 3

def portCode : Port → Nat
  | .v => 1
  | .c => 2
  | .t => 3

def Payer.code : Payer → Nat
  | .station => 0
  | .fleet => 1

def plugCode : Plug → Nat
  | .present => 0
  | .absent => 1

def SessionState.code : SessionState → Nat
  | .unplugged => 0
  | .connected => 1
  | .verifying => 2
  | .preheat => 3
  | .charging => 4
  | .hold => 5
  | .closing => 6
  | .lockedOut => 7

def CloseReason.code : CloseReason → Nat
  | .noReason => 0
  | .requested => 1
  | .unplugged => 2
  | .verifyTimeout => 3
  | .lockout => 4
  | .aborted => 5

def Derate.code : Derate → Nat
  | .normal => 0
  | .warm => 1
  | .hot => 2
  | .trip => 3

def ElemState.code : ElemState → Nat
  | .off => 0
  | .on => 1
  | .hotLock => 2
  | .disabled => 3

def ElemCause.code : ElemCause → Nat
  | .noCause => 0
  | .openCircuit => 1
  | .overcurrent => 2

def LegState.code : LegState → Nat
  | .connected => 0
  | .connecting => 1
  | .disconnected => 2
  | .isolated => 3

def Class.code : Class → Nat
  | .noClass => 0
  | .ok => 1
  | .warning => 2
  | .fault => 3

def InvalidReason.code : InvalidReason → Nat
  | .noReason => 0
  | .busLow => 1
  | .implausible => 2
  | .settleTimeout => 3
  | .disturbed => 4

def Level.code : Level → Nat
  | .unmeasured => 0
  | .ok => 1
  | .warning => 2
  | .fault => 3
  | .unknown => 4

def Meas.code : Meas → Nat
  | .idle => 0
  | .phaseA => 1
  | .phaseB => 2
  | .localising => 3

def FaultKind.code : FaultKind → Nat
  | .warning => 0
  | .fault => 1
  | .unknown => 2
  | .heaterLeg => 3

def TempMark.code : TempMark → Nat
  | .unmarked => 0
  | .saturated => 1
  | .held => 2
  | .missing => 3

def TariffStatus.code : TariffStatus → Nat
  | .noTable => 0
  | .waiting => 1
  | .applied => 2

def FieldSet.code : FieldSet → Nat
  | .session => 0
  | .energy => 1
  | .power => 2
  | .thermal => 3
  | .insulation => 4
  | .limits => 5

def Occurrence.code : Occurrence → Nat
  | .pended => 0
  | .missed => 1
  | .disabled => 2

def BillingReason.code : BillingReason → Nat
  | .boundary => 0
  | .period => 1
  | .clockSet => 2
  | .final => 3
  | .aborted => 4

/-- The validity of the LIMITS record: valid 0, stale 1, absent 2 (R193). -/
def limitsCode (c : Session) : Nat :=
  match c.limits with
  | none => 2
  | some _ => if c.limitsValid then 0 else 1

def HoldSet.sum (h : HoldSet) : Nat :=
  setSum [h.stationPause, h.insulationUnknown, h.packSensor, h.busLow, h.limitsStale]

def LockoutSet.sum (l : LockoutSet) : Nat := setSum [l.insulationFault, l.overtemp]

def ErrorSet.sum (e : ErrorSet) : Nat := setSum [e.framing, e.crc, e.overrun]

def AlarmSet.sum (a : AlarmSet) : Nat := setSum [a.billing, a.insulation, a.events, a.readings]

/-! ## Reply frames (R180, R181) -/

/-- The bytes of a reply frame: kind + 0x80, status, length, body, check byte. -/
def Reply.frame (r : Reply) : List Byte :=
  let head := (r.kind + 0x80#8) :: BitVec.ofNat 8 r.status.code :: BitVec.ofNat 8 r.body.length :: r.body
  head ++ [crc8 head]

/-- The WAIT reply (R181). -/
def waitReply : Reply := ⟨0, .wait, []⟩

/-! ## Records -/

/-- A billing record (R191). -/
def BillingRecord.wire (r : BillingRecord) : List Byte :=
  b1 1 ++ b1 (r.reason.code + 8 * r.payer.code) ++
    be 2 (setSum [r.clockUnset, r.noTariff, r.merged, r.mixedPrice, r.reverse, r.saturatedInput, r.saturatedAccount,
      r.lockout, r.final, r.aborted]) ++
    be 4 r.number ++ be 2 r.index ++ be 2 r.generation ++ be 2 (if r.clockUnset then 0 else r.startDay) ++
    be 4 r.startSec ++ be 3 r.duration ++ be 2 r.price ++
    be 4 r.wh.g ++ be 4 r.wh.bg ++ be 4 r.wh.hg ++ be 4 r.wh.lg ++ be 4 r.wh.hb ++ be 5 r.cost

/-- An insulation result record (R192). -/
def ResultRecord.wire (r : ResultRecord) : List Byte :=
  padTo 48 (b1 2 ++ b1 (setSum [r.valid, r.leg, r.localise, r.time.unset]) ++ b1 r.reason.code ++ b1 r.cls.code ++
    be 4 r.number ++ bTime r.time ++ be 2 r.va ++ be 2 r.vb ++ be 2 r.figures.u ++ be 2 r.figures.rp ++
    be 2 r.figures.rn ++ be 2 r.settleA ++ be 2 r.settleB)

/-- A captured record (R193). -/
def CapturedRecord.wire (r : CapturedRecord) : List Byte :=
  b1 3 ++ b1 r.source ++ b1 (r.port.elim 0 portCode) ++ b1 r.desc ++ bFlag r.repeating ++ b1 r.fieldSet.code ++
    b1 (setSum [r.time.unset, r.seq.isNone]) ++ b1 r.missed ++ bTime r.time ++ be 2 (r.seq.getD 0) ++
    be 2 r.countAfter ++ padTo 30 r.body

/-- A record in its 48 bytes (R148). -/
def Record.wire : Record → List Byte
  | .billing r => r.wire
  | .result r => r.wire
  | .captured r => r.wire

/-! ## Figures with a free value -/

/-- The interval index as read: a free value while no interval is in progress (log entry 9). -/
def indexFigure (s : State) : Nat :=
  match s.ct.interval with
  | some i => i.index
  | none => (Config.idleIndex s.free).toNat

/-- The latched interval length as read: a free value while no interval is in progress (log entry 9). -/
def lengthFigure (s : State) : Nat :=
  match s.ct.interval with
  | some i => i.latched
  | none => (Config.idleLength s.free).toNat

/-- The stored LIMITS fields as read: free values while the record is absent (log entry 10). -/
def limitsFigures (s : State) : List Byte :=
  match s.sc.limits with
  | some l => be 2 l.iBmax ++ be 2 l.vBmax ++ beSigned 2 l.tAccept ++ be 2 l.pHeatBatt
  | none =>
    be 2 (Config.absentIbmax s.free).toNat ++ be 2 (Config.absentVbmax s.free).toNat ++
      be 2 (Config.absentTaccept s.free).toNat ++ be 2 (Config.absentPheat s.free).toNat

/-! ## Field sets (R172, R193) -/

/-- SESSION. -/
def sessionBody (s : State) : List Byte :=
  b1 s.sc.state.code ++ b1 s.sc.hold.sum ++ b1 s.sc.lockout.sum ++
    b1 (setSum [s.sc.finalPending, s.sc.record.pause, s.ct.held.isSome]) ++ be 4 s.sc.record.number ++
    b1 s.sc.record.payer.code ++ be 2 s.sc.record.offer ++ b1 s.sc.record.closeReason.code ++
    be 2 (indexFigure s) ++ b1 (lengthFigure s) ++ be 2 s.ct.price ++ be 6 s.ct.cost

/-- A residue in 256ths of a Wh (R193). -/
def residue256 (e : Energy) : Nat := e.res * 256 / whUnit

/-- ENERGY. -/
def energyBody (s : State) : List Byte :=
  let a := s.ea.session
  be 3 a.g.wh ++ be 3 a.bg.wh ++ be 3 a.hg.wh ++ be 3 a.lg.wh ++ be 3 a.hb.wh ++
    b1 (residue256 a.g) ++ b1 (residue256 a.bg) ++ b1 (residue256 a.hg) ++ b1 (residue256 a.lg) ++ b1 (residue256 a.hb) ++
    b1 (setSum [a.saturated, s.ea.accruing, s.ea.lifetime.saturated]) ++ be 4 s.ea.lifetime.g.wh ++
    be 3 s.ea.unassigned.wh ++ b1 s.ea.pulses ++ b1 s.ea.lost

/-- POWER. The figures of an absent sample set are 0 (R172). -/
def powerBody (s : State) : List Byte :=
  be 2 s.pc.pCmd ++ be 2 s.pc.aH ++ be 2 s.hc.hOn ++ b1 s.pc.derate.code ++ bFlag s.pc.exhausted ++
    be 2 (s.pc.used / whUnit) ++
    match s.fe.latest with
    | some x =>
      beSigned 2 x.pIn ++ be 2 x.vBus ++ beSigned 2 x.iBat ++ be 2 x.iHeat ++
        b1 (setSum [x.satPIn, x.satVBus, x.satIBat, x.satIHeat])
    | none => List.replicate 9 0

/-- THERMAL. -/
def thermalBody (s : State) : List Byte :=
  b1 s.hc.e1.state.code ++ b1 s.hc.e1.cause.code ++ b1 s.hc.e2.state.code ++ b1 s.hc.e2.cause.code ++
    b1 s.hc.leg.code ++ b1 (setSum [s.hc.thermostat, s.hc.sensor]) ++ be 2 s.hc.demand ++
    match s.fe.latest with
    | some x =>
      beSigned 2 x.tPack.value ++ beSigned 2 x.tEl1.value ++ beSigned 2 x.tEl2.value ++ beSigned 2 x.tObc.value ++
        b1 x.tPack.mark.code ++ b1 x.tEl1.mark.code ++ b1 x.tEl2.mark.code ++ b1 x.tObc.mark.code
    | none => List.replicate 12 0

/-- INSULATION. Without a last result its figures are 0 and its class NONE (R172). -/
def insulationBody (s : State) : List Byte :=
  b1 s.im.level.code ++ b1 (setSum [s.im.runRequested, s.im.running]) ++ b1 s.im.meas.code ++
    (match s.im.last with
    | some r =>
      be 4 r.number ++ b1 (setSum [r.valid, r.localise]) ++ b1 r.cls.code ++ be 2 r.figures.rp ++ be 2 r.figures.rn ++
        be 2 r.figures.u
    | none => List.replicate 12 0) ++
    b1 s.im.faults.length ++ bFlag s.im.overflow ++ b1 s.im.worse.count ++ b1 s.im.worse.bound.code ++
    b1 s.im.better.count ++ b1 s.im.better.bound.code

/-- LIMITS; the remaining validity in whole 100 ms (log entry 31). -/
def limitsBody (s : State) : List Byte :=
  limitsFigures s ++ b1 (limitsCode s.sc) ++ b1 (s.sc.validity.getD 0 / 100) ++ bFlag s.hc.mode ++
    beSigned 2 s.hc.target

/-- The figures of a field set. -/
def fieldBody (f : FieldSet) (s : State) : List Byte :=
  match f with
  | .session => sessionBody s
  | .energy => energyBody s
  | .power => powerBody s
  | .thermal => thermalBody s
  | .insulation => insulationBody s
  | .limits => limitsBody s

/-- Reading the field set draws a free value (log entries 9 and 10). -/
def fieldDraws (f : FieldSet) (s : State) : Bool :=
  match f with
  | .session => s.ct.interval.isNone
  | .limits => s.sc.limits.isNone
  | .energy | .power | .thermal | .insulation => false

/-! ## Pieces of reply bodies (R194) -/

/-- The stream joined to area `i`: its code, or 4 for none (R194). -/
def joinedCode (r : Store) (i : Nat) : Nat :=
  let on (x : StreamState) : Bool := x.join.any fun j => j.area == i
  if on r.billing then 0 else if on r.insulation then 1 else if on r.events then 2 else if on r.readings then 3 else 4

/-- One entry of the area table (R194). The slots of an undefined entry are free values (log entry 33). -/
def areaEntry (s : State) (i : Nat) (a : Option Area) : List Byte :=
  match a with
  | some x => bFlag true ++ b1 x.first ++ be 2 x.count ++ b1 (joinedCode s.rs i)
  | none =>
    bFlag false ++ b1 (Config.undefinedFirst s.free i).toNat ++ be 2 (Config.undefinedCount s.free i).toNat ++ b1 4

/-- The area table, six entries in area order (R149, R194). -/
def areaTable (s : State) : List Byte :=
  areaEntry s 0 s.rs.areas[0] ++ areaEntry s 1 s.rs.areas[1] ++ areaEntry s 2 s.rs.areas[2] ++
    areaEntry s 3 s.rs.areas[3] ++ areaEntry s 4 s.rs.areas[4] ++ areaEntry s 5 s.rs.areas[5]

/-- The stream state of a joined stream (R159). -/
def streamFigures (st : Stream) (s : State) : List Byte :=
  let x := s.rs.stream st
  match x.join with
  | some j =>
    let a := s.rs.area j.area
    b1 j.area ++ b1 a.first ++ be 2 a.count ++ b1 (portCode j.port) ++ b1 j.head ++ be 2 j.count ++ be 2 (s.cfg.mark st) ++
      be 4 x.lost ++ be 4 x.overwritten
  | none => be 4 x.lost ++ be 4 x.overwritten

/-- A fault table entry in full (R102). -/
def FaultEntry.wire (e : FaultEntry) : List Byte :=
  be 4 e.seq ++ b1 e.kind.code ++ bTimeMarked e.time ++ be 2 e.figures.rp ++ be 2 e.figures.rn ++ be 2 e.figures.u

/-- The periods of a table (R194). -/
def periodsWire : List Period → List Byte
  | [] => []
  | p :: ps => be 2 p.start ++ be 2 p.price ++ periodsWire ps

/-- A set of notice flags in two bytes (R184). -/
def bFlags (f : BitVec 12) : List Byte := be 2 f.toNat

end Sys2Proof.Machine
end

