-- ==== Sys2Proof/Machine/PortOps.lean ====
section
/-! DEFINITION. The shape of every event and of every request: what RESET_N low keeps out, the end of a timer, the taking of
a sample set, and the taking of a request with its reply (R1, R9, R47, R72, R178, R180). -/

namespace Sys2Proof.Machine

/-! ## Events -/

/-- An event of the part: nothing while RESET_N is low (R1, R178); the disturbance reports are taken once the event's own
work is done (R47, R72; log entry 11). -/
def event (f : State → State) (s : State) : State := if s.resetLow then s else takeReports s (f s)

/-- The end of a timer: the `dt` ms left on it pass, then its event is taken. Nothing where the timer is not running
(log entries 2 and 3). -/
def atEnd (left : Option Nat) (f : State → State) (s : State) : State :=
  match left with
  | none => s
  | some dt => if s.resetLow then s else event f (elapse dt s)

/-- A consumer takes the latest sample set, at most once (R9). `due` says that it has still to take it. -/
def taking (due : Bool) (f : SampleSet → State → State) (s : State) : State :=
  match s.fe.latest with
  | none => s
  | some x => if due then event (f x) s else s

/-! ## Requests (R178, R180) -/

/-- What a block answers to a request: the state after its event, the status and the reply body (R180). -/
structure Answer where
  state : State
  status : Status
  body : List Byte
deriving DecidableEq, Repr

/-- A refusal changes no state and carries an empty body (R194). -/
def refuse (x : Status) (s : State) : Answer := ⟨s, x, []⟩

/-- The reply of a plan request: the items before it, then the area table after the request (R149, R194). -/
def planReply (x : Status) (items : List Byte) (s : State) : Answer := ⟨s.draw, x, items ++ areaTable s⟩

/-- The refusal of the port unit itself: no block sees the request (R180). A plan request's reply carries the area table when
it is refused too (R149). -/
def refuseTaken (k : Kind) (x : Status) (s : State) : Answer := if k.plan then planReply x [] s else refuse x s

/-- An accepted request with an empty body, CLAMPED or OK. -/
def accept (clamped : Bool) (s : State) : Answer := ⟨s, if clamped then .clamped else .ok, []⟩

/-- The data output of an earlier exchange stops and the request buffer is empty: a new exchange has come on the port (R178,
R181; log entry 6). -/
def PortUnit.newExchange (u : PortUnit) : PortUnit := { u with request := [], shift := [], shiftsReply := false }

/-- A new exchange on port `p`. -/
def newExchange (p : Port) (s : State) : State := s.onPort p PortUnit.newExchange

/-- Step 1 of R180: a pending reply is discarded and OVERRUN recorded. -/
def overrun (p : Port) (s : State) : State :=
  match (s.ports.get p).reply with
  | none => s
  | some _ => recordError p .overrun (s.onPort p fun u => { u with reply := none })

/-- Steps 3 and 4 of R180, then the owning block. -/
def answer (p : Port) (k : Kind) (body : List Byte) (act : State → Answer) (s : State) : Answer :=
  if !lengthOk k body then refuseTaken k .length s
  else if !portOk k p then refuseTaken k .permission s
  else act s

/-- The reply becomes pending in the reply buffer (R180). -/
def putReply (p : Port) (r : Reply) (s : State) : State := s.onPort p fun u => { u with reply := some r }

/-- A request taken on port `p` (R180). Nothing while RESET_N is low (R178). -/
def request (p : Port) (k : Kind) (body : List Byte) (act : State → Answer) (s : State) : State :=
  if s.resetLow then s
  else
    let s0 := overrun p (newExchange p s)
    let a := answer p k body act s0
    putReply p ⟨BitVec.ofNat 8 k.code, a.status, a.body⟩ (takeReports s0 a.state)

end Sys2Proof.Machine
end

