-- ==== Sys2Proof/Machine/Energy.lean ====
section
/-! DEFINITION. The commands of the energy account: EA_ALLOCATION, the ends of the pulse timers and READING_GET
(chapter 6). -/

namespace Sys2Proof.Machine

/-! ## Allocation (R109) -/

/-- The shares of one set, in mW, which are as many mW·ds (R108, R109). -/
structure Shares where
  g : Nat
  bg : Nat
  hg : Nat
  lg : Nat
  hb : Nat
deriving DecidableEq, Repr

/-- The allocation of a set (R109). -/
def sharesOf (x : SampleSet) : Shares :=
  let g := x.pIn.toNat * 1000
  let h := x.vBus * x.iHeat
  let b := x.vBus * x.iBat.toNat * 10
  let hg := min h g
  let bg := min b (g - hg)
  ⟨g, bg, hg, g - hg - bg, h - hg⟩

/-! ## Accrual (R110, R113) -/

/-- `x` mW·ds accrued into a field (R110). -/
def Energy.add (x : Nat) (e : Energy) : Energy :=
  if whUnit ≤ e.res + x then ⟨e.wh + 1, e.res + x - whUnit⟩ else ⟨e.wh, e.res + x⟩

/-- The accrual would carry the field beyond its maximum (R113). -/
def Energy.overflows (top x : Nat) (e : Energy) : Bool := whUnit ≤ e.res + x && top ≤ e.wh

/-- G, Bg, Hg and Lg of an account, frozen as a group (R113). -/
def Account.accrueGrid (top : Nat) (x : Shares) (a : Account) : Account :=
  if a.gridFrozen || a.g.overflows top x.g then { a with gridFrozen := true }
  else { a with g := a.g.add x.g, bg := a.bg.add x.bg, hg := a.hg.add x.hg, lg := a.lg.add x.lg }

/-- Hb of an account, frozen on its own (R113). -/
def Account.accrueHb (top : Nat) (x : Shares) (a : Account) : Account :=
  if a.hbFrozen || a.hb.overflows top x.hb then { a with hbFrozen := true } else { a with hb := a.hb.add x.hb }

/-- A set's shares accrued into an account (R111, R113). -/
def Account.accrue (top : Nat) (x : Shares) (a : Account) : Account := (a.accrueGrid top x).accrueHb top x

/-- The maximum of a lifetime field, 40 bits (R113). -/
def max40 : Nat := 1099511627775

/-- The unassigned grid counter takes G (R111, R114). -/
def EnergyAccount.accrueUnassigned (g : Nat) (a : EnergyAccount) : EnergyAccount :=
  if a.unassignedFrozen || a.unassigned.overflows max32 g then { a with unassignedFrozen := true }
  else { a with unassigned := a.unassigned.add g }

/-- The lifetime account, and the session account or the unassigned counter (R111). -/
def EnergyAccount.accrue (x : Shares) (a : EnergyAccount) : EnergyAccount :=
  let a := { a with lifetime := a.lifetime.accrue max40 x }
  if a.accruing then { a with session := a.session.accrue max32 x } else a.accrueUnassigned x.g

/-! ## Crossings and indications (R116, R117, R136) -/

/-- The session G field has carried a Wh (R116). -/
def crossed (before after : EnergyAccount) : Bool := after.session.g.wh != before.session.g.wh

/-- Each crossing adds the price register to the session cost (R116, R136). -/
def priceCrossing (crossing : Bool) (c : ClockTariff) : ClockTariff :=
  if crossing then { c with cost := c.cost + c.price } else c

/-- The indications of a set accrued into the session account (R117). -/
def indicate (x : SampleSet) (c : ClockTariff) : ClockTariff :=
  { c with
    interval := c.interval.map fun i =>
      { i with
        flags := { i.flags with
          reverse := i.flags.reverse || x.pIn < 0
          saturatedInput := i.flags.saturatedInput || x.saturated } } }

/-! ## Metrology pulses (R120 to R122) -/

/-- One eighth of a Wh in mW·ds (R120). -/
def eighthUnit : Nat := 4500000

/-- How many quanta can be turned out: as many as the accumulator holds, up to the stall of the path (R121). -/
def quantaOut (quantum : Nat) (a : EnergyAccount) : Nat := min (a.acc / quantum) (255 - a.pulses + (max32 - a.lost))

/-- Quanta turned out: pending first, then lost (R121). -/
def EnergyAccount.turnOut (quantum : Nat) (a : EnergyAccount) : EnergyAccount :=
  let n := quantaOut quantum a
  let k := min n (255 - a.pulses)
  { a with acc := a.acc - n * quantum, pulses := a.pulses + k, lost := a.lost + (n - k) }

/-- While READY with pulses pending the output takes one (R122). -/
def EnergyAccount.takePulse (a : EnergyAccount) : EnergyAccount :=
  if a.pulse = .ready ∧ 0 < a.pulses then { a with pulses := a.pulses - 1, pulse := .high, pulseMs := 5 } else a

/-- The G of a set through the pulse path, for a quantum of `q` eighths (R120, R121). -/
def EnergyAccount.feedPulses (q g : Nat) (a : EnergyAccount) : EnergyAccount :=
  if q = 0 then a
  else
    let a := a.turnOut (q * eighthUnit)
    if a.stalled then a.takePulse
    else (EnergyAccount.turnOut (q * eighthUnit) { a with acc := a.acc + g }).takePulse

/-! ## The allocation of a set (R108) -/

/-- The energy account takes a sample set (R108). While the session accrues the set's marks are indicated on the interval, also
where a frozen session account accrues nothing (DEDUCED, log entry 37). -/
def eaTake (x : SampleSet) (s : State) : State :=
  let sh := sharesOf x
  let a := s.ea.accrue sh
  let s1 := s.onCt fun c => if s.ea.accruing then indicate x (priceCrossing (crossed s.ea a) c) else c
  s1.onEa fun _ => a.feedPulses (pulseQuantum s.cfg) sh.g

/-- The energy account has taken the latest set. -/
def FrontEnd.eaTook (f : FrontEnd) : FrontEnd := { f with dueEa := false }

/-- EA_ALLOCATION (R108 to R117, R120 to R122). -/
def execEaAllocation (s : State) : Host.Outcome State Fault Refusal :=
  .next (taking s.fe.dueEa (fun x s => eaTake x (s.onFe FrontEnd.eaTook)) s)

/-! ## The pulse timers (R122) -/

/-- The time left in a state of the PULSE output. -/
def pulseLeft (st : PulseState) (a : EnergyAccount) : Option Nat := if a.pulse = st then some a.pulseMs else none

/-- The HIGH timer runs out (R122). -/
def EnergyAccount.endHigh (a : EnergyAccount) : EnergyAccount := { a with pulse := .low, pulseMs := 5 }

/-- The LOW timer runs out: READY, and the next pulse taken (R122). -/
def EnergyAccount.endLow (a : EnergyAccount) : EnergyAccount :=
  EnergyAccount.takePulse { a with pulse := .ready, pulseMs := 0 }

/-- PULSE_HIGH_END (R122). -/
def execPulseHighEnd (s : State) : Host.Outcome State Fault Refusal :=
  .next (atEnd (pulseLeft .high s.ea) (fun s => s.onEa EnergyAccount.endHigh) s)

/-- PULSE_LOW_END (R122). -/
def execPulseLowEnd (s : State) : Host.Outcome State Fault Refusal :=
  .next (atEnd (pulseLeft .low s.ea) (fun s => s.onEa EnergyAccount.endLow) s)

/-! ## READING_GET (R119) -/

/-- The reply body of READING_GET, in the order of R119's table (R194). -/
def readingBody (s : State) : List Byte :=
  let a := s.ea.session
  let l := s.ea.lifetime
  be 4 s.sc.record.number ++ bTimeMarked s.sc.record.openTime ++ bFlag s.ea.accruing ++
    be 4 a.g.wh ++ be 4 a.bg.wh ++ be 4 a.hg.wh ++ be 4 a.lg.wh ++ be 4 a.hb.wh ++ bFlag a.saturated ++
    be 5 (roundedCost s.ct.cost) ++ be 5 l.g.wh ++ be 5 l.bg.wh ++ be 5 l.hg.wh ++ be 5 l.lg.wh ++ be 5 l.hb.wh ++
    bFlag l.saturated ++ be 4 s.ea.unassigned.wh ++ b1 s.ea.pulses ++ be 4 s.ea.lost

/-- READING_GET (R119). -/
def execReadingGet (p : Port) (b : List Byte) (s : State) : Host.Outcome State Fault Refusal :=
  .next (request p .readingGet b (fun s => ⟨s, .ok, readingBody s⟩) s)

end Sys2Proof.Machine
end

