-- ==== Sys2Proof/Machine/FrontEnd.lean ====
section
/-! DEFINITION. The commands of the measurement front end: SAMPLE_SET_DELIVERY, TEMP_HOLD_EXPIRY and CHASSIS_SAMPLE
(chapter 1). -/

namespace Sys2Proof.Machine

/-! ## Electrical channels (R3, R4) -/

/-- The rounded mean lies outside its range (R4). -/
def outside (lo hi : Int) (m : Mean) : Bool := decide (roundMean m < lo) || decide (hi < roundMean m)

/-- The delivered value of an electrical channel (R3, R4). -/
def channel (lo hi : Int) (m : Mean) : Int := clampInt lo hi (roundMean m)

/-! ## Temperature channels (R5, R6) -/

/-- The value and mark a channel delivers for a conversion (R5, R6). -/
def deliverTemp (t : Option Mean) (h : HoldChannel) : TempReading :=
  match t with
  | some m => ⟨channel (-500) 1500 m, if outside (-500) 1500 m then .saturated else .unmarked⟩
  | none =>
    match h.last with
    | some v => if h.counter + 1 ≤ 10 then ⟨v, .held⟩ else ⟨0, .missing⟩
    | none => ⟨0, .missing⟩

/-- The hold mechanism after a conversion (R5, R6). -/
def HoldChannel.convert (t : Option Mean) (h : HoldChannel) : HoldChannel :=
  match t with
  | some m => ⟨some (channel (-500) 1500 m), 0⟩
  | none => ⟨if h.counter + 1 ≤ 10 then h.last else none, min 11 (h.counter + 1)⟩

/-- The conversion takes the channel's hold counter to 11 (R6). -/
def HoldChannel.expires (t : Option Mean) (h : HoldChannel) : Bool := t.isNone && h.counter == 10

/-! ## The sample set (R1, R2, R8) -/

/-- The sample set of a window (R2 to R6, R8). -/
def sampleOf (w : Window) (f : FrontEnd) : SampleSet :=
  { seq := f.nextSeq
    pIn := channel (-30000) 30000 w.pIn
    vBus := (channel 0 6500 w.vBus).toNat
    iBat := channel (-5000) 5000 w.iBat
    iHeat := (channel 0 5000 w.iHeat).toNat
    satPIn := outside (-30000) 30000 w.pIn
    satVBus := outside 0 6500 w.vBus
    satIBat := outside (-5000) 5000 w.iBat
    satIHeat := outside 0 5000 w.iHeat
    tPack := deliverTemp w.tPack f.tPack
    tEl1 := deliverTemp w.tEl1 f.tEl1
    tEl2 := deliverTemp w.tEl2 f.tEl2
    tObc := deliverTemp w.tObc f.tObc
    plug := w.plug }

/-- The delivery: the latest set is replaced whole and every consumer has it to take (R1, R9). -/
def FrontEnd.deliver (w : Window) (f : FrontEnd) : FrontEnd :=
  { f with
    latest := some (sampleOf w f)
    nextSeq := (f.nextSeq + 1) % 65536
    windowMs := f.windowMs - 100
    tPack := f.tPack.convert w.tPack
    tEl1 := f.tEl1.convert w.tEl1
    tEl2 := f.tEl2.convert w.tEl2
    tObc := f.tObc.convert w.tObc
    dueSc := true
    duePc := true
    dueHc := true
    dueIm := true
    dueEa := true }

/-- The end of the measurement window (R1): the rest of its 100 ms pass and the set is delivered. -/
def windowEnd (w : Window) (s : State) : State :=
  atEnd (some (100 - s.fe.windowMs)) (fun s => s.onFe (FrontEnd.deliver w)) s

/-- SAMPLE_SET_DELIVERY (R1 to R6, R8). -/
def execSampleSetDelivery (w : Window) (s : State) : Host.Outcome State Fault Refusal := .next (windowEnd w s)

/-- A channel's hold counter reaches 11 with this window (R6). -/
def holdExpires (w : Window) (f : FrontEnd) : Bool :=
  f.tPack.expires w.tPack || f.tEl1.expires w.tEl1 || f.tEl2.expires w.tEl2 || f.tObc.expires w.tObc

/-- TEMP_HOLD_EXPIRY (R6): the delivery at which a hold counter reaches 11 (log entry 4). -/
def execTempHoldExpiry (w : Window) (s : State) : Host.Outcome State Fault Refusal :=
  .next (if holdExpires w s.fe then windowEnd w s else s)

/-! ## The chassis sampler (R10 to R12) -/

/-- The sampler runs (R10). -/
def FrontEnd.sampling (f : FrontEnd) : Bool := f.insA || f.insB

/-- A 50 ms interval has completed: the index rises, the next interval begins (R10). -/
def FrontEnd.nextChassis (f : FrontEnd) : FrontEnd :=
  { f with chassisMs := f.chassisMs - 50, chassisIndex := satAdd 255 f.chassisIndex 1 }

/-- The chassis sample of an interval with mean `v` (R11), the index already raised: v_chs clamped to 0..6500 and SATURATED
where the mean lies outside. The mean compared is the rounded one, as R3 has it before the check of R4: R11 does not say
which (DEDUCED, log entry 42). -/
def chassisSample (v : Mean) (f : FrontEnd) : ChassisSample :=
  { vChs := (channel 0 6500 v).toNat
    insA := f.insA
    insB := f.insB
    index := f.chassisIndex
    saturated := outside 0 6500 v }

/-- The chassis sample is delivered and taken by the insulation monitor (R10, R11, R86). -/
def deliverChassis (v : Mean) (s : State) : State :=
  let s := s.onFe FrontEnd.nextChassis
  takeChassis (chassisSample v s.fe) s

/-- CHASSIS_SAMPLE (R10, R11, R86): nothing while both switches are open (R12). -/
def execChassisSample (v : Mean) (s : State) : Host.Outcome State Fault Refusal :=
  .next (atEnd (if s.fe.sampling then some (50 - s.fe.chassisMs) else none) (deliverChassis v) s)

end Sys2Proof.Machine
end

