-- ==== Sys2Proof/Machine/Heater.lean ====
section
/-! DEFINITION. The commands of the heater controller: its taking of a sample set, its timers and its requests
(chapter 4). -/

namespace Sys2Proof.Machine

/-! ## The taking of a sample set (R62) -/

/-- What bars turn-ons and connections now (R64, R66, R72, R74). -/
def barsNow (s : State) : TurnOnBars := ⟨s.im.inPhase, s.sc.state = .lockedOut⟩

/-- Rated powers and hot conditions from a set (R56, R58). -/
def Heater.takeSet (i : Items) (x : SampleSet) (h : Heater) : Heater :=
  ({ h with e1 := h.e1.rate x.vBus i.resE1, e2 := h.e2.rate x.vBus i.resE2 }.takeTemp x.tEl1 .e1).takeTemp x.tEl2 .e2

/-- The heater controller takes a sample set: rated powers, hot conditions, thermostat, fit, current check, selection,
connection, in this order (R62, R65, R66, R69; log entry 23). -/
def hcTake (x : SampleSet) (s : State) : State :=
  let s := evalThermostat x.tPack (s.onHc (Heater.takeSet s.cfg x))
  let s := takeCheck x.vBus x.iHeat (s.onHc (Heater.fit s.pc.aH))
  s.onHc fun h => (h.applySelection s.pc.aH (barsNow s)).startConnection (barsNow s)

/-- The heater controller has taken the latest set. -/
def FrontEnd.hcTook (f : FrontEnd) : FrontEnd := { f with dueHc := false }

/-- HC_SAMPLE_TAKING (R62). -/
def execHcSampleTaking (s : State) : Host.Outcome State Fault Refusal :=
  .next (taking s.fe.dueHc (fun x s => hcTake x (s.onFe FrontEnd.hcTook)) s)

/-! ## Timers -/

/-- The leg enters CONNECTED and the idle timer starts (R67). -/
def Heater.connected (h : Heater) : Heater := { h with leg := .connected, connect := none, idle := some 0 }

/-- CONNECT_TIMER_EXPIRY (R67). -/
def execConnectTimerExpiry (s : State) : Host.Outcome State Fault Refusal :=
  .next (atEnd s.hc.connect (fun s => s.onHc Heater.connected) s)

/-- The disconnect has settled; under the localise hold the monitor in LOCALISING starts its measurement (R73, R99). -/
def legSettled (s : State) : State :=
  let s := s.onHc fun h => { h with settle := none }
  if s.hc.localiseHold = true ∧ s.im.meas = .localising then startMeasurement true s else s

/-- SETTLE_TIMER_EXPIRY (R59, R73, R99). -/
def execSettleTimerExpiry (s : State) : Host.Outcome State Fault Refusal := .next (atEnd s.hc.settle legSettled s)

/-- The time left on the idle timer; none while it does not run, waits deferred, or HEAT_IDLE_S is 0 (R68). -/
def idleLeft (s : State) : Option Nat :=
  if s.cfg.heatIdleS = 0 ∨ s.hc.idleDeferred = true then none else s.hc.idle.map (s.cfg.heatIdleS * 1000 - ·)

/-- IDLE_TIMER_EXPIRY (R68). -/
def execIdleTimerExpiry (s : State) : Host.Outcome State Fault Refusal := .next (atEnd (idleLeft s) idleLimit s)

/-- The deferred disconnect is taken if the leg is still CONNECTED with no element ON (R68). -/
def deferredDisconnect (s : State) : State :=
  s.onHc fun h =>
    if h.leg = .connected ∧ h.anyOn = false then h.openLeg else { h with idleDeferred := false }

/-- DEFERRED_IDLE_DISCONNECT (R68), due once the phase has ended. -/
def execDeferredIdleDisconnect (s : State) : Host.Outcome State Fault Refusal :=
  .next (if s.hc.idleDeferred && !s.im.inPhase then event deferredDisconnect s else s)

/-- BLANKING_TIMER_EXPIRY (R69). -/
def execBlankingTimerExpiry (s : State) : Host.Outcome State Fault Refusal :=
  .next (atEnd s.hc.blanking (fun s => s.onHc fun h => { h with blanking := none }) s)

/-! ## HEAT_REQUEST (R60) -/

/-- A heat request stored and the thermostat evaluated at once (R60, R61). One equal to the stored one changes nothing. -/
def storeHeat (mode : Bool) (target : Int) (s : State) : State :=
  if s.hc.mode = mode ∧ s.hc.target = target then s
  else
    let s := s.onHc fun h => { h with mode := mode, target := target }
    match s.fe.latest with
    | some x => evalThermostat x.tPack s
    | none => s.onHc fun h => { h with thermostat := h.mode && h.thermostat }

/-- HEAT_REQUEST taken (R60). -/
def answerHeat (b : List Byte) (s : State) : Answer :=
  if 1 < u8 b 0 then refuse .invalid s
  else
    let t := clampInt (-300) 450 (s16 b 1)
    accept (decide (t ≠ s16 b 1)) (storeHeat (u8 b 0 = 1) t s)

/-- HEAT_REQUEST (R60). -/
def execHeatRequest (p : Port) (b : List Byte) (s : State) : Host.Outcome State Fault Refusal :=
  .next (request p .heatRequest b (answerHeat b) s)

/-! ## HEATER_RESTORE (R75) -/

/-- A set of items: E1, E2, LEG (R75). -/
structure RestoreSet where
  e1 : Bool
  e2 : Bool
  leg : Bool
deriving DecidableEq, Repr

/-- The items a selector names (R190). -/
def selectorOf (n : Nat) : RestoreSet := ⟨n % 2 = 1, n / 2 % 2 = 1, n / 4 % 2 = 1⟩

/-- The named items that a restore acts on: DISABLED elements, an ISOLATED leg (R75). -/
def Heater.restorable (x : RestoreSet) (h : Heater) : RestoreSet :=
  ⟨x.e1 && h.e1.state == .disabled, x.e2 && h.e2.state == .disabled, x.leg && h.leg == .isolated⟩

/-- An element restored (R75). -/
def Element.restore (e : Element) : Element :=
  { e with state := if e.hot then .hotLock else .off, cause := .noCause }

/-- The items of a set restored (R75). -/
def Heater.restoreItems (x : RestoreSet) (h : Heater) : Heater :=
  { h with
    e1 := if x.e1 then h.e1.restore else h.e1
    e2 := if x.e2 then h.e2.restore else h.e2
    leg := if x.leg then .disconnected else h.leg }

/-- HEATER_RESTORE taken (R75). -/
def answerRestore (b : List Byte) (s : State) : Answer :=
  let x := s.hc.restorable (selectorOf (u8 b 0))
  if u8 b 0 = 0 ∨ 8 ≤ u8 b 0 then refuse .invalid s
  else if s.hc.localiseHold then refuse .busy s
  else if x = ⟨false, false, false⟩ then refuse .state s
  else ⟨heaterEvent (s.onHc (Heater.restoreItems x)), .ok, b1 (setSum [x.e1, x.e2, x.leg])⟩

/-- HEATER_RESTORE (R75). -/
def execHeaterRestore (p : Port) (b : List Byte) (s : State) : Host.Outcome State Fault Refusal :=
  .next (request p .heaterRestore b (answerRestore b) s)

end Sys2Proof.Machine
end

