-- ==== Sys2Proof/Machine/Insulation.lean ====
section
/-! DEFINITION. The commands of the insulation monitor: its taking of a sample set, its timers and its requests
(chapter 5). CHASSIS_SAMPLE stands with the front end. -/

namespace Sys2Proof.Machine

/-! ## Takings and timers -/

/-- The insulation monitor has taken the latest set. -/
def FrontEnd.imTook (f : FrontEnd) : FrontEnd := { f with dueIm := false }

/-- IM_SAMPLE_TAKING (R78, R80). -/
def execImSampleTaking (s : State) : Host.Outcome State Fault Refusal :=
  .next (taking s.fe.dueIm (fun x s => imTake x (s.onFe FrontEnd.imTook)) s)

/-- The countdown has run out: it stands at zero, and a measurement starts or the pending request flag is set (R81). -/
def cycleEnds (s : State) : State :=
  let s := s.onIm fun m => { m with cycleRun := false, cycleLeft := 0 }
  if s.im.meas = .idle then startMeasurement false s else s.onIm fun m => { m with request := true }

/-- CYCLE_COUNTDOWN_EXPIRY (R81). -/
def execCycleCountdownExpiry (s : State) : Host.Outcome State Fault Refusal :=
  .next (atEnd (if s.im.cycleRun then some s.im.cycleLeft else none) cycleEnds s)

/-- A pending request can be served: IDLE, RUNNING, the flag set (R82). -/
def pendingDue (m : Insulation) : Bool := m.request && m.running && m.meas == .idle

/-- PENDING_MEASUREMENT_START (R82). -/
def execPendingMeasurementStart (s : State) : Host.Outcome State Fault Refusal :=
  .next (if pendingDue s.im then event (startMeasurement false) s else s)

/-- PHASE_TIMER_EXPIRY (R87). -/
def execPhaseTimerExpiry (s : State) : Host.Outcome State Fault Refusal :=
  .next (atEnd s.im.phase (fun s => endInvalid .settleTimeout (latestVBus s) s) s)

/-- The age limit is reached (R96): the level becomes UNKNOWN and the timer stops. -/
def levelAges (s : State) : State :=
  setLevel .unknown (unknownFigures s.im) (s.onIm fun m => { m with age := none })

/-- The time left before the level ages; none while the timer is stopped or the level is UNKNOWN (R96). -/
def ageLeft (s : State) : Option Nat := if s.im.level = .unknown then none else s.im.age.map (ageLimit s - ·)

/-- LEVEL_AGE_EXPIRY (R96). -/
def execLevelAgeExpiry (s : State) : Host.Outcome State Fault Refusal := .next (atEnd (ageLeft s) levelAges s)

/-! ## Requests -/

/-- INS_START taken (R79, R80). -/
def insStart (s : State) : State :=
  if s.im.runRequested then s
  else
    let s := s.onIm fun m => { m with runRequested := true }
    if 500 ≤ latestVBus s then runningBegins s else s

/-- INS_START (R79). -/
def execInsStart (p : Port) (b : List Byte) (s : State) : Host.Outcome State Fault Refusal :=
  .next (request p .insStart b (fun s => accept false (insStart s)) s)

/-- INS_STOP (R79). -/
def execInsStop (p : Port) (b : List Byte) (s : State) : Host.Outcome State Fault Refusal :=
  .next (request p .insStop b (fun s => accept false (forcedStop s)) s)

/-- MEASURE_NOW taken (R83). -/
def answerMeasure (s : State) : Answer :=
  if s.im.runRequested then accept false (requestMeasurement s) else refuse .state s

/-- MEASURE_NOW (R83). -/
def execMeasureNow (p : Port) (b : List Byte) (s : State) : Host.Outcome State Fault Refusal :=
  .next (request p .measureNow b answerMeasure s)

/-- The entry with a sequence removed; an empty table clears OVERFLOW and its count (R103, R104). -/
def Insulation.ackFault (seq : Nat) (m : Insulation) : Insulation :=
  let rest := m.faults.filter fun e => e.seq != seq
  { m with
    faults := rest
    overflow := m.overflow && !rest.isEmpty
    overflowCount := if rest.isEmpty then 0 else m.overflowCount }

/-- FAULT_ACK taken (R104). -/
def answerAck (b : List Byte) (s : State) : Answer :=
  if s.im.faults.any fun e => e.seq = u32 b 0 then
    let s := s.onIm (Insulation.ackFault (u32 b 0))
    ⟨s, .ok, b1 s.im.faults.length⟩
  else refuse .notFound s

/-- FAULT_ACK (R104). -/
def execFaultAck (p : Port) (b : List Byte) (s : State) : Host.Outcome State Fault Refusal :=
  .next (request p .faultAck b (answerAck b) s)

/-- The number of entries, OVERFLOW and the overflow count (R105). -/
def faultTail (m : Insulation) : List Byte := b1 m.faults.length ++ bFlag m.overflow ++ b1 m.overflowCount

/-- FAULT_LIST taken (R105). -/
def answerFaults (b : List Byte) (s : State) : Answer :=
  match s.im.faults[u8 b 0]? with
  | some e => ⟨s, .ok, e.wire ++ faultTail s.im⟩
  | none => ⟨s, .empty, faultTail s.im⟩

/-- FAULT_LIST (R105). -/
def execFaultList (p : Port) (b : List Byte) (s : State) : Host.Outcome State Fault Refusal :=
  .next (request p .faultList b (answerFaults b) s)

end Sys2Proof.Machine
end

