-- ==== Sys2Proof/Machine/Power.lean ====
section
/-! DEFINITION. The commands of the power command: PC_UPDATE, DERATE_WINDOW_END and PWM_PERIOD_START, and the limit update
that OFFER_UPDATE and CONFIG_SET bring (chapter 3). -/

namespace Sys2Proof.Machine

/-- Step 1 of the update: the derate state from t_obc, with the effects of a change (R48 to R50). -/
def takeDerate (x : SampleSet) (s : State) : State :=
  let d := derateAfter s.cfg x.tObc s.pc.derate
  if d = s.pc.derate then s
  else
    let s := occur .derateChanged (raiseAll .derate (s.onPc fun p => { p with derate := d }))
    if d = .trip then enterLockout .overtemp s else s

/-- Stage 4, the target (R40). -/
def targetOf (vBus : Nat) (s : State) : Nat := min (lStationOf s) (min (lObcOf s) (bReqOf vBus s + s.hc.hOn))

/-- Stage 6: ramp up, fall at once (R41). -/
def rampTo (step prev target : Nat) : Nat := if prev ≤ target then min target (prev + step) else target

/-- Stage 6 with the freeze of a measurement phase (R41). -/
def rampFrozen (frozen : Bool) (step prev target : Nat) : Nat :=
  if frozen then min (rampTo step prev target) prev else rampTo step prev target

/-- The closing step (R46). -/
def closingStep (s : State) : Nat := min (s.pc.pCmd - s.cfg.closeRampStep) (min (lStationOf s) (lObcOf s))

/-- Step 4 of the update (R38, R40 to R43, R46). H_on is read for stage 4 before the new allowance is published. -/
def takeSetpoint (x : SampleSet) (s : State) : State :=
  match s.sc.state with
  | .preheat | .charging =>
    setCommand (quantise (rampFrozen s.im.inPhase s.cfg.rampStep s.pc.pCmd (targetOf x.vBus s))) (recompute x.vBus s)
  | .closing => commandZeroReached (setCommand (quantise (closingStep s)) (recompute x.vBus s))
  | .unplugged | .connected | .verifying | .hold | .lockedOut => recompute x.vBus (setCommand 0 s)

/-- The update (R38), its four steps in order. -/
def pcTake (x : SampleSet) (s : State) : State :=
  takeSetpoint x (takeExhaustion (takeWindow x (takeDerate x s)))

/-- The power command has taken the latest set. -/
def FrontEnd.pcTook (f : FrontEnd) : FrontEnd := { f with duePc := false }

/-- The power command's taking of the latest set. -/
def pcUpdate (s : State) : State := taking s.fe.duePc (fun x s => pcTake x (s.onFe FrontEnd.pcTook)) s

/-- PC_UPDATE (R38). -/
def execPcUpdate (s : State) : Host.Outcome State Fault Refusal := .next (pcUpdate s)

/-- The next set completes the derate window (R51). -/
def windowCompletes (s : State) : Bool :=
  s.pc.windowCount + 1 == (if s.pc.windowCount = 0 then s.cfg.derateWindowS * 10 else s.pc.windowLen)

/-- DERATE_WINDOW_END (R51): the update that completes the window (log entry 4). -/
def execDerateWindowEnd (s : State) : Host.Outcome State Fault Refusal :=
  .next (if windowCompletes s then pcUpdate s else s)

/-- The limit update (R44). -/
def limitUpdate (s : State) : State :=
  let s := recomputeNow s
  match s.sc.state with
  | .preheat | .charging | .closing =>
    commandZeroReached (setCommand (quantise (min s.pc.pCmd (min s.pc.lStation s.pc.lObc))) s)
  | .unplugged | .connected | .verifying | .hold | .lockedOut => s

/-- The PWM period begins with the duty set from P_cmd (R42). -/
def Power.periodStart (p : Power) : Power := { p with pwmMs := p.pwmMs - 1, duty := dutySet p.pCmd }

/-- PWM_PERIOD_START (R42). -/
def execPwmPeriodStart (s : State) : Host.Outcome State Fault Refusal :=
  .next (atEnd (some (1 - s.pc.pwmMs)) (fun s => s.onPc Power.periodStart) s)

end Sys2Proof.Machine
end

