-- ==== Sys2Proof/WellFormed.lean ====
section
/-! DEFINITION. Which commands can be written on the pins: a mean has a denominator, a body fits the length byte
(R178: at most 60), the bits of a broken byte are fewer than eight. `exec` is total all the same. -/

namespace Sys2Proof

/-- A mean is a fraction. -/
def Mean.wf (m : Mean) : Bool := 0 < m.den

/-- A conversion that yields a temperature is a fraction; an open sensor is in order. -/
def conversionWf : Option Mean → Bool
  | none => true
  | some m => m.wf

/-- Every figure of a window is a fraction. -/
def Window.wf (w : Window) : Bool :=
  w.pIn.wf && w.vBus.wf && w.iBat.wf && w.iHeat.wf &&
    conversionWf w.tPack && conversionWf w.tEl1 && conversionWf w.tEl2 && conversionWf w.tObc

/-- The longest body of a request frame (R178). -/
def maxBody : Nat := 60

/-- A body that the length byte may announce (R178). -/
def bodyWf (b : List Byte) : Bool := b.length ≤ maxBody

/-- The well-formed commands. -/
def WellFormed : Instr → Bool
  | .sampleSetDelivery w => w.wf
  | .tempHoldExpiry w => w.wf
  | .chassisSample v => v.wf
  | .framingError _ received bits => received.length ≤ maxBody + 2 && bits < 8
  | .overlongFrame _ _ len => maxBody < len.toNat
  | .crcError _ _ body _ => bodyWf body
  | .unknownKindRequest _ _ body => bodyWf body
  | .fetch _ body => bodyWf body
  | .limits _ body => bodyWf body
  | .heatRequest _ body => bodyWf body
  | .insStart _ body => bodyWf body
  | .insStop _ body => bodyWf body
  | .faultAck _ body => bodyWf body
  | .lockoutRelease _ body => bodyWf body
  | .heaterRestore _ body => bodyWf body
  | .measureNow _ body => bodyWf body
  | .sessionOpen _ body => bodyWf body
  | .offerUpdate _ body => bodyWf body
  | .stationPause _ body => bodyWf body
  | .sessionClose _ body => bodyWf body
  | .tariffLoad _ body => bodyWf body
  | .statusGet _ body => bodyWf body
  | .readingGet _ body => bodyWf body
  | .faultList _ body => bodyWf body
  | .tariffGet _ body => bodyWf body
  | .configGet _ body => bodyWf body
  | .configSet _ body => bodyWf body
  | .snapshotNow _ body => bodyWf body
  | .noticeGet _ body => bodyWf body
  | .noticeClear _ body => bodyWf body
  | .noticeEnable _ body => bodyWf body
  | .errClear _ body => bodyWf body
  | .timeSet _ body => bodyWf body
  | .areaSet _ body => bodyWf body
  | .areaClear _ body => bodyWf body
  | .join _ body => bodyWf body
  | .unjoin _ body => bodyWf body
  | .descSet _ body => bodyWf body
  | .vectorSet _ body => bodyWf body
  | .streamRead _ body => bodyWf body
  | .streamAck _ body => bodyWf body
  | .coldReset => true
  | .resetNFall => true
  | .resetNRise => true
  | .scSampleTaking => true
  | .plugDebounceChange => true
  | .pcUpdate => true
  | .derateWindowEnd => true
  | .hcSampleTaking => true
  | .connectTimerExpiry => true
  | .settleTimerExpiry => true
  | .idleTimerExpiry => true
  | .deferredIdleDisconnect => true
  | .blankingTimerExpiry => true
  | .imSampleTaking => true
  | .cycleCountdownExpiry => true
  | .pendingMeasurementStart => true
  | .phaseTimerExpiry => true
  | .levelAgeExpiry => true
  | .limitsValidityExpiry => true
  | .verificationTimerExpiry => true
  | .eaAllocation => true
  | .pulseHighEnd => true
  | .pulseLowEnd => true
  | .clockTick => true
  | .boundaryClose => true
  | .periodClose => true
  | .tariffApplyAtSessionEnd => true
  | .heldRecordAppend => true
  | .pendingFinalPlaced => true
  | .snapshotSelection => true
  | .compositionComplete => true
  | .periodicTimerExpiry => true
  | .replyShiftComplete _ => true
  | .pwmPeriodStart => true

end Sys2Proof
end

