-- ==== Sys2Proof/Machine/Ports.lean ====
section
/-! DEFINITION. The commands of the port units: broken frames, unknown kinds, FETCH, STATUS_GET, the configuration, the
notices and ERR_CLEAR (chapter 10). -/

namespace Sys2Proof.Machine

/-! ## Broken frames (R178, R179) -/

/-- A broken frame: the exchange is over, the error recorded; no block sees it (R178, R179, R182). -/
def brokenFrame (p : Port) (x : PortError) (s : State) : State := recordError p x (newExchange p s)

/-- Chip select was released after at least one clock edge and before the frame, of announced length at most 60, was
complete (R178). -/
def partialFrame (received : List Byte) (bits : Nat) : Bool :=
  match received with
  | [] => 0 < bits
  | [_] => true
  | _ :: l :: rest => l.toNat ≤ maxBody && rest.length < l.toNat + 1

/-- FRAMING_ERROR (R178). -/
def execFramingError (p : Port) (received : List Byte) (bits : Nat) (s : State) : Host.Outcome State Fault Refusal :=
  .next (if partialFrame received bits then event (brokenFrame p .framing) s else s)

/-- OVERLONG_FRAME (R178). The kind byte takes no part. -/
def execOverlongFrame (p : Port) (_kind len : Byte) (s : State) : Host.Outcome State Fault Refusal :=
  .next (if maxBody < len.toNat then event (brokenFrame p .framing) s else s)

/-- CRC_ERROR (R179): a complete frame whose check byte is not the one computed. -/
def execCrcError (p : Port) (kind : Byte) (body : List Byte) (check : Byte) (s : State) :
    Host.Outcome State Fault Refusal :=
  .next (if bodyWf body && check != requestCheck kind body then event (brokenFrame p .crc) s else s)

/-- A request of a kind that is not in the table (R180). -/
def refuseKind (p : Port) (kind : Byte) (s : State) : State :=
  putReply p ⟨kind, .unknownKind, []⟩ (overrun p (newExchange p s))

/-- UNKNOWN_KIND_REQUEST (R180). -/
def execUnknownKindRequest (p : Port) (kind : Byte) (_body : List Byte) (s : State) : Host.Outcome State Fault Refusal :=
  .next (if knownKind kind then s else event (refuseKind p kind) s)

/-! ## FETCH (R181) -/

/-- The data output drives the pending reply, or the WAIT reply (R181). -/
def PortUnit.fetch (u : PortUnit) : PortUnit :=
  match u.reply with
  | some r => { u with shift := r.frame, shiftsReply := true }
  | none => { u with shift := waitReply.frame, shiftsReply := false }

/-- A FETCH frame taken (R181). -/
def fetchReply (p : Port) (s : State) : State := (newExchange p s).onPort p PortUnit.fetch

/-- FETCH (R181). A frame of kind 0 with a body is a request, refused LENGTH (R180). -/
def execFetch (p : Port) (b : List Byte) (s : State) : Host.Outcome State Fault Refusal :=
  .next (if b.isEmpty then event (fetchReply p) s else request p .fetch b (refuse .length) s)

/-- The pending reply has been shifted out whole (R181). -/
def PortUnit.shifted (u : PortUnit) : PortUnit := { u with reply := none, shift := [], shiftsReply := false }

/-- REPLY_SHIFT_COMPLETE (R181), due while the pending reply is being driven. -/
def execReplyShiftComplete (p : Port) (s : State) : Host.Outcome State Fault Refusal :=
  .next (if (s.ports.get p).shiftsReply then event (fun s => s.onPort p PortUnit.shifted) s else s)

/-! ## STATUS_GET (R187) -/

/-- The Session and Limits groups. -/
def statusSession (s : State) : List Byte :=
  b1 s.sc.state.code ++ b1 (plugCode s.sc.plug) ++ b1 s.sc.hold.sum ++ b1 s.sc.lockout.sum ++ bFlag s.sc.finalPending ++
    (b1 s.sc.record.label.length ++ s.sc.record.label) ++ (limitsFigures s ++ b1 (limitsCode s.sc))

/-- The Insulation group; without a last result its figures are 0 and its class NONE (log entry 21). -/
def statusInsulation (s : State) : List Byte :=
  b1 s.im.level.code ++ bFlag s.im.runRequested ++ bFlag s.im.running ++ b1 s.im.meas.code ++
    match s.im.last with
    | some r => be 4 r.number ++ bFlag r.valid ++ b1 r.cls.code
    | none => be 4 0 ++ bFlag false ++ b1 Class.noClass.code

/-- The Heater group: both states, then both causes (DESIGN CHOICE, log entry 40). -/
def statusHeater (s : State) : List Byte :=
  b1 s.hc.e1.state.code ++ b1 s.hc.e2.state.code ++ b1 s.hc.e1.cause.code ++ b1 s.hc.e2.cause.code ++ b1 s.hc.leg.code ++
    bFlag s.hc.mode ++ beSigned 2 s.hc.target ++ bFlag s.hc.thermostat ++ bFlag s.hc.sensor ++ be 2 s.hc.demand ++
    be 2 s.hc.hOn

/-- The Power group. -/
def statusPower (s : State) : List Byte :=
  be 2 s.pc.pCmd ++ be 2 s.pc.aH ++ b1 s.pc.derate.code ++ bFlag s.pc.exhausted

/-- The Billing group: status and generation of STATION, then of FLEET (DESIGN CHOICE, log entry 40). -/
def statusBilling (s : State) : List Byte :=
  bFlag s.ct.valid ++ be 2 s.ct.day ++ be 4 s.ct.sec ++ be 2 (indexFigure s) ++ be 2 s.ct.price ++
    b1 s.ct.station.status.code ++ be 2 s.ct.station.generation ++ b1 s.ct.fleet.status.code ++
    be 2 s.ct.fleet.generation ++ bFlag s.ct.held.isSome

/-- The reply body of STATUS_GET, in the order of R187's table (R194). -/
def statusBody (p : Port) (s : State) : List Byte :=
  statusSession s ++ statusInsulation s ++ statusHeater s ++ statusPower s ++ statusBilling s ++
    b1 (s.ports.get p).errors.sum

/-- A figure of the body is a free value (log entries 9 and 10). -/
def statusDraws (s : State) : Bool := s.ct.interval.isNone || s.sc.limits.isNone

/-- STATUS_GET taken (R187). -/
def answerStatus (p : Port) (s : State) : Answer := ⟨if statusDraws s then s.draw else s, .ok, statusBody p s⟩

/-- STATUS_GET (R187). -/
def execStatusGet (p : Port) (b : List Byte) (s : State) : Host.Outcome State Fault Refusal :=
  .next (request p .statusGet b (answerStatus p) s)

/-! ## Configuration (R185, R186) -/

/-- CONFIG_GET taken (R186). -/
def answerConfigGet (b : List Byte) (s : State) : Answer :=
  match itemOf (u8 b 0) with
  | none => refuse .invalid s
  | some k =>
    ⟨s, .ok, b1 (u8 b 0) ++ be 2 (s.cfg.get k) ++ be 2 k.range.1 ++ be 2 k.range.2 ++ be 2 (Items.get .reset k) ++
      b1 (portCode k.owner)⟩

/-- CONFIG_GET (R186). -/
def execConfigGet (p : Port) (b : List Byte) (s : State) : Host.Outcome State Fault Refusal :=
  .next (request p .configGet b (answerConfigGet b) s)

/-- The value stored for a value sent: the item's range, then the further clamps of INS_FAULT_OPV and of the derate
thresholds (R185). -/
def clampItem (i : Items) (k : Item) (x : Nat) : Nat :=
  let v := clampNat k.range.1 k.range.2 x
  match k with
  | .insFaultOpv => if i.insWarnOpv ≤ v then i.insWarnOpv - 10 else v
  | .derateTWarm => min v (i.derateTHot - 10)
  | .derateTHot => max (i.derateTWarm + 10) (min v (i.derateTTrip - 10))
  | .derateTTrip => max v (i.derateTHot + 10)
  | .insPeriodS | .insWarnOpv | .insSettleTol | .resE1 | .resE2 | .heatBand | .heatIdleS | .obcPmax | .obcEff | .rampStep
  | .closeRampStep | .derateWindowS | .allowWarm | .allowHot | .billIntervalMin | .pulseWhInt | .pulseWhEighths
  | .snapPeriodS | .markBilling | .markInsulation | .markEvents | .markReadings => v

/-- The pulse constant set: accumulator and counts to 0 (R122). -/
def EnergyAccount.zeroPulses (a : EnergyAccount) : EnergyAccount := { a with acc := 0, pulses := 0, lost := 0 }

/-- A changed HEAT_IDLE_S against the running idle timer (R68): reached, it acts at once; not reached, the timer runs on and an
idle disconnect that was waiting is dropped (DESIGN CHOICE, log entry 36). -/
def idleChanged (s : State) : State :=
  if s.hc.idleReached s.cfg.heatIdleS then idleLimit s else s.onHc fun h => { h with idleDeferred := false }

/-- What the storing of an item brings at once (R185, R186): R44, R68, R122, R161, R174. -/
def itemEffect (k : Item) (changed : Bool) (s : State) : State :=
  match k with
  | .obcPmax | .obcEff => if changed then limitUpdate s else s
  | .heatIdleS => if changed then idleChanged s else s
  | .pulseWhInt | .pulseWhEighths => s.onEa EnergyAccount.zeroPulses
  | .snapPeriodS => s.onSe fun e => { e with periodic := 0 }
  | .markBilling | .markInsulation | .markEvents | .markReadings => refreshStream s
  | .insPeriodS | .insWarnOpv | .insFaultOpv | .insSettleTol | .resE1 | .resE2 | .heatBand | .rampStep | .closeRampStep
  | .derateTWarm | .derateTHot | .derateTTrip | .derateWindowS | .allowWarm | .allowHot | .billIntervalMin => s

/-- A value stored in an item, with its effect (R185). -/
def storeItem (k : Item) (v : Nat) (s : State) : State :=
  itemEffect k (decide (s.cfg.get k ≠ v)) (s.onCfg fun i => i.put k v)

/-- CONFIG_SET taken (R185). -/
def answerConfigSet (p : Port) (b : List Byte) (s : State) : Answer :=
  match itemOf (u8 b 0) with
  | none => refuse .invalid s
  | some k =>
    if p ≠ k.owner then refuse .permission s
    else
      let v := clampItem s.cfg k (u16 b 1)
      ⟨storeItem k v s, if v = u16 b 1 then .ok else .clamped, b1 (u8 b 0) ++ be 2 (s.cfg.get k) ++ be 2 v⟩

/-- CONFIG_SET (R185). -/
def execConfigSet (p : Port) (b : List Byte) (s : State) : Host.Outcome State Fault Refusal :=
  .next (request p .configSet b (answerConfigSet p b) s)

/-! ## Notices (R184) -/

/-- NOTICE_GET taken (R184). -/
def answerNotices (p : Port) (s : State) : Answer :=
  let u := s.ports.get p
  ⟨s, .ok, bFlags u.flags ++ bFlags u.mask ++ b1 u.alarm.sum⟩

/-- NOTICE_GET (R184). -/
def execNoticeGet (p : Port) (b : List Byte) (s : State) : Host.Outcome State Fault Refusal :=
  .next (request p .noticeGet b (answerNotices p) s)

/-- The flag set a body carries (R184). -/
def flagsOf (b : List Byte) : BitVec 12 := BitVec.ofNat 12 (u16 b 0)

/-- The set names a code above 11 (R184). -/
def flagsBad (b : List Byte) : Bool := 4095 < u16 b 0

/-- The named flags cleared, STREAM left to its condition; naming ALARM empties the alarm set (R158, R184). -/
def PortUnit.clearFlags (f : BitVec 12) (u : PortUnit) : PortUnit :=
  { u with
    flags := u.flags &&& ~~~ writeFlag .stream false f
    alarm := if flagSet .alarm f then ⟨false, false, false, false⟩ else u.alarm }

/-- NOTICE_CLEAR taken (R184). -/
def answerClear (p : Port) (b : List Byte) (s : State) : Answer :=
  if flagsBad b then refuse .invalid s
  else
    let s := s.onPort p (PortUnit.clearFlags (flagsOf b))
    ⟨s, .ok, bFlags (s.ports.get p).flags⟩

/-- NOTICE_CLEAR (R184). -/
def execNoticeClear (p : Port) (b : List Byte) (s : State) : Host.Outcome State Fault Refusal :=
  .next (request p .noticeClear b (answerClear p b) s)

/-- NOTICE_ENABLE taken (R184). -/
def answerEnable (p : Port) (b : List Byte) (s : State) : Answer :=
  if flagsBad b then refuse .invalid s
  else ⟨s.onPort p fun u => { u with mask := flagsOf b }, .ok, bFlags (flagsOf b) ++ bFlags (s.ports.get p).flags⟩

/-- NOTICE_ENABLE (R184). -/
def execNoticeEnable (p : Port) (b : List Byte) (s : State) : Host.Outcome State Fault Refusal :=
  .next (request p .noticeEnable b (answerEnable p b) s)

/-! ## ERR_CLEAR (R182) -/

/-- ERR_CLEAR taken (R182). -/
def answerErrors (p : Port) (s : State) : Answer :=
  ⟨s.onPort p fun u => { u with errors := ⟨false, false, false⟩ }, .ok, b1 (s.ports.get p).errors.sum⟩

/-- ERR_CLEAR (R182). -/
def execErrClear (p : Port) (b : List Byte) (s : State) : Host.Outcome State Fault Refusal :=
  .next (request p .errClear b (answerErrors p) s)

end Sys2Proof.Machine
end

