-- ==== Sys2Proof/Machine/RecordStore.lean ====
section
/-! DEFINITION. The commands of the record store: the plan requests AREA_SET, AREA_CLEAR, JOIN, UNJOIN and the consumer
requests STREAM_READ, STREAM_ACK (chapter 8). -/

namespace Sys2Proof.Machine

/-! ## The plan (R149 to R151, R153, R154) -/

/-- The refusal of AREA_SET, the first condition of R150 that holds. -/
def areaSetRefusal (i : Nat) (a : Area) (r : Store) : Option Status :=
  if 5 < i then some .invalid
  else if r.joined i then some .busy
  else if a.count < 4 ∨ 256 < a.count ∨ 255 < a.first + a.count - 1 then some .invalid
  else if r.overlaps i a then some .overlap
  else none

/-- AREA_SET taken (R150). -/
def answerAreaSet (b : List Byte) (s : State) : Answer :=
  let a : Area := ⟨u8 b 1, u16 b 2⟩
  match areaSetRefusal (u8 b 0) a s.rs with
  | some x => planReply x [] s
  | none => planReply .ok [] (s.onRs fun r => r.putArea (u8 b 0) (some a))

/-- AREA_SET (R150). -/
def execAreaSet (p : Port) (b : List Byte) (s : State) : Host.Outcome State Fault Refusal :=
  .next (request p .areaSet b (answerAreaSet b) s)

/-- AREA_CLEAR taken (R151). -/
def answerAreaClear (b : List Byte) (s : State) : Answer :=
  if 5 < u8 b 0 then planReply .invalid [] s
  else if s.rs.joined (u8 b 0) then planReply .busy [] s
  else planReply .ok [] (s.onRs fun r => r.putArea (u8 b 0) none)

/-- AREA_CLEAR (R151). -/
def execAreaClear (p : Port) (b : List Byte) (s : State) : Host.Outcome State Fault Refusal :=
  .next (request p .areaClear b (answerAreaClear b) s)

/-- The definition of an area, if it has one. -/
def Store.defined (r : Store) (i : Nat) : Option Area :=
  match r.areas[i]? with
  | some a => a
  | none => none

/-- The stream is joined to area `i` with an empty queue and a consumer port (R153); BILLING so gains room (R142). -/
def joinStream (st : Stream) (i : Nat) (a : Area) (consumer : Port) (s : State) : State :=
  let s := refreshStream (s.onRs fun r =>
    r.putStream st { r.stream st with join := some ⟨i, consumer, a.first, 0⟩ })
  if st = .billing then billingGainsRoom s else s

/-- JOIN taken, its conditions in the order of R153. -/
def answerJoin (b : List Byte) (s : State) : Answer :=
  match streamOf (u8 b 0), portOf (u8 b 2), s.rs.defined (u8 b 1) with
  | some st, some consumer, some a =>
    if (s.rs.stream st).join.isSome then planReply .busy [] s
    else if s.rs.joined (u8 b 1) then planReply .busy [] s
    else planReply .ok [] (joinStream st (u8 b 1) a consumer s)
  | _, _, _ => planReply .invalid [] s

/-- JOIN (R153). -/
def execJoin (p : Port) (b : List Byte) (s : State) : Host.Outcome State Fault Refusal :=
  .next (request p .joinStream b (answerJoin b) s)

/-- The stream is released: its records discarded into the lost count, its join gone (R154). -/
def unjoinStream (st : Stream) (j : Join) (s : State) : State :=
  refreshStream (s.onRs fun r =>
    { r.putStream st { r.stream st with join := none, lost := satAdd max32 (r.stream st).lost j.count } with
      slots := slotClearAll r.slots (ringSlots (r.area j.area) j.head j.count) })

/-- BILLING is locked: a session is open or the hold slot is occupied (R154). -/
def billingLocked (s : State) : Bool := s.sc.state.isOpen || s.ct.held.isSome

/-- UNJOIN taken, its conditions in the order of R154. -/
def answerUnjoin (b : List Byte) (s : State) : Answer :=
  match streamOf (u8 b 0) with
  | none => planReply .invalid [] s
  | some st =>
    match (s.rs.stream st).join with
    | none => planReply .notJoined [] s
    | some j =>
      if st = .billing ∧ billingLocked s = true then planReply .locked [] s
      else if 0 < j.count ∧ flag b 1 = false then planReply .notEmpty [] s
      else planReply .ok (be 2 j.count) (unjoinStream st j s)

/-- UNJOIN (R154). -/
def execUnjoin (p : Port) (b : List Byte) (s : State) : Host.Outcome State Fault Refusal :=
  .next (request p .unjoin b (answerUnjoin b) s)

/-! ## The consumer requests (R157 to R160) -/

/-- Add a stream to an alarm set (R158). -/
def AlarmSet.add (a : AlarmSet) : Stream → AlarmSet
  | .billing => { a with billing := true }
  | .insulation => { a with insulation := true }
  | .events => { a with events := true }
  | .readings => { a with readings := true }

/-- A NOT_JOINED refusal: ALARM and the alarm set of the requesting port, with the stream's two counts (R157, R158). -/
def notJoined (p : Port) (st : Stream) (s : State) : Answer :=
  ⟨raiseAt p .alarm (s.onPort p fun u => { u with alarm := u.alarm.add st }), .notJoined, streamFigures st s⟩

/-- The conditions of R157, then what the consumer's request does to the joined stream. -/
def consume (p : Port) (code : Nat) (act : Stream → Join → State → Answer) (s : State) : Answer :=
  match streamOf code with
  | none => refuse .invalid s
  | some st =>
    match (s.rs.stream st).join with
    | none => notJoined p st s
    | some j => if j.port = p then act st j s else ⟨s, .notConsumer, b1 (portCode j.port)⟩

/-- STREAM_READ of a joined stream (R159). -/
def readStream (k : Nat) (st : Stream) (j : Join) (s : State) : Answer :=
  match recordAt j k s.rs with
  | some r => ⟨s, .ok, r.wire ++ streamFigures st s⟩
  | none => ⟨s, .empty, streamFigures st s⟩

/-- STREAM_READ (R157, R159). -/
def execStreamRead (p : Port) (b : List Byte) (s : State) : Host.Outcome State Fault Refusal :=
  .next (request p .streamRead b (consume p (u8 b 0) (readStream (u8 b 1))) s)

/-- STREAM_ACK of a joined stream (R160): the oldest records leave, and BILLING so gains room (R142). -/
def ackStream (n : Nat) (st : Stream) (j : Join) (s : State) : Answer :=
  let s := takeOldest st j n s
  let s := if st = .billing ∧ 0 < min n j.count then billingGainsRoom s else s
  ⟨s, .ok, be 2 (min n j.count) ++ streamFigures st s⟩

/-- STREAM_ACK (R157, R160). -/
def execStreamAck (p : Port) (b : List Byte) (s : State) : Host.Outcome State Fault Refusal :=
  .next (request p .streamAck b (consume p (u8 b 0) (ackStream (u16 b 1))) s)

end Sys2Proof.Machine
end

