-- ==== Sys2Proof/Machine/Resets.lean ====
section
/-! DEFINITION. COLD_RESET, RESET_N_FALL and RESET_N_RISE: the values of every block after each reset, and the ABORTED close
at the end of a warm reset (R1, R13, R36, R37, R55, R77, R107, R123, R125, R130, R145, R147, R164, R176, R188). -/

namespace Sys2Proof.Machine

/-! ## COLD -/

/-- Every block at its COLD values (R13, R37, R55, R77, R107, R125, R147, R163, R164, R176, R188). RESET_N is
high after it, whatever its level before: no rule gives that level (DESIGN CHOICE, log entry 17). The count of free values goes
on, and the waiting commands stay. -/
def coldReset (s : State) : State := { State.reset with free := s.free, pending := s.pending }

/-- COLD_RESET (R13). -/
def execColdReset (s : State) : Host.Outcome State Fault Refusal := .next (coldReset s)

/-! ## RESET_N falls -/

/-- The pending count moves to the lost count as far as that can take it (R123). -/
def EnergyAccount.losePulses (a : EnergyAccount) : EnergyAccount :=
  let k := min a.pulses (max32 - a.lost)
  { a with pulses := a.pulses - k, lost := a.lost + k, pulse := .ready, pulseMs := 0 }

/-- RESET_N goes low: the window, the exchanges and a composition in progress are discarded, the switches open and the chassis
sampler stops, and the pending pulses move (R1, R12, R123, R176, R178; log entry 24). -/
def resetFalls (s : State) : State :=
  if s.resetLow then s
  else
    { s with
      resetLow := true
      fe := { s.fe with windowMs := 0, insA := false, insB := false, chassisMs := 0, chassisIndex := 0 }
      ea := s.ea.losePulses
      se := { s.se with service := none, justServed := [] }
      ports := s.ports.map PortUnit.newExchange }

/-- RESET_N_FALL (R1). -/
def execResetNFall (s : State) : Host.Outcome State Fault Refusal := .next (resetFalls s)

/-! ## RESET_N rises -/

/-- The session controller after WARM, before the ABORTED close (R36, R37). -/
def Session.warm (c : Session) : Session :=
  { Session.reset with
    state := if c.state = .lockedOut then .lockedOut else .unplugged
    record := { c.record with pause := false, closeReason := if c.state.isOpen then .aborted else c.record.closeReason }
    lockout := if c.state = .lockedOut then c.lockout else .empty
    finalPending := c.finalPending }

/-- An element after WARM (R77). -/
def Element.warm (e : Element) : Element :=
  if e.state = .disabled then { Element.reset with state := .disabled, cause := e.cause } else .reset

/-- The heater controller after WARM (R77). -/
def Heater.warm (h : Heater) : Heater :=
  { Heater.reset with
    e1 := h.e1.warm
    e2 := h.e2.warm
    leg := if h.leg = .isolated then .isolated else .disconnected }

/-- The insulation monitor after WARM (R107). -/
def Insulation.warm (m : Insulation) : Insulation :=
  { Insulation.reset with
    counter := m.counter
    faults := m.faults
    entrySeq := m.entrySeq
    overflow := m.overflow
    overflowCount := m.overflowCount }

/-- The snapshot engine after WARM (R176). -/
def SnapshotEngine.warm (e : SnapshotEngine) : SnapshotEngine :=
  { SnapshotEngine.reset with vectors := e.vectors, descs := e.descs }

/-- Every block at its WARM values. The energy account, the clock and tariff unit, the record store and the items are
retained, but for the accruing condition, which the ABORTED close ends at this event (R111, R125, R147, R164, R186). -/
def warmValues (s : State) : State :=
  { s with
    resetLow := false
    fe := .reset
    sc := s.sc.warm
    pc := .reset
    hc := s.hc.warm
    im := s.im.warm
    ea := { s.ea with accruing := false, pulse := .ready, pulseMs := 0 }
    se := s.se.warm
    ports := .reset }

/-- The close at the end of a warm reset (R36, R145): an interval in progress is closed ABORTED, else a pending final record
gains the flag. -/
def abortedClose (s : State) : State :=
  if s.ct.interval.isSome then answerClose (finalClose .aborted false s)
  else markFinal (fun r => { r with aborted := true }) s

/-- The end of the warm reset: the values, the close, the staged tables that wait no longer (R129, R130), the STREAM flags
by their conditions (R164, R188), and the next pulse if any is left (R122, R123). -/
def resetRises (s : State) : State :=
  if s.resetLow then
    let s := abortedClose (warmValues s)
    (refreshStream (applyStaged .fleet (applyStaged .station s))).onEa EnergyAccount.takePulse
  else s

/-- RESET_N_RISE (R36). -/
def execResetNRise (s : State) : Host.Outcome State Fault Refusal := .next (resetRises s)

end Sys2Proof.Machine
end

