-- ==== Sys2Proof/Machine/Session.lean ====
section
/-! DEFINITION. The commands of the session controller: its takings of a sample set, its timers and its requests
(chapter 2). -/

namespace Sys2Proof.Machine

/-! ## Takings and timers -/

/-- The session controller has taken the latest set. -/
def FrontEnd.scTook (f : FrontEnd) : FrontEnd := { f with dueSc := false }

/-- The session controller's taking of the latest set (R24). -/
def scSample (s : State) : State := taking s.fe.dueSc (fun x s => scTake x (s.onFe FrontEnd.scTook)) s

/-- SC_SAMPLE_TAKING (R14, R15, R22, R24). -/
def execScSampleTaking (s : State) : Host.Outcome State Fault Refusal := .next (scSample s)

/-- PLUG_DEBOUNCE_CHANGE (R14, R15): the taking at which the debounce count reaches 3 (log entry 4). -/
def execPlugDebounceChange (s : State) : Host.Outcome State Fault Refusal :=
  .next (if s.fe.latest.any fun x => debounceChanges x.plug s.sc then scSample s else s)

/-- The LIMITS_STALE hold reason as the record's validity gives it, while a session is open (R24). -/
def setStale (b : Bool) (s : State) : State :=
  s.onSc fun c => if c.state.isOpen then { c with hold := { c.hold with limitsStale := b } } else c

/-- The record becomes stale (R18, R43). -/
def limitsExpire (s : State) : State :=
  recomputeNow (holdMove (setStale true (raiseAll .limitsStale (s.onSc fun c => { c with validity := none }))))

/-- LIMITS_VALIDITY_EXPIRY (R18). -/
def execLimitsValidityExpiry (s : State) : Host.Outcome State Fault Refusal :=
  .next (atEnd s.sc.validity limitsExpire s)

/-- VERIFICATION_TIMER_EXPIRY (R23): the timer runs only in VERIFYING. -/
def execVerificationTimerExpiry (s : State) : Host.Outcome State Fault Refusal :=
  .next (atEnd (if s.sc.state = .verifying then s.sc.verify else none) (enterClosing .verifyTimeout) s)

/-! ## LIMITS (R17) -/

/-- The record a LIMITS body gives, each field clamped (R17). -/
def limitsOf (b : List Byte) : LimitsRecord :=
  ⟨clampNat 0 5000 (u16 b 0), clampNat 0 6500 (u16 b 2), clampInt (-300) 450 (s16 b 4), clampNat 0 10000 (u16 b 6)⟩

/-- A field was clamped (R17). -/
def limitsClamped (b : List Byte) : Bool :=
  decide (limitsOf b ≠ ⟨u16 b 0, u16 b 2, s16 b 4, u16 b 6⟩)

/-- LIMITS taken (R17): stored and valid for 2000 ms, LIMITS_CHANGED, the hold reason removed, the allowance recomputed. -/
def storeLimits (l : LimitsRecord) (s : State) : State :=
  let s1 := s.onSc fun c => { c with limits := some l, validity := some 2000 }
  let s2 := if s.sc.limits = some l then s1 else occur .limitsChanged s1
  recomputeNow (holdMove (setStale false s2))

/-- LIMITS (R17). -/
def execLimits (p : Port) (b : List Byte) (s : State) : Host.Outcome State Fault Refusal :=
  .next (request p .limits b (fun s => accept (limitsClamped b) (storeLimits (limitsOf b) s)) s)

/-! ## SESSION_OPEN (R19, R20) -/

/-- The largest offer (R16). -/
def offerTop : Nat := 22000

/-- SESSION_OPEN taken (R19, R20). -/
def answerOpen (b : List Byte) (s : State) : Answer :=
  match openRefusal (u8 b 0) s with
  | some x => refuse x s
  | none =>
    accept (offerTop < u32 b 1)
      (priorityRequest (openSession ((payerOf (u8 b 0)).getD .station) (min offerTop (u32 b 1)) (b.drop 6) s))

/-- SESSION_OPEN (R19, R20). -/
def execSessionOpen (p : Port) (b : List Byte) (s : State) : Host.Outcome State Fault Refusal :=
  .next (request p .sessionOpen b (answerOpen b) s)

/-! ## OFFER_UPDATE, STATION_PAUSE, SESSION_CLOSE (R25 to R27) -/

/-- A new offer written (R26) and the limit update it is (R44). -/
def writeOffer (x : Nat) (s : State) : State :=
  let s1 := s.onSc fun c => { c with record := { c.record with offer := x } }
  limitUpdate (if s.sc.record.offer = x then s1 else occur .offerChanged s1)

/-- OFFER_UPDATE taken (R26). -/
def answerOffer (b : List Byte) (s : State) : Answer :=
  if s.sc.state.isOpen then accept (offerTop < u32 b 0) (writeOffer (min offerTop (u32 b 0)) s) else refuse .state s

/-- OFFER_UPDATE (R26, R44). -/
def execOfferUpdate (p : Port) (b : List Byte) (s : State) : Host.Outcome State Fault Refusal :=
  .next (request p .offerUpdate b (answerOffer b) s)

/-- The pause flag written and its hold reason with it (R24, R25). -/
def writePause (x : Bool) (s : State) : State :=
  if s.sc.record.pause = x then s
  else
    holdMove (s.onSc fun c =>
      { c with record := { c.record with pause := x }, hold := { c.hold with stationPause := x } })

/-- STATION_PAUSE taken (R25). -/
def answerPause (b : List Byte) (s : State) : Answer :=
  if s.sc.state.isOpen then accept false (writePause (flag b 0) s) else refuse .state s

/-- STATION_PAUSE (R25). -/
def execStationPause (p : Port) (b : List Byte) (s : State) : Host.Outcome State Fault Refusal :=
  .next (request p .stationPause b (answerPause b) s)

/-- SESSION_CLOSE taken (R27). In a state without an open session it is refused, but answered OK with no effect where it falls
together with the plug loss that closed the session, taken first (R27; log entry 43). -/
def answerSessionClose (s : State) : Answer :=
  match s.sc.state with
  | .verifying | .preheat | .charging | .hold => accept false (enterClosing .requested s)
  | .closing => accept false s
  | .unplugged | .connected | .lockedOut => if s.sc.lossNow then accept false s else refuse .state s

/-- SESSION_CLOSE (R27). -/
def execSessionClose (p : Port) (b : List Byte) (s : State) : Host.Outcome State Fault Refusal :=
  .next (request p .sessionClose b answerSessionClose s)

/-! ## LOCKOUT_RELEASE (R33) -/

/-- The TEMPERATURE condition (R33). -/
def releaseTooHot (s : State) : Bool :=
  match s.fe.latest with
  | none => true
  | some x => decide (x.tObc.mark = .missing) || decide ((s.cfg.derateTTrip : Int) - 50 ≤ x.tObc.value)

/-- The blocking conditions that hold in LOCKED_OUT: LEVEL, FAULT_ENTRY, TEMPERATURE, FINAL_PENDING (R33). -/
def releaseBlocks (s : State) : List Bool :=
  [!s.im.level.sound, s.im.faults.any fun e => e.kind = .fault, releaseTooHot s, s.sc.finalPending]

/-- The release (R33). -/
def releaseLockout (s : State) : State :=
  setState (restingState s.sc) (s.onSc fun c => { c with lockout := .empty })

/-- LOCKOUT_RELEASE taken (R33). The blocking conditions are a set in the order of R33's table. -/
def answerRelease (s : State) : Answer :=
  if s.sc.state ≠ .lockedOut then ⟨s, .state, b1 (setSum [true])⟩
  else if (releaseBlocks s).any id then ⟨s, .state, b1 (setSum (false :: releaseBlocks s))⟩
  else accept false (releaseLockout s)

/-- LOCKOUT_RELEASE (R33). -/
def execLockoutRelease (p : Port) (b : List Byte) (s : State) : Host.Outcome State Fault Refusal :=
  .next (request p .lockoutRelease b answerRelease s)

end Sys2Proof.Machine
end

