-- ==== Sys2Proof/Machine/Snapshot.lean ====
section
/-! DEFINITION. The commands of the snapshot engine: SNAPSHOT_SELECTION, COMPOSITION_COMPLETE, DESC_SET, VECTOR_SET and
SNAPSHOT_NOW (chapter 9). -/

namespace Sys2Proof.Machine

/-! ## Tables -/

/-- Descriptor `i`; the last one where `i` is out of range, which the checks of R168 and R169 keep out. -/
def SnapshotEngine.desc (e : SnapshotEngine) (i : Nat) : Descriptor := e.descs.get (Fin.ofNat 16 (min i 15))

/-- Replace descriptor `i`. -/
def SnapshotEngine.putDesc (i : Nat) (d : Descriptor) (e : SnapshotEngine) : SnapshotEngine :=
  { e with descs := vput e.descs (Fin.ofNat 16 (min i 15)) d }

/-- NORMAL mode with count 0 (R168, R169, R171). -/
def Descriptor.spent (d : Descriptor) : Bool := !d.repeating && d.count == 0

/-- The sources, in the order of their numbers. -/
def sourceList : List (Fin 12) := [0, 1, 2, 3, 4, 5, 6, 7, 8, 9, 10, 11]

/-- A source is disabled and its pending member withdrawn (R167). -/
def SnapshotEngine.disable (k : Fin 12) (e : SnapshotEngine) : SnapshotEngine :=
  { e with
    vectors := vput e.vectors k { e.vectors.get k with enabled := false }
    waiting := vput e.waiting k none }

/-- Each source of a list that satisfies `f` is disabled. -/
def SnapshotEngine.disableWhere (f : Fin 12 → Bool) : List (Fin 12) → SnapshotEngine → SnapshotEngine
  | [], e => e
  | k :: ks, e => SnapshotEngine.disableWhere f ks (if f k then e.disable k else e)

/-- The source's first descriptor index names descriptor `i`. -/
def SnapshotEngine.names (e : SnapshotEngine) (i : Nat) (k : Fin 12) : Bool := (e.vectors.get k).first == i

/-! ## Service (R170 to R173) -/

/-- The chain from descriptor `i` on, at most `n` descriptors after it (R170). -/
def chainFrom (e : SnapshotEngine) : Nat → Nat → List Nat
  | 0, i => [i]
  | n + 1, i => if (e.desc i).chain then i :: chainFrom e n (i + 1) else [i]

/-- The chain a source fixes at its selection (R170). -/
def chainOf (e : SnapshotEngine) (first : Nat) : List Nat := chainFrom e (15 - first) first

/-- The count a use leaves (R173). -/
def Descriptor.countAfter (d : Descriptor) : Nat :=
  if 1 < d.count then d.count - 1 else if d.repeating then d.reload else 0

/-- The record of a composition, its figures read at this instant (R171, R172). -/
def compose (src : Fin 12) (m : Member) (i : Nat) (s : State) : CapturedRecord :=
  let d := s.se.desc i
  { source := src.val
    port := m.port
    desc := i
    repeating := d.repeating
    fieldSet := d.fieldSet
    time := m.time
    seq := s.fe.latest.map (·.seq)
    missed := s.se.missed.get src
    countAfter := d.countAfter
    body := fieldBody d.fieldSet s }

/-- The composition of descriptor `i` begins: 2 ms to its completion (R171). -/
def beginComposition (src : Fin 12) (m : Member) (chain : List Nat) (i : Nat) (rest : List Nat) (s : State) : State :=
  let r := compose src m i s
  let s1 := if fieldDraws r.fieldSet s then s.draw else s
  s1.onSe fun e => { e with service := some ⟨src.val, m, chain, rest, r, 2⟩ }

/-- The next descriptor of the chain comes up; exhausted ones are passed over, and after the last the engine is IDLE (R170,
R171). -/
def comeUp (src : Fin 12) (m : Member) (chain : List Nat) : List Nat → State → State
  | [], s => s.onSe fun e => { e with service := none }
  | i :: rest, s => if (s.se.desc i).spent then comeUp src m chain rest s else beginComposition src m chain i rest s

/-- The lowest-numbered pending source (R170). -/
def nextSource (e : SnapshotEngine) : Option (Fin 12) := sourceList.find? fun k => (e.waiting.get k).isSome

/-- The selection (R170): the member leaves the pending set, the chain is fixed, its first descriptor comes up. -/
def select (s : State) : State :=
  match s.se.service, nextSource s.se with
  | none, some k =>
    match s.se.waiting.get k with
    | none => s
    | some m =>
      let chain := chainOf s.se (s.se.vectors.get k).first
      comeUp k m chain chain (s.onSe fun e => { e with waiting := vput e.waiting k none })
  | _, _ => s

/-- SNAPSHOT_SELECTION (R170). -/
def execSnapshotSelection (s : State) : Host.Outcome State Fault Refusal := .next (event select s)

/-- The counting of a use of descriptor `i` by source `src` (R173). -/
def countUse (src : Fin 12) (i : Nat) (s : State) : State :=
  let d := s.se.desc i
  let s1 := s.onSe (SnapshotEngine.putDesc i { d with count := d.countAfter })
  if 1 < d.count then s1
  else if d.repeating then (if d.notify then raiseAll .capture s1 else s1)
  else raiseAll .capture (s1.onSe fun e => e.disableWhere (fun k => k == src || e.names i k) sourceList)

/-- The stream a descriptor names (R169). -/
def Descriptor.stream (d : Descriptor) : Stream := if d.toReadings then .readings else .events

/-- The completion of the composition in hand (R171, R173): offer, counting, the chain goes on or ends. At this instant the
chain is still under service for a DESC_SET, its last completion taken first or not (R173; log entry 39). -/
def complete (s : State) : State :=
  match s.se.service with
  | none => s
  | some v =>
    let src := Fin.ofNat 12 v.source
    let s1 := offer (s.se.desc v.record.desc).stream (.captured v.record) s
    let s2 := (countUse src v.record.desc s1).onSe fun e => { e with justServed := v.chain }
    comeUp src v.member v.chain v.rest s2

/-- COMPOSITION_COMPLETE (R171, R173). -/
def execCompositionComplete (s : State) : Host.Outcome State Fault Refusal :=
  .next (atEnd (s.se.service.map (·.left)) complete s)

/-! ## DESC_SET (R169) -/

/-- The descriptor a DESC_SET body gives, its reload clamped (R169, R190). -/
def descOf (b : List Byte) : Option Descriptor :=
  match fieldSetOf (u8 b 2) with
  | none => none
  | some f =>
    if 15 < u8 b 0 ∨ 1 < u8 b 1 ∨ u8 b 3 < 2 ∨ 3 < u8 b 3 then none
    else some
      { repeating := u8 b 1 = 1
        fieldSet := f
        toReadings := u8 b 3 = 3
        count := u16 b 4
        reload := max 1 (u16 b 6)
        chain := u8 b 8 % 2 = 1
        notify := u8 b 8 / 2 % 2 = 1 }

/-- The descriptor belongs to the chain under service (R170), or to the one whose completion falls together with this
request (R173; log entry 39). -/
def inService (i : Nat) (e : SnapshotEngine) : Bool := (e.service.any fun v => v.chain.contains i) || e.justServed.contains i

/-- A descriptor as it stands (R169, R194). -/
def descWire (d : Descriptor) : List Byte :=
  bFlag d.repeating ++ b1 d.fieldSet.code ++ b1 d.stream.code ++ be 2 d.count ++ be 2 d.reload ++ bFlag d.chain ++
    bFlag d.notify

/-- The sources a DESC_SET disables: enabled ones whose first descriptor is left spent (R169; log entry 34). -/
def disabledBy (i : Nat) (d : Descriptor) (e : SnapshotEngine) (k : Fin 12) : Bool :=
  d.spent && e.names i k && (e.vectors.get k).enabled

/-- A descriptor replaced, its sources disabled where it is left spent (R169). -/
def writeDesc (i : Nat) (d : Descriptor) (s : State) : State :=
  s.onSe fun e => (e.putDesc i d).disableWhere (disabledBy i d e) sourceList

/-- DESC_SET taken (R169). -/
def answerDesc (b : List Byte) (s : State) : Answer :=
  match descOf b with
  | none => refuse .invalid s
  | some d =>
    if inService (u8 b 0) s.se then refuse .busy s
    else
      ⟨writeDesc (u8 b 0) d s, if u16 b 6 = 0 then .clamped else .ok,
        descWire d ++ be 2 (setSum (sourceList.map (disabledBy (u8 b 0) d s.se)))⟩

/-- DESC_SET (R169). -/
def execDescSet (p : Port) (b : List Byte) (s : State) : Host.Outcome State Fault Refusal :=
  .next (request p .descSet b (answerDesc b) s)

/-! ## VECTOR_SET (R168) -/

/-- A vector entry written, the missed count zeroed, the pending member withdrawn where the source is disabled (R167,
R168). -/
def writeVector (k : Fin 12) (on : Bool) (first : Nat) (s : State) : State :=
  s.onSe fun e =>
    { e with
      vectors := vput e.vectors k ⟨on, first⟩
      missed := vput e.missed k 0
      waiting := if on then e.waiting else vput e.waiting k none }

/-- VECTOR_SET taken (R168). -/
def answerVector (b : List Byte) (s : State) : Answer :=
  if 11 < u8 b 0 ∨ 15 < u8 b 2 then refuse .invalid s
  else if flag b 1 && (s.se.desc (u8 b 2)).spent then refuse .exhausted s
  else
    let k := Fin.ofNat 12 (u8 b 0)
    ⟨writeVector k (flag b 1) (u8 b 2) s, .ok, bFlag (flag b 1) ++ b1 (u8 b 2) ++ b1 (s.se.missed.get k)⟩

/-- VECTOR_SET (R168). -/
def execVectorSet (p : Port) (b : List Byte) (s : State) : Host.Outcome State Fault Refusal :=
  .next (request p .vectorSet b (answerVector b) s)

/-! ## SNAPSHOT_NOW (R175) -/

/-- SNAPSHOT_NOW taken (R175): one REQUEST occurrence with the sending port. -/
def answerSnapshot (p : Port) (s : State) : Answer :=
  let s1 := occurFrom (some p) .request s
  ⟨s1, .ok, b1 (occurOutcome .request s).code ++ be 2 (setSum (sourceList.map fun k => (s1.se.waiting.get k).isSome)) ++
    b1 (s1.se.missed.get Source.request.code)⟩

/-- SNAPSHOT_NOW (R175). -/
def execSnapshotNow (p : Port) (b : List Byte) (s : State) : Host.Outcome State Fault Refusal :=
  .next (request p .snapshotNow b (answerSnapshot p) s)

end Sys2Proof.Machine
end

