-- ==== Sys2Proof/Machine/Tariff.lean ====
section
/-! DEFINITION. The commands of the clock and tariff unit: the tick and the closes and expiries it brings, the internal
steps of billing, and TIME_SET, TARIFF_LOAD, TARIFF_GET (chapter 7; R174 for the periodic timer). -/

namespace Sys2Proof.Machine

/-! ## The tick (R126, R134, R135, R166, R174) -/

/-- The day clock a second later (R126). -/
def ClockTariff.second (c : ClockTariff) : ClockTariff :=
  if c.sec = 86399 then { c with sec := 0, day := (c.day + 1) % 65536 } else { c with sec := c.sec + 1 }

/-- The clock and the counts a tick advances: the session elapsed count while the session accrues (R134), the uptime counts
while RESET_N is high (R91, R166). -/
def countSecond (s : State) : State :=
  let s := s.onCt fun c =>
    { c.second with timebase := c.timebase - 1000, elapsed := if s.ea.accruing then satAdd max32 c.elapsed 1 else c.elapsed }
  if s.resetLow then s
  else
    (s.onIm fun m => { m with uptime := satAdd max32 m.uptime 1 }).onSe fun e => { e with uptime := satAdd max32 e.uptime 1 }

/-- The tick just counted begins a minute (R126). -/
def minuteTick (c : ClockTariff) : Bool := c.sec % 60 == 0

/-- The tick just counted is a BOUNDARY for the latched length `n` (R135). -/
def isBoundary (n : Nat) (c : ClockTariff) : Bool :=
  if c.valid then minuteTick c && minuteOf c.sec % n == 0 else 0 < c.elapsed && c.elapsed % (60 * n) == 0

/-- The tick just counted is a PERIOD for the active table of the payer's kind (R135). -/
def isPeriod (k : TariffKind) (c : ClockTariff) : Bool :=
  match k.active with
  | none => false
  | some t => c.valid && minuteTick c && 1 < t.length && t.any fun p => p.start == minuteOf c.sec

/-- The cause of the close a tick just counted brings (R135): PERIOD where it is both. -/
def tickCause (s : State) : Option BillingReason :=
  match s.ct.interval with
  | none => none
  | some i =>
    if isPeriod (s.ct.kind (payerNow s)) s.ct then some .period
    else if isBoundary i.latched s.ct then some .boundary
    else none

/-- The close of a tick, then the price register at a minute tick (R132, R135, R137). -/
def closeAtTick (s : State) : State :=
  let s1 :=
    match s.ct.interval, tickCause s with
    | some i, some r => tickClose r i s
    | _, _ => s
  if minuteTick s.ct then lookUpPrice s1 else s1

/-- The periodic timer reaches SNAP_PERIOD_S at the next tick (R174). -/
def periodicDue (s : State) : Bool := 0 < s.cfg.snapPeriodS && s.cfg.snapPeriodS ≤ s.se.periodic + 1

/-- The periodic timer at a tick (R174). -/
def countPeriodic (s : State) : State :=
  if periodicDue s then occur .periodic (s.onSe fun e => { e with periodic := 0 })
  else s.onSe fun e => { e with periodic := if 0 < s.cfg.snapPeriodS then e.periodic + 1 else 0 }

/-- What a tick does: the counts, and while RESET_N is high the close it brings, the price and the periodic timer (R126,
R135, R145, R174; log entry 24). The counts come first, so that an occurrence the tick raises with the clock unset carries the
uptime count after the tick: R166 does not say which (DEDUCED, log entry 44). -/
def tick (s : State) : State :=
  let s := countSecond s
  if s.resetLow then s else countPeriodic (closeAtTick s)

/-- The time left to the next tick of the 1 s timebase (R126). -/
def toNextTick (s : State) : Nat := 1000 - s.ct.timebase

/-- The next tick, with the time left to it (log entry 2). -/
def nextTick (s : State) : State := tick (elapse (toNextTick s) s)

/-- CLOCK_TICK (R126). -/
def execClockTick (s : State) : Host.Outcome State Fault Refusal := .next (nextTick s)

/-- The cause of the close the next tick brings; none while RESET_N is low (R145). -/
def nextCause (s : State) : Option BillingReason :=
  if s.resetLow then none else tickCause (countSecond (elapse (toNextTick s) s))

/-- BOUNDARY_CLOSE (R135): the tick, where its close has cause BOUNDARY (log entry 4). -/
def execBoundaryClose (s : State) : Host.Outcome State Fault Refusal :=
  .next (if nextCause s = some .boundary then nextTick s else s)

/-- PERIOD_CLOSE (R135): the tick, where its close has cause PERIOD (log entry 4). -/
def execPeriodClose (s : State) : Host.Outcome State Fault Refusal :=
  .next (if nextCause s = some .period then nextTick s else s)

/-- PERIODIC_TIMER_EXPIRY (R174): the tick at which the periodic timer reaches SNAP_PERIOD_S (log entry 4). -/
def execPeriodicTimerExpiry (s : State) : Host.Outcome State Fault Refusal :=
  .next (if periodicDue s && !s.resetLow then nextTick s else s)

/-! ## Internal steps (R129, R142; log entry 5) -/

/-- TARIFF_APPLY_AT_SESSION_END (R129): the staged table of the payer's kind, once no session is open. -/
def execTariffApplyAtSessionEnd (s : State) : Host.Outcome State Fault Refusal :=
  .next (if s.sc.state.isOpen then s else event (fun s => applyStaged (payerNow s) s) s)

/-- HELD_RECORD_APPEND (R142). -/
def execHeldRecordAppend (s : State) : Host.Outcome State Fault Refusal := .next (event appendHeld s)

/-- PENDING_FINAL_PLACED (R29, R142). -/
def execPendingFinalPlaced (s : State) : Host.Outcome State Fault Refusal := .next (event placeFinal s)

/-! ## TIME_SET (R127) -/

/-- The clock takes a day and a second, valid, its timebase restarted (R127). -/
def ClockTariff.setClock (day sec : Nat) (c : ClockTariff) : ClockTariff :=
  { c with day := day, sec := sec, valid := true, timebase := 0 }

/-- An accepted TIME_SET (R127): the CLOCK_SET close under the old clock, the clock, the price register and the next
interval. -/
def setTime (day sec : Nat) (s : State) : State :=
  match s.ct.interval with
  | none => lookUpPrice (s.onCt (ClockTariff.setClock day sec))
  | some i =>
    if placeable s then
      openInterval ((i.index + 1) % 65536) ((realClose .clockSet false i s).onCt (ClockTariff.setClock day sec))
    else lookUpPrice ((mergedClose i s).onCt (ClockTariff.setClock day sec))

/-- TIME_SET taken (R127). -/
def answerTime (b : List Byte) (s : State) : Answer :=
  if 86399 < u32 b 2 then refuse .invalid s else accept false (setTime (u16 b 0) (u32 b 2) s)

/-- TIME_SET (R127). -/
def execTimeSet (p : Port) (b : List Byte) (s : State) : Host.Outcome State Fault Refusal :=
  .next (request p .timeSet b (answerTime b) s)

/-! ## TARIFF_LOAD (R128, R129) -/

/-- `n` periods from offset `i` of a body (R190). -/
def periodsAt (b : List Byte) : Nat → Nat → List Period
  | 0, _ => []
  | n + 1, i => ⟨u16 b i, u16 b (i + 2)⟩ :: periodsAt b n (i + 4)

/-- Each start is greater than the one before it (R128). -/
def ascending : List Period → Bool
  | [] => true
  | [_] => true
  | x :: y :: ps => x.start < y.start && ascending (y :: ps)

/-- The content checks of R128. -/
def tableOk (n : Nat) (t : List Period) : Bool :=
  n == t.length && (match t.head? with
    | some x => x.start == 0
    | none => false) && t.all (fun x => x.start ≤ 1439) && ascending t

/-- The kind a port loads (R128). Port V is refused before (R180). -/
def loadKind : Port → Payer
  | .c => .station
  | .v | .t => .fleet

/-- The table waits staged: a session of that payer is open (R129). -/
def loadWaits (k : Payer) (s : State) : Bool := s.sc.state.isOpen && payerNow s == k

/-- An accepted table staged, and applied at once where no session of that payer is open (R129). -/
def loadTable (k : Payer) (t : List Period) (s : State) : State :=
  let s1 := s.onCt fun c => c.putKind k { c.kind k with staged := some t }
  if loadWaits k s then s1 else applyStaged k s1

/-- TARIFF_LOAD taken (R128). -/
def answerLoad (p : Port) (b : List Byte) (s : State) : Answer :=
  let t := periodsAt b ((b.length - 2) / 4) 2
  if tableOk (u16 b 0) t then
    ⟨loadTable (loadKind p) t s, .ok, b1 (loadKind p).code ++ bFlag (!loadWaits (loadKind p) s)⟩
  else refuse .invalid s

/-- TARIFF_LOAD (R128 to R130). -/
def execTariffLoad (p : Port) (b : List Byte) (s : State) : Host.Outcome State Fault Refusal :=
  .next (request p .tariffLoad b (answerLoad p b) s)

/-! ## TARIFF_GET (R131) -/

/-- The table a selector names: ACTIVE 0, STAGED 1 (R190). -/
def TariffKind.selected (sel : Nat) (k : TariffKind) : Option (List Period) := if sel = 0 then k.active else k.staged

/-- TARIFF_GET taken (R131). -/
def answerTariff (b : List Byte) (s : State) : Answer :=
  match payerOf (u8 b 0) with
  | none => refuse .invalid s
  | some k =>
    if 1 < u8 b 1 then refuse .invalid s
    else
      let head := b1 (s.ct.kind k).status.code ++ be 2 (s.ct.kind k).generation
      match (s.ct.kind k).selected (u8 b 1) with
      | some t => ⟨s, .ok, head ++ periodsWire t⟩
      | none => ⟨s, .empty, head⟩

/-- TARIFF_GET (R131). -/
def execTariffGet (p : Port) (b : List Byte) (s : State) : Host.Outcome State Fault Refusal :=
  .next (request p .tariffGet b (answerTariff b) s)

end Sys2Proof.Machine
end

