-- ==== Sys2Proof/Machine/Dispatch.lean ====
section
/-! DEFINITION. One arm for each command (R178 and the rule each meaning names). -/

namespace Sys2Proof.Machine

def exec (i : Instr) (s : State) : Host.Outcome State Fault Refusal :=
  match i with
  | .coldReset => Sys2Proof.Machine.execColdReset s
  | .resetNFall => Sys2Proof.Machine.execResetNFall s
  | .resetNRise => Sys2Proof.Machine.execResetNRise s
  | .sampleSetDelivery w => Sys2Proof.Machine.execSampleSetDelivery w s
  | .tempHoldExpiry w => Sys2Proof.Machine.execTempHoldExpiry w s
  | .scSampleTaking => Sys2Proof.Machine.execScSampleTaking s
  | .plugDebounceChange => Sys2Proof.Machine.execPlugDebounceChange s
  | .pcUpdate => Sys2Proof.Machine.execPcUpdate s
  | .derateWindowEnd => Sys2Proof.Machine.execDerateWindowEnd s
  | .hcSampleTaking => Sys2Proof.Machine.execHcSampleTaking s
  | .connectTimerExpiry => Sys2Proof.Machine.execConnectTimerExpiry s
  | .settleTimerExpiry => Sys2Proof.Machine.execSettleTimerExpiry s
  | .idleTimerExpiry => Sys2Proof.Machine.execIdleTimerExpiry s
  | .deferredIdleDisconnect => Sys2Proof.Machine.execDeferredIdleDisconnect s
  | .blankingTimerExpiry => Sys2Proof.Machine.execBlankingTimerExpiry s
  | .imSampleTaking => Sys2Proof.Machine.execImSampleTaking s
  | .cycleCountdownExpiry => Sys2Proof.Machine.execCycleCountdownExpiry s
  | .pendingMeasurementStart => Sys2Proof.Machine.execPendingMeasurementStart s
  | .chassisSample v => Sys2Proof.Machine.execChassisSample v s
  | .phaseTimerExpiry => Sys2Proof.Machine.execPhaseTimerExpiry s
  | .levelAgeExpiry => Sys2Proof.Machine.execLevelAgeExpiry s
  | .limitsValidityExpiry => Sys2Proof.Machine.execLimitsValidityExpiry s
  | .verificationTimerExpiry => Sys2Proof.Machine.execVerificationTimerExpiry s
  | .eaAllocation => Sys2Proof.Machine.execEaAllocation s
  | .pulseHighEnd => Sys2Proof.Machine.execPulseHighEnd s
  | .pulseLowEnd => Sys2Proof.Machine.execPulseLowEnd s
  | .clockTick => Sys2Proof.Machine.execClockTick s
  | .boundaryClose => Sys2Proof.Machine.execBoundaryClose s
  | .periodClose => Sys2Proof.Machine.execPeriodClose s
  | .tariffApplyAtSessionEnd => Sys2Proof.Machine.execTariffApplyAtSessionEnd s
  | .heldRecordAppend => Sys2Proof.Machine.execHeldRecordAppend s
  | .pendingFinalPlaced => Sys2Proof.Machine.execPendingFinalPlaced s
  | .snapshotSelection => Sys2Proof.Machine.execSnapshotSelection s
  | .compositionComplete => Sys2Proof.Machine.execCompositionComplete s
  | .periodicTimerExpiry => Sys2Proof.Machine.execPeriodicTimerExpiry s
  | .framingError p received bits => Sys2Proof.Machine.execFramingError p received bits s
  | .overlongFrame p kind len => Sys2Proof.Machine.execOverlongFrame p kind len s
  | .crcError p kind body check => Sys2Proof.Machine.execCrcError p kind body check s
  | .unknownKindRequest p kind body => Sys2Proof.Machine.execUnknownKindRequest p kind body s
  | .fetch p body => Sys2Proof.Machine.execFetch p body s
  | .replyShiftComplete p => Sys2Proof.Machine.execReplyShiftComplete p s
  | .limits p body => Sys2Proof.Machine.execLimits p body s
  | .heatRequest p body => Sys2Proof.Machine.execHeatRequest p body s
  | .insStart p body => Sys2Proof.Machine.execInsStart p body s
  | .insStop p body => Sys2Proof.Machine.execInsStop p body s
  | .faultAck p body => Sys2Proof.Machine.execFaultAck p body s
  | .lockoutRelease p body => Sys2Proof.Machine.execLockoutRelease p body s
  | .heaterRestore p body => Sys2Proof.Machine.execHeaterRestore p body s
  | .measureNow p body => Sys2Proof.Machine.execMeasureNow p body s
  | .sessionOpen p body => Sys2Proof.Machine.execSessionOpen p body s
  | .offerUpdate p body => Sys2Proof.Machine.execOfferUpdate p body s
  | .stationPause p body => Sys2Proof.Machine.execStationPause p body s
  | .sessionClose p body => Sys2Proof.Machine.execSessionClose p body s
  | .tariffLoad p body => Sys2Proof.Machine.execTariffLoad p body s
  | .statusGet p body => Sys2Proof.Machine.execStatusGet p body s
  | .readingGet p body => Sys2Proof.Machine.execReadingGet p body s
  | .faultList p body => Sys2Proof.Machine.execFaultList p body s
  | .tariffGet p body => Sys2Proof.Machine.execTariffGet p body s
  | .configGet p body => Sys2Proof.Machine.execConfigGet p body s
  | .configSet p body => Sys2Proof.Machine.execConfigSet p body s
  | .snapshotNow p body => Sys2Proof.Machine.execSnapshotNow p body s
  | .noticeGet p body => Sys2Proof.Machine.execNoticeGet p body s
  | .noticeClear p body => Sys2Proof.Machine.execNoticeClear p body s
  | .noticeEnable p body => Sys2Proof.Machine.execNoticeEnable p body s
  | .errClear p body => Sys2Proof.Machine.execErrClear p body s
  | .timeSet p body => Sys2Proof.Machine.execTimeSet p body s
  | .areaSet p body => Sys2Proof.Machine.execAreaSet p body s
  | .areaClear p body => Sys2Proof.Machine.execAreaClear p body s
  | .join p body => Sys2Proof.Machine.execJoin p body s
  | .unjoin p body => Sys2Proof.Machine.execUnjoin p body s
  | .descSet p body => Sys2Proof.Machine.execDescSet p body s
  | .vectorSet p body => Sys2Proof.Machine.execVectorSet p body s
  | .streamRead p body => Sys2Proof.Machine.execStreamRead p body s
  | .streamAck p body => Sys2Proof.Machine.execStreamAck p body s
  | .pwmPeriodStart => Sys2Proof.Machine.execPwmPeriodStart s

end Sys2Proof.Machine
end

