-- ==== Sys2Proof/Machine/Step.lean ====
section
/-! DEFINITION. The step: the command at the front of the queue, or a millisecond of waiting. -/

namespace Sys2Proof.Machine

/-- One step: `exec` on the command at the front with the queue's rest, or, on an empty queue, 1 ms passes (DESIGN CHOICE,
log entry 1). -/
def step (s : State) : Host.Outcome State Fault Refusal :=
  match s.pending with
  | c :: rest => exec c { s with pending := rest }
  | [] => .next (elapse 1 s)

/-- The command a table word spells put at the front of the queue; no word spells one (log entry 29). -/
def State.withFetchWord (s : State) (nbits w : Nat) : State :=
  match decodeTableWord nbits w with
  | some c => { s with pending := c :: s.pending }
  | none => s

end Sys2Proof.Machine
end

