-- ==== Sys2Proof/Safety.lean ====
section
/-! DEFINITION. The terms the statements use: which command is a request of which kind, the frame of an event by blocks and
by what a block's neighbours may change in it, and the invariants every step keeps. -/

namespace Sys2Proof.Machine

/-! ## The wire -/

/-- The bytes of a run of `k` bytes as a count, most significant first (R189). -/
def countOf (b : List Byte) : Nat := b.foldl (fun x y => x * 256 + y.toNat) 0

/-- A layout of `n` bytes with fields at their offsets (R191 to R193). -/
def Laid (b : List Byte) (n : Nat) (fields : List (Nat × List Byte)) : Prop :=
  b.length = n ∧ ∀ f ∈ fields, (b.drop f.1).take f.2.length = f.2

/-! ## Requests -/

/-- The port, kind and body of a request command (R180, R190); none for the other rows. -/
def asRequest : Instr → Option (Port × Kind × List Byte)
  | .fetch p b => some (p, .fetch, b)
  | .limits p b => some (p, .limits, b)
  | .heatRequest p b => some (p, .heatRequest, b)
  | .insStart p b => some (p, .insStart, b)
  | .insStop p b => some (p, .insStop, b)
  | .faultAck p b => some (p, .faultAck, b)
  | .lockoutRelease p b => some (p, .lockoutRelease, b)
  | .heaterRestore p b => some (p, .heaterRestore, b)
  | .measureNow p b => some (p, .measureNow, b)
  | .sessionOpen p b => some (p, .sessionOpen, b)
  | .offerUpdate p b => some (p, .offerUpdate, b)
  | .stationPause p b => some (p, .stationPause, b)
  | .sessionClose p b => some (p, .sessionClose, b)
  | .tariffLoad p b => some (p, .tariffLoad, b)
  | .statusGet p b => some (p, .statusGet, b)
  | .readingGet p b => some (p, .readingGet, b)
  | .faultList p b => some (p, .faultList, b)
  | .tariffGet p b => some (p, .tariffGet, b)
  | .configGet p b => some (p, .configGet, b)
  | .configSet p b => some (p, .configSet, b)
  | .snapshotNow p b => some (p, .snapshotNow, b)
  | .noticeGet p b => some (p, .noticeGet, b)
  | .noticeClear p b => some (p, .noticeClear, b)
  | .noticeEnable p b => some (p, .noticeEnable, b)
  | .errClear p b => some (p, .errClear, b)
  | .timeSet p b => some (p, .timeSet, b)
  | .areaSet p b => some (p, .areaSet, b)
  | .areaClear p b => some (p, .areaClear, b)
  | .join p b => some (p, .joinStream, b)
  | .unjoin p b => some (p, .unjoin, b)
  | .descSet p b => some (p, .descSet, b)
  | .vectorSet p b => some (p, .vectorSet, b)
  | .streamRead p b => some (p, .streamRead, b)
  | .streamAck p b => some (p, .streamAck, b)
  | .coldReset | .resetNFall | .resetNRise | .sampleSetDelivery _ | .tempHoldExpiry _ | .scSampleTaking
  | .plugDebounceChange | .pcUpdate | .derateWindowEnd | .hcSampleTaking | .connectTimerExpiry | .settleTimerExpiry
  | .idleTimerExpiry | .deferredIdleDisconnect | .blankingTimerExpiry | .imSampleTaking | .cycleCountdownExpiry
  | .pendingMeasurementStart | .chassisSample _ | .phaseTimerExpiry | .levelAgeExpiry | .limitsValidityExpiry
  | .verificationTimerExpiry | .eaAllocation | .pulseHighEnd | .pulseLowEnd | .clockTick | .boundaryClose | .periodClose
  | .tariffApplyAtSessionEnd | .heldRecordAppend | .pendingFinalPlaced | .snapshotSelection | .compositionComplete
  | .periodicTimerExpiry | .framingError _ _ _ | .overlongFrame _ _ _ | .crcError _ _ _ _ | .unknownKindRequest _ _ _
  | .replyShiftComplete _ | .pwmPeriodStart => none

/-- The reply of a request: what the state after it holds pending on the port (R180). -/
def replies (p : Port) (k : Kind) (x : Status) (body : List Byte) (s : State) : State :=
  putReply p ⟨BitVec.ofNat 8 k.code, x, body⟩ s

/-- The state in which the owning block finds a request of port `p`: a pending reply is gone, with OVERRUN recorded, and
nothing of an earlier exchange is left (R178, R180). -/
def found (p : Port) (s : State) : State := overrun p (newExchange p s)

/-! ## Frames -/

/-- The parts of the state. -/
inductive Block where
  | resetLow | fe | sc | pc | hc | im | ea | ct | rs | se | ports | cfg | free | pending
deriving DecidableEq, Repr

/-- The block is the same in two states. -/
def Same (s t : State) : Block → Prop
  | .resetLow => t.resetLow = s.resetLow
  | .fe => t.fe = s.fe
  | .sc => t.sc = s.sc
  | .pc => t.pc = s.pc
  | .hc => t.hc = s.hc
  | .im => t.im = s.im
  | .ea => t.ea = s.ea
  | .ct => t.ct = s.ct
  | .rs => t.rs = s.rs
  | .se => t.se = s.se
  | .ports => t.ports = s.ports
  | .cfg => t.cfg = s.cfg
  | .free => t.free = s.free
  | .pending => t.pending = s.pending

/-- Every block outside the list is the same in two states. -/
def Touches (bs : List Block) (s t : State) : Prop := ∀ b : Block, b ∉ bs → Same s t b

/-- Neither element is on (R74). -/
def heaterOff (s : State) : Prop := s.hc.e1.isOn = false ∧ s.hc.e2.isOn = false

/-- The blocks that a notice and a snapshot occurrence reach: the ports, the snapshot engine and the count of free values
(R166, R183). -/
def signals : List Block := [.ports, .se, .free]

/-- The notice stands in all three ports (R183). -/
def Raised (n : Notice) (t : State) : Prop := ∀ p : Port, flagSet n (t.ports.get p).flags = true

/-- No notice flag outside the list differs. -/
def FlagsBut (ns : List Notice) (s t : State) : Prop :=
  ∀ (p : Port) (n : Notice), n ∉ ns → flagSet n (t.ports.get p).flags = flagSet n (s.ports.get p).flags

/-- The source has fired: if it is enabled, it is in the pending set (R166). -/
def Fired (src : Source) (s t : State) : Prop :=
  (s.se.vectors.get src.code).enabled = true → (t.se.waiting.get src.code).isSome = true

/-- The source has not fired: its pending member and its missed count are as they were (R166). -/
def NotFired (src : Source) (s t : State) : Prop :=
  t.se.waiting.get src.code = s.se.waiting.get src.code ∧ t.se.missed.get src.code = s.se.missed.get src.code

/-! ## The record store -/

/-- A defined area: at least 4 slots, inside the store (R149, R150). -/
def Area.sized (a : Area) : Prop := 4 ≤ a.count ∧ a.first + a.count ≤ 256

/-- The store: canonical slots, sized areas that share no slot, and each join on a defined area of its own with its head
inside, no more records than slots, and a record in each slot of its queue (R148 to R153). -/
structure StoreOk (s : State) : Prop where
  slots : slotsWf s.rs.slots = true
  sized : ∀ i a, s.rs.defined i = some a → a.sized
  apart : ∀ i k a b, i ≠ k → s.rs.defined i = some a → s.rs.defined k = some b → a.meets b = false
  joins : ∀ st j, (s.rs.stream st).join = some j →
    ∃ a, s.rs.defined j.area = some a ∧ a.first ≤ j.head ∧ j.head < a.first + a.count ∧ j.count ≤ a.count
  filled : ∀ st j k, (s.rs.stream st).join = some j → k < j.count → (recordAt j k s.rs).isSome = true
  own : ∀ st st' j j', st ≠ st' → (s.rs.stream st).join = some j → (s.rs.stream st').join = some j' → j.area ≠ j'.area

/-! ## The insulation monitor -/

/-- A measurement has started (R81, R84, R85): a new number, the countdown restarted, PHASE_A with INS_A alone closed, the
pending request served. -/
structure Started (localise : Bool) (s t : State) : Prop where
  monitor : t.im = { s.im with
    counter := (s.im.counter + 1) % 4294967296
    number := (s.im.counter + 1) % 4294967296
    abandoned := 0
    localise := localise
    cycleRun := s.im.running
    cycleLeft := s.cfg.insPeriodS * 1000
    meas := .phaseA
    phase := some 3000
    window := []
    va := none
    legFlag := s.hc.leg = .connecting ∨ s.hc.leg = .connected
    request := false }
  switches : t.fe = { s.fe with
    insA := true, insB := false, chassisMs := t.fe.chassisMs, chassisIndex := t.fe.chassisIndex }
  sampler : s.fe.insA = false → t.fe.chassisMs = 0 ∧ t.fe.chassisIndex = 0
  frame : Touches [.im, .fe] s t

/-- The level has changed into `l` (R97, R102, R103): runs empty, notice and source, the entry of that kind with the figures
`x`, or its refusal, and what the session controller makes of it: the lockout, or the hold reason and the move it brings, with
P_cmd (R24, R30, R45). -/
structure LevelMoved (l : Level) (x : Figures) (s t : State) : Prop where
  monitor : t.im = { s.im with
    level := l
    worse := .empty
    better := .empty
    faults := t.im.faults
    entrySeq := t.im.entrySeq
    overflow := t.im.overflow
    overflowCount := t.im.overflowCount }
  notice : Raised .insulation t ∧ Fired .levelChanged s t
  entry : ∀ k, l.faultKind = some k → s.im.faults.length < 8 → s.im.entrySeq < 4294967295 →
    (∃ e, t.im.faults = s.im.faults ++ [e] ∧ e.seq = s.im.entrySeq + 1 ∧ e.kind = k ∧ e.figures = x ∧
      e.time.unset = !s.ct.valid ∧ (s.ct.valid = true → e.time = ⟨false, s.ct.day, s.ct.sec⟩) ∧
      (s.ct.valid = false → e.time.sec = s.im.uptime)) ∧
    t.im.entrySeq = s.im.entrySeq + 1 ∧ t.im.overflow = s.im.overflow ∧ t.im.overflowCount = s.im.overflowCount ∧
    Raised .faultTable t
  refused : ∀ k, l.faultKind = some k → 8 ≤ s.im.faults.length ∨ 4294967295 ≤ s.im.entrySeq →
    t.im.faults = s.im.faults ∧ t.im.entrySeq = s.im.entrySeq ∧ t.im.overflow = true ∧
    t.im.overflowCount = min 255 (s.im.overflowCount + 1) ∧ (s.im.overflow = false → Raised .faultTable t)
  noEntry : l.faultKind = none → t.im.faults = s.im.faults ∧ t.im.entrySeq = s.im.entrySeq ∧
    t.im.overflow = s.im.overflow ∧ t.im.overflowCount = s.im.overflowCount
  lockout : l = .fault → t.sc.state = .lockedOut ∧ t.sc.lockout.insulationFault = true
  session : l ≠ .fault → t.sc = { s.sc with
    state := t.sc.state
    hold := if s.sc.state.isOpen then { s.sc.hold with insulationUnknown := l = .unknown } else s.sc.hold }
  state : l ≠ .fault → t.sc.state =
    if s.sc.state = .preheat ∨ s.sc.state = .charging then (if t.sc.hold.any then .hold else s.sc.state)
    else if s.sc.state = .hold ∧ t.sc.hold.any = false then (if s.sc.gate then .charging else .preheat)
    else s.sc.state
  command : t.pc.pCmd =
    if t.sc.state ≠ s.sc.state ∧ (t.sc.state = .hold ∨ t.sc.state = .lockedOut) then 0 else s.pc.pCmd
  moved : t.sc.state ≠ s.sc.state → Raised .session t ∧ Fired .stateChanged s t

/-- The record is offered to the INSULATION stream (R92, R155): the stream stands as the offer leaves it, and so, under the
invariant of the store, does each record of its queue. -/
structure Offered (r : ResultRecord) (s t : State) : Prop where
  stream : t.rs.insulation = (offer .insulation (.result r) s).rs.insulation
  records : StoreOk s → ∀ j k, t.rs.insulation.join = some j → k < j.count →
    recordAt j k t.rs = recordAt j k (offer .insulation (.result r) s).rs

/-- Severity of a level: only FAULT is worse than UNMEASURED and UNKNOWN (R93). -/
def Level.rank : Level → Nat
  | .ok => 1
  | .unmeasured | .unknown | .warning => 2
  | .fault => 3

/-- The runs and the localisation (R93 to R95, R98): the floor of a worse run is worse than the level, the ceiling of a
better run is better than a level WARNING or FAULT, and no localisation runs at level FAULT. -/
structure RunsOk (s : State) : Prop where
  worse : s.im.worse.count = 0 ∨ s.im.level.rank < s.im.worse.bound.rank
  better : s.im.better.count = 0 ∨
    ((s.im.level = .warning ∨ s.im.level = .fault) ∧ s.im.better.bound.rank < s.im.level.rank)
  localising : s.im.localisationRuns = true → s.im.level ≠ .fault

/-! ## Billing -/

/-- A record formed at a real close of interval `i` has been placed (R137, R139, R141, R130): into the stream or the hold
slot, the reported cost advanced, INTERVAL_CLOSED fired, a staged table of the payer's kind applied. -/
structure RecordPlaced (reason : BillingReason) (lockout : Bool) (i : Interval) (s t : State) : Prop where
  stream : billingRoom s = true →
    t.rs = (offer .billing (.billing (formRecord reason lockout i s)) s).rs ∧ t.ct.held = s.ct.held
  slot : billingRoom s = false → s.ct.held = none →
    t.rs = s.rs ∧ t.ct.held = some (formRecord reason lockout i s) ∧ Raised .billing t
  cost : t.ct.cost = s.ct.cost ∧ t.ct.reported = (s.ct.cost + 500) / 1000
  fired : Fired .intervalClosed s t
  staged : ∀ tab, (s.ct.kind s.sc.record.payer).staged = some tab →
    t.ct.kind s.sc.record.payer = ⟨some tab, none, ((s.ct.kind s.sc.record.payer).generation + 1) % 65536⟩ ∧
    Raised .tariff t ∧ Fired .tariffApplied s t
  tables : (∀ k, k ≠ s.sc.record.payer → t.ct.kind k = s.ct.kind k) ∧
    ((s.ct.kind s.sc.record.payer).staged = none → t.ct.kind s.sc.record.payer = s.ct.kind s.sc.record.payer)

/-- The interval a real close leaves in progress (R133, R134): its index, and start, base figures, length, flags and price
from the clock, the account, the items and the tables as they now stand. -/
structure IntervalOpened (index : Nat) (s t : State) : Prop where
  interval : ∃ i, t.ct.interval = some i ∧ i.index = index ∧ i.openElapsed = t.ct.elapsed ∧
    (t.ct.valid = true → i.startDay = t.ct.day ∧ i.startSec = t.ct.sec) ∧
    (t.ct.valid = false → i.startSec = t.ct.elapsed) ∧
    i.base = ⟨s.ea.session.g.wh, s.ea.session.bg.wh, s.ea.session.hg.wh, s.ea.session.lg.wh, s.ea.session.hb.wh⟩ ∧
    i.latched = s.cfg.billIntervalMin ∧
    i.flags = ⟨!t.ct.valid, (t.ct.kind s.sc.record.payer).active.isNone, false, false, false, false⟩
  price : t.ct.price = priceOf s.sc.record.payer t

/-! ## The end of a session -/

/-- The session's final record would find a place now (R29, R141): none is pending, and BILLING has room or the hold slot is
empty where an interval is in progress. -/
def finalPlaced (s : State) : Bool := s.ct.finalRecord.isNone && (s.ct.interval.isNone || placeable s)

/-- The FINAL close of a session asked at P_cmd 0 and answered (R28, R29, R144): accrual ends and the interval with it, its
record placed or kept pending; the session ends in the state the plug gives, or waits in CLOSING. -/
structure ClosedNow (plug : Plug) (s t : State) : Prop where
  accrual : t.ea = { s.ea with accruing := false }
  interval : t.ct.interval = none
  command : t.pc.pCmd = 0
  notice : Raised .session t
  placed : finalPlaced s = true → t.sc.state = (match plug with | .present => .connected | .absent => .unplugged) ∧
    t.sc.finalPending = false ∧ t.sc.hold.any = false ∧ t.sc.gate = false ∧ t.sc.commandZero = false ∧
    t.sc.record.pause = false ∧ t.ct.finalRecord = none ∧ Fired .sessionClosed s t
  waits : finalPlaced s = false → t.sc.state = .closing ∧ t.sc.finalPending = true ∧ t.sc.commandZero = true ∧
    t.ct.finalRecord.isSome = true
  record : ∀ i, s.ct.interval = some i → placeable s = true → RecordPlaced .final false i s t
  keeps : ∀ i, s.ct.interval = some i → placeable s = false →
    t.ct.finalRecord = some (formRecord .final false i s) ∧ t.rs = s.rs ∧ t.ct.held = s.ct.held ∧ Raised .billing t
  kept : t.sc.record.number = s.sc.record.number ∧ t.sc.record.payer = s.sc.record.payer ∧
    t.sc.record.label = s.sc.record.label ∧ t.sc.record.openTime = s.sc.record.openTime ∧
    t.sc.record.offer = s.sc.record.offer ∧ t.sc.limits = s.sc.limits ∧ t.sc.validity = s.sc.validity ∧
    t.sc.lockout = s.sc.lockout

/-! ## Temperature channels -/

/-- What R5 and R6 say of one channel: the conversion, the channel before, what it delivers, the channel after. -/
structure Converted (m : Option Mean) (h : HoldChannel) (r : TempReading) (h' : HoldChannel) : Prop where
  valid : ∀ x, m = some x → r.value = clampInt (-500) 1500 (roundMean x) ∧
    r.mark = (if -500 ≤ roundMean x ∧ roundMean x ≤ 1500 then .unmarked else .saturated) ∧ h' = ⟨some r.value, 0⟩
  counts : m = none → h'.counter = min 11 (h.counter + 1)
  held : ∀ v, m = none → h.last = some v → h.counter + 1 ≤ 10 → r = ⟨v, .held⟩ ∧ h'.last = some v
  missing : m = none → h.last = none ∨ 11 ≤ h.counter + 1 → r = ⟨0, .missing⟩ ∧ h'.last = none

/-! ## What the moves of the other blocks leave alone

A change of session state, a close, a lockout, a result, a disturbance and a notice reach far. What none of them can change
is the background: erase from a state what they may change. -/

/-- An element without its state and dwell. -/
def Element.background (e : Element) : Element := { e with state := .off, dwell := 0 }

/-- The heater's request and readings: without leg, timers, diagnosis and hold. -/
def Heater.background (h : Heater) : Heater :=
  { Heater.reset with
    e1 := h.e1.background
    e2 := h.e2.background
    mode := h.mode
    target := h.target
    thermostat := h.thermostat
    sensor := h.sensor }

/-- A join without its queue. -/
def StreamState.background (x : StreamState) : StreamState :=
  ⟨x.join.map fun j => { j with head := 0, count := 0 }, 0, 0⟩

/-- What no move of another block changes. -/
def background (s : State) : State :=
  { s with
    fe := { s.fe with insA := false, insB := false, chassisMs := 0, chassisIndex := 0 }
    sc :=
      { Session.reset with
        plug := s.sc.plug
        plugCount := s.sc.plugCount
        record := { s.sc.record with pause := false, closeReason := .noReason }
        limits := s.sc.limits
        validity := s.sc.validity
        lossNow := s.sc.lossNow }
    pc := { s.pc with pCmd := 0, aH := 0, lStation := 0, lObc := 0, bReq := 0 }
    hc := s.hc.background
    im := { Insulation.reset with runRequested := s.im.runRequested, running := s.im.running, uptime := s.im.uptime }
    ea := { s.ea with accruing := false }
    ct := { s.ct with station := ⟨none, none, 0⟩, fleet := ⟨none, none, 0⟩, interval := none, reported := 0, held := none
                      finalRecord := none }
    rs :=
      { slots := []
        areas := s.rs.areas
        billing := s.rs.billing.background
        insulation := s.rs.insulation.background
        events := s.rs.events.background
        readings := s.rs.readings.background }
    se := { s.se with waiting := Vector.replicate 12 none, missed := Vector.replicate 12 0 }
    ports := s.ports.map fun u => { u with flags := 0 }
    free := 0 }

/-- Only what the moves of the blocks may change differs. -/
def Quiet (s t : State) : Prop := background t = background s

/-! ## Invariants -/

/-- The states in which P_cmd may stand above 0 (R38, R45). -/
def powered : SessionState → Bool
  | .preheat | .charging | .closing => true
  | .unplugged | .connected | .verifying | .hold | .lockedOut => false

/-- P_cmd is a multiple of 10 within both limits as they stand now, and 0 outside PREHEAT, CHARGING and CLOSING (R38, R39,
R42, R44, R45). -/
structure CommandOk (s : State) : Prop where
  tens : s.pc.pCmd % 10 = 0
  station : s.pc.pCmd ≤ lStationOf s
  charger : s.pc.pCmd ≤ lObcOf s
  zero : powered s.sc.state = false → s.pc.pCmd = 0

/-- Lockout: level FAULT stands only in LOCKED_OUT; lockout reasons stand only there; there nothing is driven; hold reasons
stand only while a session is open (R24, R30, R33, R74). -/
structure LockoutOk (s : State) : Prop where
  fault : s.im.level = .fault → s.sc.state = .lockedOut
  reasons : s.sc.state ≠ .lockedOut → s.sc.lockout = .empty
  heater : s.sc.state = .lockedOut → heaterOff s
  command : s.sc.state = .lockedOut → s.pc.pCmd = 0
  hold : s.sc.state.isOpen = false → s.sc.hold = .empty

/-- An account field as mW·ds (R110). -/
def Energy.total (e : Energy) : Nat := e.wh * whUnit + e.res

/-- The grid fields of an account split G exactly (R109, R111). -/
def Account.balanced (a : Account) : Prop := a.g.total = a.bg.total + a.hg.total + a.lg.total

/-- Both accounts are balanced (R111). -/
def AccountsOk (s : State) : Prop := s.ea.session.balanced ∧ s.ea.lifetime.balanced

/-- The fault table: at most 8 entries, their sequences strictly rising and at most the last one given (R102, R103). -/
structure FaultTableOk (s : State) : Prop where
  room : s.im.faults.length ≤ 8
  rising : (s.im.faults.map FaultEntry.seq).Pairwise (· < ·)
  given : ∀ e ∈ s.im.faults, e.seq ≤ s.im.entrySeq

/-- The items lie in their ranges, and the derate thresholds stand 1 °C apart (R185, R186). -/
structure ItemsOk (s : State) : Prop where
  ranges : ∀ k : Item, k.range.1 ≤ s.cfg.get k ∧ s.cfg.get k ≤ k.range.2
  warmHot : s.cfg.derateTWarm + 10 ≤ s.cfg.derateTHot
  hotTrip : s.cfg.derateTHot + 10 ≤ s.cfg.derateTTrip

/-- The vector table names descriptors 0..15, an enabled source's first descriptor is not spent, and the chain under
service lies in the descriptor table (R167 to R170, R173). -/
structure SnapshotOk (s : State) : Prop where
  first : ∀ k : Fin 12, (s.se.vectors.get k).first ≤ 15
  live : ∀ k : Fin 12, (s.se.vectors.get k).enabled = true → (s.se.desc (s.se.vectors.get k).first).spent = false
  chain : ∀ v, s.se.service = some v → v.record.desc ≤ 15 ∧ ∀ i ∈ v.rest, i ≤ 15

end Sys2Proof.Machine
end

