-- ==== Sys2Proof/Certificates/Slice0/Obligations.lean ====
section
/-! DEFINITION. The statements for the provers. Each docstring says in words what the statement says; OBLIGATIONS.json names
the rules and sections it rests on. -/

section

open Sys2Proof Sys2Proof.Machine

/-- For every command and every state whose queue has the command at its front, the step is exec of that command on the state
with the rest of the queue. With an empty queue a step passes 1 ms. (The queue and the passing are the model's choice, log
entry 1.) -/
def Obligations.StepRunsTheFrontCommand : Prop :=
  (∀ (c : Instr) (rest : List Instr) (s : State),
    s.pending = c :: rest → step s = exec c { s with pending := rest }) ∧
  ∀ s : State, s.pending = [] → step s = .next (elapse 1 s)

/-- Every command, in every state, has a next state: nothing stops the part. The next state's queue is the queue before it.
While RESET_N is low every command other than COLD_RESET, RESET_N_RISE and CLOCK_TICK leaves the state as it is. A CLOCK_TICK
advances the day clock by one second, the session elapsed count with it while the session accrues, restarts the timebase's
second, and changes nothing else. (That only the timebase runs is the model's reading, log entry 24.) -/
def Obligations.EveryCommandAnswersAndResetLowHoldsThePart : Prop :=
  (∀ (c : Instr) (s : State), ∃ t, exec c s = .next t ∧ t.pending = s.pending) ∧
  ((∀ (c : Instr) (s : State), s.resetLow = true → c ≠ .coldReset → c ≠ .resetNRise → c ≠ .clockTick →
    exec c s = .next s) ∧
  ∀ s : State, s.resetLow = true → s.ct.timebase ≤ 1000 →
    exec .clockTick s = .next { s with ct := { s.ct with
      day := if s.ct.sec = 86399 then (s.ct.day + 1) % 65536 else s.ct.day
      sec := if s.ct.sec = 86399 then 0 else s.ct.sec + 1
      timebase := 0
      elapsed := if s.ea.accruing then min 4294967295 (s.ct.elapsed + 1) else s.ct.elapsed } })

/-- COLD_RESET, from every state, leaves every field of every block at its COLD value: no sample set, seq 0, no hold value,
switches open; UNPLUGGED, plug ABSENT, session 0, no LIMITS record, empty hold and lockout sets; P_cmd, A_h and the stage
values 0, derate NORMAL, an empty derate window, OBC_CMD low; both elements OFF and cool with their dwell complete, leg
DISCONNECTED, request OFF with target 0, thermostat and HEATER_SENSOR clear, no timer; the monitor requested but not RUNNING,
IDLE, level UNMEASURED with its age from 0, empty runs and fault table; both accounts whole, the unassigned counter and the
pulse path at 0; the clock unset, no table, no interval, price, elapsed count and cost 0, no record waiting; the default plan
with empty queues; every source disabled, every descriptor NORMAL, SESSION, EVENTS, 0, 1, clear; empty ports with the default
masks; each item at its default. The model's own queue and count of free values stay (log entries 1 and 8). The model's
choices are RESET_N high (log entry 17), the figures not in use (25), the PWM phase (19) and the timebase's (38). -/
def Obligations.ColdResetGivesTheResetValues : Prop :=
  ∀ s : State, ∃ t, exec .coldReset s = .next t ∧ t.resetLow = false ∧ t.pending = s.pending ∧ t.free = s.free ∧
    t.fe =
      { latest := none, nextSeq := 0, windowMs := 0
        tPack := ⟨none, 0⟩, tEl1 := ⟨none, 0⟩, tEl2 := ⟨none, 0⟩, tObc := ⟨none, 0⟩
        dueSc := false, duePc := false, dueHc := false, dueIm := false, dueEa := false
        insA := false, insB := false, chassisMs := 0, chassisIndex := 0 } ∧
    t.sc =
      { state := .unplugged, plug := .absent, plugCount := 0
        record := { number := 0, payer := .station, label := [], openTime := ⟨true, 0, 0⟩, offer := 0, pause := false
                    closeReason := .noReason }
        limits := none, validity := none, gate := false, hold := ⟨false, false, false, false, false⟩
        lockout := ⟨false, false⟩, verify := none, finalPending := false, commandZero := false, lossNow := false } ∧
    t.pc =
      { pCmd := 0, aH := 0, lStation := 0, lObc := 0, bReq := 0, derate := .normal, windowCount := 0, windowLen := 600
        used := 0, exhausted := false, duty := 0, pwmMs := 0 } ∧ obcCmd t = 0 ∧
    (∀ k, t.hc.get k = { state := .off, cause := .noCause, hot := false, dwell := 1000, rated := 0, current := 0 }) ∧
    t.hc =
      { e1 := t.hc.get .e1, e2 := t.hc.get .e2, leg := .disconnected, connect := none, settle := none, idle := none
        idleDeferred := false, mode := false, target := 0, thermostat := false, sensor := false, blanking := none
        diagnosis := false, localiseHold := false } ∧
    t.im =
      { runRequested := true, running := false, cycleRun := false, cycleLeft := 0, request := false, meas := .idle
        number := 0, localise := false, abandoned := 0, phase := none, window := [], va := none, legFlag := false
        counter := 0, last := none, lastValid := none, level := .unmeasured, worse := ⟨0, .noClass⟩
        better := ⟨0, .noClass⟩, age := some 0, locRecord := none, faults := [], entrySeq := 0, overflow := false
        overflowCount := 0, uptime := 0 } ∧
    t.ea.session = { g := ⟨0, 0⟩, bg := ⟨0, 0⟩, hg := ⟨0, 0⟩, lg := ⟨0, 0⟩, hb := ⟨0, 0⟩, gridFrozen := false
                     hbFrozen := false } ∧
    t.ea =
      { session := t.ea.session, accruing := false, lifetime := t.ea.session, unassigned := ⟨0, 0⟩
        unassignedFrozen := false, acc := 0, pulses := 0, lost := 0, pulse := .ready, pulseMs := 0 } ∧
    pulseOut t = false ∧
    t.ct =
      { day := 0, sec := 0, valid := false, timebase := 0, station := ⟨none, none, 0⟩, fleet := ⟨none, none, 0⟩
        interval := none, price := 0, elapsed := 0, cost := 0, reported := 0, held := none, finalRecord := none } ∧
    t.rs.slots = [] ∧ t.rs.defined 0 = some ⟨0, 96⟩ ∧ t.rs.defined 1 = some ⟨96, 64⟩ ∧ t.rs.defined 2 = some ⟨160, 64⟩ ∧
    t.rs.defined 3 = some ⟨224, 32⟩ ∧ t.rs.defined 4 = none ∧ t.rs.defined 5 = none ∧
    t.rs.billing = ⟨some ⟨0, .t, 0, 0⟩, 0, 0⟩ ∧ t.rs.insulation = ⟨some ⟨1, .v, 96, 0⟩, 0, 0⟩ ∧
    t.rs.events = ⟨some ⟨2, .t, 160, 0⟩, 0, 0⟩ ∧ t.rs.readings = ⟨some ⟨3, .c, 224, 0⟩, 0, 0⟩ ∧
    (∀ k : Fin 12, t.se.vectors.get k = ⟨false, k.val⟩ ∧ t.se.waiting.get k = none ∧ t.se.missed.get k = 0) ∧
    (∀ i, t.se.desc i = { repeating := false, fieldSet := .session, toReadings := false, count := 0, reload := 1
                          chain := false, notify := false }) ∧
    t.se.service = none ∧ t.se.justServed = [] ∧ t.se.periodic = 0 ∧ t.se.uptime = 0 ∧
    (∀ p : Port, t.ports.get p =
      { request := [], reply := none, shift := [], shiftsReply := false, errors := ⟨false, false, false⟩, flags := 0
        mask := (match p with | .v => 0xE3F#12 | .c => 0xE53#12 | .t => 0xFC1#12)
        alarm := ⟨false, false, false, false⟩ }) ∧
    t.cfg =
      { insPeriodS := 10, insWarnOpv := 500, insFaultOpv := 100, insSettleTol := 3, resE1 := 800, resE2 := 800
        heatBand := 20, heatIdleS := 30, obcPmax := 11000, obcEff := 960, rampStep := 500, closeRampStep := 1000
        derateTWarm := 750, derateTHot := 850, derateTTrip := 950, derateWindowS := 60, allowWarm := 150, allowHot := 60
        billIntervalMin := 15, pulseWhInt := 1, pulseWhEighths := 0, snapPeriodS := 0, markBilling := 1
        markInsulation := 1, markEvents := 8, markReadings := 16 }

/-- With RESET_N high, RESET_N_FALL makes it low. CHG_EN, OBC_CMD, both element drives, the leg disconnect, both monitor
switches, PULSE and the notice lines are inactive. The window and a composition in progress are discarded; the switches are
open and the chassis sampler is stopped, its index 0 and no interval in progress. As many pending pulses as the lost count
can still take become lost ones, and none appears or vanishes. Each exchange ends, its pending reply, errors, flags, mask and
alarms unchanged. Nothing else changes. (What is taken at the fall and what at the rise is log entry 24.) -/
def Obligations.ResetFallOpensEveryOutput : Prop :=
  ∀ s : State, s.resetLow = false → ∃ t, exec .resetNFall s = .next t ∧ t.resetLow = true ∧
    chgEn t = false ∧ obcCmd t = 0 ∧ heDrive .e1 t = false ∧ heDrive .e2 t = false ∧ hldDrive t = false ∧
    insADrive t = false ∧ insBDrive t = false ∧ pulseOut t = false ∧ (∀ p, noticeLine p t = false) ∧
    t.fe = { s.fe with windowMs := 0, insA := false, insB := false, chassisMs := 0, chassisIndex := 0 } ∧
    t.se = { s.se with service := none, justServed := [] } ∧
    t.ea.pulses + t.ea.lost = s.ea.pulses + s.ea.lost ∧
    (s.ea.lost + s.ea.pulses ≤ 4294967295 → t.ea.pulses = 0) ∧
    (s.ea.lost ≤ 4294967295 → 4294967295 ≤ s.ea.lost + s.ea.pulses → t.ea.lost = 4294967295) ∧
    t.ea = { s.ea with pulses := t.ea.pulses, lost := t.ea.lost, pulse := .ready, pulseMs := 0 } ∧
    (∀ p, t.ports.get p = { s.ports.get p with request := [], shift := [], shiftsReply := false }) ∧
    Touches [.resetLow, .fe, .se, .ea, .ports] s t

/-- With RESET_N low, RESET_N_RISE makes it high. Front end, power command and ports stand at their COLD values, but for what
the close raises. The session controller is UNPLUGGED, or still LOCKED_OUT with its reasons; number, payer, label, open time
and offer are kept, the close reason is ABORTED if a session was open. A DISABLED element and an ISOLATED leg stay so. The
monitor keeps counter, fault table, entry sequence and overflow. Accounts, items, day clock, elapsed count, cost, price
register, area plan and the vector and descriptor tables are kept; the pending set and the missed counts are empty but for
what the close fires. An interval in progress closes with the ABORTED record of the kept figures: in the BILLING stream where
it has room, else in an empty hold slot, else pending with FINAL_PENDING; the reported cost advances, INTERVAL_CLOSED fires,
SESSION is raised, SESSION_CLOSED fires at a placing. Without one, a pending final record gains ABORTED, and store, hold
slot, reported cost and FINAL_PENDING are kept. A staged table of either kind is then applied, its generation one up, with
TARIFF and TARIFF_APPLIED. (Log entry 24. The model's choices are the PWM phase (19) and the figures not in use (25).) -/
def Obligations.ResetRiseGivesTheWarmValues : Prop :=
  ∀ s : State, s.resetLow = true → ∃ t, exec .resetNRise s = .next t ∧ t.resetLow = false ∧
    t.fe = State.reset.fe ∧ t.pc = State.reset.pc ∧
    t.sc = { State.reset.sc with
      state := if s.sc.state = .lockedOut then .lockedOut else .unplugged
      lockout := if s.sc.state = .lockedOut then s.sc.lockout else ⟨false, false⟩
      record := { s.sc.record with
        pause := false
        closeReason := if s.sc.state.isOpen then .aborted else s.sc.record.closeReason }
      finalPending := if s.ct.interval.isSome then t.ct.finalRecord.isSome else s.sc.finalPending } ∧
    t.hc = { State.reset.hc with
      e1 := if s.hc.e1.state = .disabled then { State.reset.hc.e1 with state := .disabled, cause := s.hc.e1.cause }
        else State.reset.hc.e1
      e2 := if s.hc.e2.state = .disabled then { State.reset.hc.e2 with state := .disabled, cause := s.hc.e2.cause }
        else State.reset.hc.e2
      leg := if s.hc.leg = .isolated then .isolated else .disconnected } ∧
    t.im = { State.reset.im with
      counter := s.im.counter, faults := s.im.faults, entrySeq := s.im.entrySeq, overflow := s.im.overflow
      overflowCount := s.im.overflowCount } ∧
    (s.ea.pulses = 0 → t.ea = { s.ea with accruing := false, pulse := .ready, pulseMs := 0 }) ∧
    t.ea.session = s.ea.session ∧ t.ea.lifetime = s.ea.lifetime ∧ t.ea.unassigned = s.ea.unassigned ∧
    t.ct = { s.ct with
      station := t.ct.station
      fleet := t.ct.fleet
      interval := none
      reported := if s.ct.interval.isSome then (s.ct.cost + 500) / 1000 else s.ct.reported
      held := t.ct.held
      finalRecord := t.ct.finalRecord } ∧
    (∀ k, t.ct.kind k = match (s.ct.kind k).staged with
      | none => s.ct.kind k
      | some tab => ⟨some tab, none, ((s.ct.kind k).generation + 1) % 65536⟩) ∧
    (∀ k, (s.ct.kind k).staged ≠ none → Raised .tariff t ∧ Fired .tariffApplied s t) ∧
    t.rs.areas = s.rs.areas ∧
    (s.ct.interval = none → t.rs = s.rs ∧ t.ct.held = s.ct.held ∧
      t.ct.finalRecord = s.ct.finalRecord.map (fun r => { r with aborted := true }) ∧ NotFired .intervalClosed State.reset t) ∧
    (∀ i, s.ct.interval = some i →
      let r := formRecord .aborted false i s
      let room := billingRoom s = true
      r.reason = .aborted ∧ r.final = true ∧ r.aborted = true ∧ r.lockout = false ∧
      Raised .session t ∧ Fired .intervalClosed s t ∧
      (room → t.rs = (offer .billing (.billing r) s).rs ∧ t.ct.held = s.ct.held ∧ t.ct.finalRecord = s.ct.finalRecord) ∧
      (¬ room → t.rs = s.rs ∧ Raised .billing t) ∧
      (¬ room → s.ct.held = none → t.ct.held = some r ∧ t.ct.finalRecord = s.ct.finalRecord) ∧
      (¬ room → s.ct.held ≠ none → t.ct.held = s.ct.held ∧ t.ct.finalRecord = some r) ∧
      (t.ct.finalRecord = none → Fired .sessionClosed s t)) ∧
    t.se.vectors = s.se.vectors ∧ t.se.descs = s.se.descs ∧ t.se.service = none ∧ t.se.justServed = [] ∧ t.se.periodic = 0 ∧ t.se.uptime = 0 ∧
    (∀ k : Fin 12, k ≠ Source.code .sessionClosed → k ≠ Source.code .intervalClosed → k ≠ Source.code .tariffApplied →
      t.se.waiting.get k = none) ∧
    (∀ k : Fin 12, k ≠ Source.code .tariffApplied → t.se.missed.get k = 0) ∧
    (∀ p, (t.ports.get p) = { State.reset.ports.get p with flags := (t.ports.get p).flags }) ∧
    FlagsBut [.session, .billing, .tariff, .capture, .stream] State.reset t ∧
    (∀ p, flagSet .stream (t.ports.get p).flags = streamCondition p t) ∧
    t.cfg = s.cfg ∧ t.pending = s.pending

/-- With RESET_N high, SAMPLE_SET_DELIVERY lets the rest of the 100 ms window pass and replaces the latest sample set by one
that carries the next seq, each electrical mean rounded and clamped with SATURATED exactly where it lies outside its range,
each temperature by its conversion and hold mechanism, and the plug level read. The next seq is one more, 65535 followed by
0. All five consumers have the set to take, the next window begins, and nothing outside the front end changes but for the
time that passed. TEMP_HOLD_EXPIRY is that delivery where it takes a channel's hold counter from 10 to 11, and nothing
otherwise. Rounding a mean num / den, den above 0, is to the nearest unit, halves away from zero. (Log entry 2 for the rest
of the window, log entries 3 and 4 for TEMP_HOLD_EXPIRY, 32 for a window that ends late.) -/
def Obligations.SampleSetIsDeliveredWhole : Prop :=
  (∀ m : Mean, 0 < m.den →
    2 * (m.num - roundMean m * m.den).natAbs ≤ m.den ∧
    (2 * (m.num - roundMean m * m.den).natAbs = m.den → m.num.natAbs ≤ (roundMean m * m.den).natAbs)) ∧
  (∀ (w : Window) (s : State), s.resetLow = false → s.fe.windowMs ≤ 100 →
    ∃ t x, exec (.sampleSetDelivery w) s = .next t ∧ t.fe.latest = some x ∧
      x.seq = s.fe.nextSeq ∧ t.fe.nextSeq = (s.fe.nextSeq + 1) % 65536 ∧ x.plug = w.plug ∧
      x.pIn = clampInt (-30000) 30000 (roundMean w.pIn) ∧
      (x.satPIn = true ↔ roundMean w.pIn < -30000 ∨ 30000 < roundMean w.pIn) ∧
      (x.vBus : Int) = clampInt 0 6500 (roundMean w.vBus) ∧
      (x.satVBus = true ↔ roundMean w.vBus < 0 ∨ 6500 < roundMean w.vBus) ∧
      x.iBat = clampInt (-5000) 5000 (roundMean w.iBat) ∧
      (x.satIBat = true ↔ roundMean w.iBat < -5000 ∨ 5000 < roundMean w.iBat) ∧
      (x.iHeat : Int) = clampInt 0 5000 (roundMean w.iHeat) ∧
      (x.satIHeat = true ↔ roundMean w.iHeat < 0 ∨ 5000 < roundMean w.iHeat) ∧
      x.saturated = (x.satPIn || x.satVBus || x.satIBat || x.satIHeat) ∧
      Converted w.tPack s.fe.tPack x.tPack t.fe.tPack ∧ Converted w.tEl1 s.fe.tEl1 x.tEl1 t.fe.tEl1 ∧
      Converted w.tEl2 s.fe.tEl2 x.tEl2 t.fe.tEl2 ∧ Converted w.tObc s.fe.tObc x.tObc t.fe.tObc ∧
      t.fe.windowMs = 0 ∧ t.fe.dueSc = true ∧ t.fe.duePc = true ∧ t.fe.dueHc = true ∧ t.fe.dueIm = true ∧
      t.fe.dueEa = true ∧ t.fe.insA = s.fe.insA ∧ t.fe.insB = s.fe.insB ∧ t.fe.chassisIndex = s.fe.chassisIndex ∧
      Touches [.fe] (elapse (100 - s.fe.windowMs) s) t) ∧
  ∀ (w : Window) (s : State), exec (.tempHoldExpiry w) s =
    if (w.tPack = none ∧ s.fe.tPack.counter = 10) ∨ (w.tEl1 = none ∧ s.fe.tEl1.counter = 10) ∨
      (w.tEl2 = none ∧ s.fe.tEl2.counter = 10) ∨ (w.tObc = none ∧ s.fe.tObc.counter = 10)
    then exec (.sampleSetDelivery w) s else .next s

/-- A conversion that reports the sensor open counts the hold counter up, to at most 11. While the count is 1 to 10 and a
last valid value is held, that value is delivered HELD; at 11, or without one, the channel is delivered MISSING with value 0
and the last valid value is gone. So after a valid conversion of v, the n-th consecutive open conversion delivers v with HELD
for n from 1 to 10, and MISSING with value 0 for every n from 11 on; from a channel without a last valid value every one
delivers MISSING, the counter counted alike. A delivered set carries, for each of the four channels, what that channel's own
conversion and own hold mechanism give. -/
def Obligations.HoldBridgesTenSetsThenMissing : Prop :=
  (∀ (v : Int) (n : Nat),
    let h : Nat → HoldChannel := fun n => (HoldChannel.convert none)^[n] ⟨some v, 0⟩
    deliverTemp none (h n) = (if n < 10 then ⟨v, .held⟩ else ⟨0, .missing⟩) ∧
    (h n).counter = min 11 n ∧ (h n).last = (if n ≤ 10 then some v else none)) ∧
  (∀ (c n : Nat),
    let h : Nat → HoldChannel := fun n => (HoldChannel.convert none)^[n] ⟨none, c⟩
    deliverTemp none (h n) = ⟨0, .missing⟩ ∧ (h n).last = none ∧ (c ≤ 11 → (h n).counter = min 11 (c + n))) ∧
  ∀ (w : Window) (s : State), s.resetLow = false →
    ∃ t x, exec (.sampleSetDelivery w) s = .next t ∧ t.fe.latest = some x ∧
      x.tPack = deliverTemp w.tPack s.fe.tPack ∧ t.fe.tPack = s.fe.tPack.convert w.tPack ∧
      x.tEl1 = deliverTemp w.tEl1 s.fe.tEl1 ∧ t.fe.tEl1 = s.fe.tEl1.convert w.tEl1 ∧
      x.tEl2 = deliverTemp w.tEl2 s.fe.tEl2 ∧ t.fe.tEl2 = s.fe.tEl2.convert w.tEl2 ∧
      x.tObc = deliverTemp w.tObc s.fe.tObc ∧ t.fe.tObc = s.fe.tObc.convert w.tObc

/-- With no set delivered since the reset, or with the set already taken, each of the five takings (SC_SAMPLE_TAKING,
PC_UPDATE, HC_SAMPLE_TAKING, IM_SAMPLE_TAKING, EA_ALLOCATION) leaves the state as it is. A taking of a set that is due leaves
that consumer, and no other, with nothing to take, and leaves the set, its seq and the hold mechanisms as delivered. (Log
entry 3: a taking that is not due changes nothing.) -/
def Obligations.EachConsumerTakesASetAtMostOnce : Prop :=
  (∀ s : State,
    (s.fe.latest = none ∨ s.fe.dueSc = false → exec .scSampleTaking s = .next s) ∧
    (s.fe.latest = none ∨ s.fe.duePc = false → exec .pcUpdate s = .next s) ∧
    (s.fe.latest = none ∨ s.fe.dueHc = false → exec .hcSampleTaking s = .next s) ∧
    (s.fe.latest = none ∨ s.fe.dueIm = false → exec .imSampleTaking s = .next s) ∧
    (s.fe.latest = none ∨ s.fe.dueEa = false → exec .eaAllocation s = .next s)) ∧
  ∀ s : State, s.resetLow = false → s.fe.latest.isSome = true →
    let same (t : State) : Prop := t.fe.latest = s.fe.latest ∧ t.fe.nextSeq = s.fe.nextSeq ∧
      t.fe.windowMs = s.fe.windowMs ∧ t.fe.tPack = s.fe.tPack ∧ t.fe.tEl1 = s.fe.tEl1 ∧ t.fe.tEl2 = s.fe.tEl2 ∧
      t.fe.tObc = s.fe.tObc
    let due (t : State) : List Bool := [t.fe.dueSc, t.fe.duePc, t.fe.dueHc, t.fe.dueIm, t.fe.dueEa]
    (∀ t, exec .scSampleTaking s = .next t → same t ∧ due t = (due s).set 0 false) ∧
    (∀ t, exec .pcUpdate s = .next t → same t ∧ due t = (due s).set 1 false) ∧
    (∀ t, exec .hcSampleTaking s = .next t → same t ∧ due t = (due s).set 2 false) ∧
    (∀ t, exec .imSampleTaking s = .next t → same t ∧ due t = (due s).set 3 false) ∧
    (∀ t, exec .eaAllocation s = .next t → same t ∧ due t = (due s).set 4 false)

/-- The shared operation by which every block changes the session state. To the state already held it changes nothing. To
another state: the session controller changes in its state alone; SESSION is raised in all three ports and STATE_CHANGED
fires; P_cmd is kept into PREHEAT, CHARGING and a CLOSING whose reason is not UNPLUGGED, and is 0 into every other state; A_h
is recomputed at the latest v_bus and, where it changed, the elements are fitted into it; where the open states are left, a
staged table of the payer's kind is applied with its generation count one up (modulo 65536), TARIFF raised and TARIFF_APPLIED
fired. No other notice flag but CAPTURE changes, and no block but the session controller, the power command, the heater, the
tariff tables, the ports and the snapshot engine. -/
def Obligations.SessionStateChangeIsOneEvent : Prop :=
  ∀ (x : SessionState) (s : State),
    (s.sc.state = x → setState x s = s) ∧
    (s.sc.state ≠ x →
      let t := setState x s
      let k := s.sc.record.payer
      t.sc = { s.sc with state := x } ∧ Raised .session t ∧ Fired .stateChanged s t ∧
      t.pc.pCmd = (if x = .preheat ∨ x = .charging ∨ (x = .closing ∧ s.sc.record.closeReason ≠ .unplugged) then s.pc.pCmd
        else 0) ∧
      t.pc.aH = allowanceOf (latestVBus s) t ∧
      t.hc = (if t.pc.aH = s.pc.aH then s.hc else s.hc.fit t.pc.aH) ∧
      ((s.sc.state.isOpen = false ∨ x.isOpen = true ∨ (s.ct.kind k).staged = none) → t.ct = s.ct) ∧
      (∀ tab, s.sc.state.isOpen = true → x.isOpen = false → (s.ct.kind k).staged = some tab →
        t.ct = s.ct.putKind k ⟨some tab, none, ((s.ct.kind k).generation + 1) % 65536⟩ ∧ Raised .tariff t ∧
          Fired .tariffApplied s t) ∧
      FlagsBut [.session, .tariff, .capture] s t ∧ Touches [.sc, .pc, .hc, .ct, .ports, .se, .free] s t)

/-- CHG_EN is high exactly while RESET_N is high, the session state is PREHEAT, CHARGING or HOLD, or is CLOSING with the
command-zero condition clear, and the insulation level is OK or WARNING. It is low right after a COLD reset, and right after
the end of a WARM reset. -/
def Obligations.ChargePermissionIsGivenExactlyWhen : Prop :=
  (∀ s : State, chgEn s = true ↔ s.resetLow = false ∧
    (s.sc.state = .preheat ∨ s.sc.state = .charging ∨ s.sc.state = .hold ∨
      (s.sc.state = .closing ∧ s.sc.commandZero = false)) ∧
    (s.im.level = .ok ∨ s.im.level = .warning)) ∧
  ∀ s : State, (∃ t, exec .coldReset s = .next t ∧ chgEn t = false) ∧
    (s.resetLow = true → ∃ t, exec .resetNRise s = .next t ∧ chgEn t = false)

/-- With a due set and RESET_N high, SC_SAMPLE_TAKING sets the debounce count to 0 on the debounced level, else counts it,
and at 3 takes the level; while a session is open it keeps the gate (set from T_accept up, cleared below T_accept less 20,
kept between and on a MISSING t_pack) and the reasons PACK_SENSOR and BUS_LOW. Where no transition of the plug is due,
PREHEAT, CHARGING and HOLD become HOLD if a reason stands, else CHARGING or PREHEAT by the gate; other states stay. P_cmd is
0 after a move into HOLD and kept otherwise; a move raises SESSION and fires STATE_CHANGED, and without one only the front
end and the session controller change. The insulation monitor's disturbance reports follow (takeReports). -/
def Obligations.SampleTakingMovesTheSessionOnce : Prop :=
  ∀ (s : State) (x : SampleSet), s.resetLow = false → s.fe.latest = some x → s.fe.dueSc = true →
    let full := x.plug ≠ s.sc.plug ∧ 3 ≤ s.sc.plugCount + 1
    let moves := full ∧ ((x.plug = .present ∧ s.sc.state = .unplugged) ∨
      (x.plug = .absent ∧ s.sc.state ≠ .unplugged ∧ s.sc.state ≠ .lockedOut))
    let gate := match s.sc.limits with
      | none => s.sc.gate
      | some l =>
        if x.tPack.mark = .missing then s.sc.gate
        else if l.tAccept ≤ x.tPack.value then true
        else if x.tPack.value < l.tAccept - 20 then false
        else s.sc.gate
    let hold : HoldSet := { s.sc.hold with packSensor := x.tPack.mark = .missing, busLow := x.vBus < 500 }
    ∃ t, exec .scSampleTaking s = .next (takeReports s t) ∧
      t.sc.plug = (if full then x.plug else s.sc.plug) ∧
      t.sc.plugCount = (if x.plug = s.sc.plug ∨ full then 0 else s.sc.plugCount + 1) ∧
      (¬ moves →
        t.sc = { s.sc with
          plug := if full then x.plug else s.sc.plug
          plugCount := if x.plug = s.sc.plug ∨ full then 0 else s.sc.plugCount + 1
          gate := if s.sc.state.isOpen then gate else s.sc.gate
          hold := if s.sc.state.isOpen then hold else s.sc.hold
          state :=
            if s.sc.state = .preheat ∨ s.sc.state = .charging ∨ s.sc.state = .hold then
              if hold.any then .hold else if gate then .charging else .preheat
            else s.sc.state } ∧
        t.pc.pCmd = (if t.sc.state = .hold ∧ s.sc.state ≠ .hold then 0 else s.pc.pCmd) ∧
        (t.sc.state ≠ s.sc.state → Raised .session t ∧ Fired .stateChanged s t ∧
          Touches [.fe, .sc, .pc, .hc, .ports, .se, .free] s t) ∧
        (t.sc.state = s.sc.state → Touches [.fe, .sc] s t))

/-- PLUG_DEBOUNCE_CHANGE is the session controller's taking where the latest set completes the debounce, and nothing
otherwise. The level becoming PRESENT moves UNPLUGGED to CONNECTED and leaves CONNECTED, VERIFYING, CLOSING and LOCKED_OUT.
Becoming ABSENT it moves CONNECTED to UNPLUGGED, leaves UNPLUGGED and LOCKED_OUT, closes VERIFYING, PREHEAT, CHARGING and
HOLD with reason UNPLUGGED, P_cmd 0 and the final close at once, a loss of this instant (log entry 43). In CLOSING it sets
P_cmd to 0 and leaves state, session record, command-zero condition, accounts and interval: the final close waits for the
next update. (That a session may end in the event of its plug loss is log entry 12; that this row is the taking itself, and
nothing otherwise, log entries 3 and 4.) Premise for the open states outside CLOSING: the command-zero condition is clear. -/
def Obligations.DebouncedPlugChangeActsByState : Prop :=
  (∀ s : State, exec .plugDebounceChange s =
    if s.fe.latest.any fun x => x.plug != s.sc.plug && 3 ≤ s.sc.plugCount + 1 then exec .scSampleTaking s else .next s) ∧
  ∀ (s : State) (x : SampleSet), s.resetLow = false → s.fe.latest = some x → s.fe.dueSc = true → x.plug ≠ s.sc.plug →
    3 ≤ s.sc.plugCount + 1 →
    ∃ t, exec .plugDebounceChange s = .next (takeReports s t) ∧ t.sc.plug = x.plug ∧ t.sc.plugCount = 0 ∧
      t.sc.lossNow = (s.sc.lossNow || (x.plug = .absent && s.sc.state.isOpen && s.sc.state != .closing)) ∧
      (x.plug = .present →
        (s.sc.state = .unplugged → t.sc.state = .connected ∧ Raised .session t ∧ Fired .stateChanged s t) ∧
        (s.sc.state = .connected ∨ s.sc.state = .verifying ∨ s.sc.state = .closing ∨ s.sc.state = .lockedOut →
          t.sc.state = s.sc.state ∧ Touches [.fe, .sc] s t)) ∧
      (x.plug = .absent →
        (s.sc.state = .connected → t.sc.state = .unplugged ∧ Raised .session t ∧ Fired .stateChanged s t) ∧
        (s.sc.state = .unplugged ∨ s.sc.state = .lockedOut → t.sc.state = s.sc.state ∧ Touches [.fe, .sc] s t) ∧
        (s.sc.state = .verifying ∨ s.sc.state = .preheat ∨ s.sc.state = .charging ∨ s.sc.state = .hold →
          s.sc.commandZero = false →
          t.sc.record.closeReason = .unplugged ∧ t.sc.verify = none ∧ ClosedNow .absent s t) ∧
        (s.sc.state = .closing → t.pc = { s.pc with pCmd := 0 } ∧ t.sc.state = .closing ∧ t.sc.record = s.sc.record ∧
          t.sc.commandZero = s.sc.commandZero ∧ t.sc.finalPending = s.sc.finalPending ∧ Touches [.fe, .sc, .pc] s t))

/-- A LIMITS request of eight bytes on port V, in every session state with RESET_N high, stores I_bmax clamped to 0..5000,
V_bmax to 0..6500, T_accept to -300..450 and P_heat_batt to 0..10000, valid for 2000 ms, and replies CLAMPED if a field was
clamped, else OK, with an empty body. LIMITS_CHANGED fires if the stored record differs from the one replaced, and not
otherwise. LIMITS_STALE leaves the hold reasons while a session is open, and a HOLD left without a reason becomes CHARGING or
PREHEAT by the gate. A_h is recomputed at the latest v_bus. P_cmd is 0 after a move into HOLD and kept otherwise. Nothing
else of the session controller changes, and no account, interval, store, monitor or item. With RESET_N high and the validity
timer running, LIMITS_VALIDITY_EXPIRY lets the time left pass, keeps the stored fields, makes the record not valid, raises
LIMITS_STALE in all three ports, adds LIMITS_STALE to the hold reasons while a session is open, moves PREHEAT and CHARGING to
HOLD with P_cmd 0, and recomputes A_h at the latest v_bus; in other states P_cmd and the state stay. With the timer stopped
it does nothing. (Log entries 2 and 3.) -/
def Obligations.LimitsAreStoredValidAndGrowStale : Prop :=
  (∀ (b : List Byte) (s : State), s.resetLow = false → b.length = 8 →
    let s0 := found .v s
    let l : LimitsRecord := ⟨clampNat 0 5000 (u16 b 0), clampNat 0 6500 (u16 b 2), clampInt (-300) 450 (s16 b 4),
      clampNat 0 10000 (u16 b 6)⟩
    let st : Status := if l = ⟨u16 b 0, u16 b 2, s16 b 4, u16 b 6⟩ then .ok else .clamped
    let hold : HoldSet := if s.sc.state.isOpen then { s.sc.hold with limitsStale := false } else s.sc.hold
    ∃ t, exec (.limits .v b) s = .next (replies .v .limits st [] (takeReports s0 t)) ∧
      t.sc = { s.sc with
        limits := some l
        validity := some 2000
        hold := hold
        state :=
          if s.sc.state = .hold ∧ hold.any = false then (if s.sc.gate then .charging else .preheat)
          else if (s.sc.state = .preheat ∨ s.sc.state = .charging) ∧ hold.any = true then .hold
          else s.sc.state } ∧
      (s.sc.limits ≠ some l → Fired .limitsChanged s t) ∧ (s.sc.limits = some l → NotFired .limitsChanged s t) ∧
      t.pc.aH = allowanceOf (latestVBus s) t ∧ t.pc.pCmd = (if t.sc.state = .hold ∧ s.sc.state ≠ .hold then 0 else s.pc.pCmd) ∧
      (t.sc.state ≠ s.sc.state → Raised .session t ∧ Fired .stateChanged s t) ∧
      FlagsBut [.session, .capture] s0 t ∧ Touches [.sc, .pc, .hc, .se, .ports, .free] s t) ∧
  ((∀ s : State, s.sc.validity = none → exec .limitsValidityExpiry s = .next s) ∧
  ∀ (s : State) (dt : Nat), s.resetLow = false → s.sc.validity = some dt →
    let u := elapse dt s
    ∃ t, exec .limitsValidityExpiry s = .next (takeReports u t) ∧
      t.sc = { u.sc with
        validity := none
        hold := if s.sc.state.isOpen then { s.sc.hold with limitsStale := true } else s.sc.hold
        state := if s.sc.state = .preheat ∨ s.sc.state = .charging then .hold else s.sc.state } ∧
      t.sc.limits = s.sc.limits ∧ t.sc.limitsValid = false ∧ Raised .limitsStale t ∧
      t.pc.pCmd = (if s.sc.state = .preheat ∨ s.sc.state = .charging then 0 else s.pc.pCmd) ∧
      t.pc.aH = allowanceOf (latestVBus s) t ∧
      FlagsBut [.limitsStale, .session, .capture] s t ∧ Touches [.sc, .pc, .hc, .se, .ports, .free] u t)

/-- A SESSION_OPEN of a right length on port C, with RESET_N high: NOT_PLUGGED in UNPLUGGED; else STATE while a session is
open; else LOCKED in LOCKED_OUT; else BUSY with FINAL_PENDING set; else NO_LIMITS with the LIMITS record absent or stale;
else INVALID for a payer code that is neither STATION nor FLEET. The reply has an empty body and the state is what the
request found: but for the port unit, nothing changes. -/
def Obligations.SessionOpenIsRefusedInOrder : Prop :=
  ∀ (b : List Byte) (s : State), s.resetLow = false → lengthOk .sessionOpen b = true →
    let refused (x : Status) : Prop := exec (.sessionOpen .c b) s = .next (replies .c .sessionOpen x [] (found .c s))
    (s.sc.state = .unplugged → refused .notPlugged) ∧
    (s.sc.state = .verifying ∨ s.sc.state = .preheat ∨ s.sc.state = .charging ∨ s.sc.state = .hold ∨
      s.sc.state = .closing → refused .state) ∧
    (s.sc.state = .lockedOut → refused .locked) ∧
    (s.sc.state = .connected →
      (s.sc.finalPending = true → refused .busy) ∧
      (s.sc.finalPending = false → s.sc.validity = none → refused .noLimits) ∧
      (s.sc.finalPending = false → s.sc.validity.isSome = true → 1 < u8 b 0 → refused .invalid)) ∧
    Touches [.ports] s (found .c s)

/-- A SESSION_OPEN of a right length on port C in CONNECTED, with FINAL_PENDING clear, a valid LIMITS record and payer
STATION or FLEET: the session number is one up (modulo 2^32), payer and label are stored, the offer clamped to 22000 with
CLAMPED, else OK, pause clear, close reason none, the open time from a valid clock or marked unset; gate clear; the hold
reasons are those whose condition holds; VERIFYING with 30 s to run and P_cmd 0; the session account 0 and accruing; cost,
reported cost and elapsed count 0; interval 0 with the active table's price; SESSION raised, SESSION_OPENED and STATE_CHANGED
fire. The monitor starts a measurement if it is IDLE and RUNNING, keeps the request pending if run is requested, and ignores
it otherwise. (A free value stands in an unset open time, log entry 8; lastly the reports follow.) -/
def Obligations.SessionOpenStartsVerification : Prop :=
  ∀ (b : List Byte) (s : State), s.resetLow = false → lengthOk .sessionOpen b = true → s.sc.state = .connected →
    s.sc.finalPending = false → s.sc.validity.isSome = true → u8 b 0 ≤ 1 →
    let s0 := found .c s
    let k : Payer := if u8 b 0 = 0 then .station else .fleet
    ∃ t, exec (.sessionOpen .c b) s =
        .next (replies .c .sessionOpen (if 22000 < u32 b 1 then .clamped else .ok) [] (takeReports s0 t)) ∧
      t.sc.record.number = (s.sc.record.number + 1) % 4294967296 ∧ t.sc.record.payer = k ∧
      t.sc.record.label = b.drop 6 ∧ t.sc.record.offer = min 22000 (u32 b 1) ∧ t.sc.record.pause = false ∧
      t.sc.record.closeReason = .noReason ∧ t.sc.record.openTime.unset = !s.ct.valid ∧
      (s.ct.valid = true → t.sc.record.openTime = ⟨false, s.ct.day, s.ct.sec⟩) ∧
      t.sc.state = .verifying ∧ t.sc.verify = some 30000 ∧ t.sc.gate = false ∧
      t.sc.hold = ⟨false, s.im.level = .unknown, s.fe.latest.any (fun x => x.tPack.mark = .missing),
        s.fe.latest.any (fun x => x.vBus < 500), false⟩ ∧
      t.sc.limits = s.sc.limits ∧ t.sc.validity = s.sc.validity ∧ t.sc.plug = s.sc.plug ∧ t.sc.lockout = s.sc.lockout ∧
      t.pc.pCmd = 0 ∧ t.pc.aH = allowanceOf (latestVBus s) t ∧
      t.ea = { s.ea with session := Account.zero, accruing := true } ∧
      t.ct.cost = 0 ∧ t.ct.reported = 0 ∧ t.ct.elapsed = 0 ∧ t.ct.price = priceOf k s ∧
      (∃ i, t.ct.interval = some i ∧ i.index = 0 ∧ i.openElapsed = 0 ∧ i.base = ⟨0, 0, 0, 0, 0⟩ ∧
        i.latched = s.cfg.billIntervalMin ∧
        i.flags = ⟨!s.ct.valid, (s.ct.kind k).active.isNone, false, false, false, false⟩ ∧
        (s.ct.valid = true → i.startDay = s.ct.day ∧ i.startSec = s.ct.sec) ∧ (s.ct.valid = false → i.startSec = 0)) ∧
      t.ct.held = s.ct.held ∧ t.ct.station = s.ct.station ∧ t.ct.fleet = s.ct.fleet ∧
      Raised .session t ∧ Fired .sessionOpened s t ∧ Fired .stateChanged s t ∧
      (s.im.runRequested = false → t.im = s.im ∧ t.fe = s.fe) ∧
      (s.im.runRequested = true → s.im.meas = .idle → s.im.running = true →
        t.im.meas = .phaseA ∧ t.im.counter = (s.im.counter + 1) % 4294967296 ∧ t.im.phase = some 3000 ∧
          t.fe.insA = true ∧ t.fe.insB = false) ∧
      (s.im.runRequested = true → s.im.meas ≠ .idle ∨ s.im.running = false →
        t.im = { s.im with request := true } ∧ t.fe = s.fe) ∧
      Touches [.sc, .pc, .hc, .ea, .ct, .ports, .se, .im, .fe, .free] s t

/-- With RESET_N high. VERIFICATION_TIMER_EXPIRY in VERIFYING lets the time left pass and closes the session with
VERIFY_TIMEOUT; in another state, or with the timer stopped, it does nothing. SESSION_CLOSE in VERIFYING, PREHEAT, CHARGING
and HOLD replies OK and closes with REQUESTED; in CLOSING it replies OK and changes nothing; in UNPLUGGED, CONNECTED and
LOCKED_OUT it is refused STATE, but replies OK and changes nothing where it falls together with the plug loss that closed the
session. A close at P_cmd 0 asks the final close at once. A close above 0 enters CLOSING with P_cmd, the accounts and the
interval as they were, SESSION raised and STATE_CHANGED fired. Premise for the closes at 0: the command-zero condition is
clear. (Log entries 2 and 3 for the timer, 43 for what falls together with a plug loss.) -/
def Obligations.ClosingWaitsForTheCommandToReachZero : Prop :=
  (∀ s : State, s.sc.state ≠ .verifying ∨ s.sc.verify = none → exec .verificationTimerExpiry s = .next s) ∧
  (∀ (s : State) (dt : Nat), s.resetLow = false → s.sc.state = .verifying → s.sc.verify = some dt →
    s.sc.commandZero = false → s.pc.pCmd = 0 →
    let u := elapse dt s
    ∃ t, exec .verificationTimerExpiry s = .next (takeReports u t) ∧ t.sc.record.closeReason = .verifyTimeout ∧
      t.sc.verify = none ∧ ClosedNow s.sc.plug u t) ∧
  (∀ s : State, s.resetLow = false →
    let s0 := found .c s
    (s.sc.state = .verifying ∨ s.sc.state = .preheat ∨ s.sc.state = .charging ∨ s.sc.state = .hold →
      (s.pc.pCmd = 0 → s.sc.commandZero = false →
        ∃ t, exec (.sessionClose .c []) s = .next (replies .c .sessionClose .ok [] (takeReports s0 t)) ∧
          t.sc.record.closeReason = .requested ∧ t.sc.verify = none ∧ ClosedNow s.sc.plug s0 t) ∧
      (0 < s.pc.pCmd →
        ∃ t, exec (.sessionClose .c []) s = .next (replies .c .sessionClose .ok [] (takeReports s0 t)) ∧
          t.sc = { s.sc with
            state := .closing, verify := none, record := { s.sc.record with closeReason := .requested } } ∧
          t.pc.pCmd = s.pc.pCmd ∧ Raised .session t ∧ Fired .stateChanged s t ∧
          FlagsBut [.session, .capture] s0 t ∧ Touches [.sc, .pc, .hc, .ports, .se, .free] s0 t)) ∧
    (s.sc.state = .closing → exec (.sessionClose .c []) s = .next (replies .c .sessionClose .ok [] s0)) ∧
    (s.sc.state = .unplugged ∨ s.sc.state = .connected ∨ s.sc.state = .lockedOut →
      exec (.sessionClose .c []) s = .next (replies .c .sessionClose (if s.sc.lossNow then .ok else .state) [] s0)))

/-- With RESET_N high, on port C. Outside an open session both are refused STATE and change nothing. OFFER_UPDATE of four
bytes stores the offer clamped to 22000 (CLAMPED, else OK), fires OFFER_CHANGED exactly if it differs, and in PREHEAT and
CHARGING, and in CLOSING while the result stays above 0, P_cmd becomes the least of itself, the new L_station and L_obc in
whole tens of W; in VERIFYING and HOLD P_cmd stays; the state stays. In CLOSING, where that result is 0, the final close is
asked. STATION_PAUSE of one byte writing the held value replies OK and changes nothing; else it writes pause flag and
STATION_PAUSE reason, and moves PREHEAT and CHARGING to HOLD with P_cmd 0, or a HOLD left without reason to CHARGING or
PREHEAT by the gate with P_cmd kept. -/
def Obligations.OfferAndPauseActAtOnce : Prop :=
  (∀ (b : List Byte) (s : State), s.resetLow = false → b.length = 4 →
    let s0 := found .c s
    let x := min 22000 (u32 b 0)
    let st : Status := if 22000 < u32 b 0 then .clamped else .ok
    let p := min s.pc.pCmd (min (x * s.cfg.obcEff / 1024) (lObcOf s)) / 10 * 10
    (s.sc.state.isOpen = false → exec (.offerUpdate .c b) s = .next (replies .c .offerUpdate .state [] s0)) ∧
    (s.sc.state.isOpen = true → s.sc.state ≠ .closing ∨ 0 < p ∨ s.sc.commandZero = true →
      ∃ t, exec (.offerUpdate .c b) s = .next (replies .c .offerUpdate st [] (takeReports s0 t)) ∧
        t.sc = { s.sc with record := { s.sc.record with offer := x } } ∧
        t.pc.pCmd = (if s.sc.state = .verifying ∨ s.sc.state = .hold then s.pc.pCmd else p) ∧
        t.pc.aH = allowanceOf (latestVBus s) t ∧
        (s.sc.record.offer ≠ x → Fired .offerChanged s t) ∧ (s.sc.record.offer = x → NotFired .offerChanged s t) ∧
        FlagsBut [.capture] s0 t ∧ Touches [.sc, .pc, .hc, .ports, .se, .free] s0 t) ∧
    (s.sc.state = .closing → p = 0 → s.sc.commandZero = false →
      ∃ t, exec (.offerUpdate .c b) s = .next (replies .c .offerUpdate st [] (takeReports s0 t)) ∧
        (s.sc.record.offer ≠ x → Fired .offerChanged s t) ∧ (s.sc.record.offer = x → NotFired .offerChanged s t) ∧
        ClosedNow s.sc.plug { s0 with sc := { s0.sc with record := { s0.sc.record with offer := x } } } t)) ∧
  ∀ (b : List Byte) (s : State), s.resetLow = false → b.length = 1 →
    let s0 := found .c s
    let x := decide (u8 b 0 ≠ 0)
    let hold : HoldSet := { s.sc.hold with stationPause := x }
    (s.sc.state.isOpen = false → exec (.stationPause .c b) s = .next (replies .c .stationPause .state [] s0)) ∧
    (s.sc.state.isOpen = true → s.sc.record.pause = x →
      exec (.stationPause .c b) s = .next (replies .c .stationPause .ok [] s0)) ∧
    (s.sc.state.isOpen = true → s.sc.record.pause ≠ x →
      ∃ t, exec (.stationPause .c b) s = .next (replies .c .stationPause .ok [] (takeReports s0 t)) ∧
        t.sc = { s.sc with
          record := { s.sc.record with pause := x }
          hold := hold
          state :=
            if s.sc.state = .hold ∧ hold.any = false then (if s.sc.gate then .charging else .preheat)
            else if (s.sc.state = .preheat ∨ s.sc.state = .charging) ∧ hold.any = true then .hold
            else s.sc.state } ∧
        t.pc.pCmd = (if t.sc.state = .hold ∧ s.sc.state ≠ .hold then 0 else s.pc.pCmd) ∧
        (t.sc.state ≠ s.sc.state → Raised .session t ∧ Fired .stateChanged s t) ∧
        FlagsBut [.session, .capture] s0 t ∧ Touches [.sc, .pc, .hc, .ports, .se, .free] s0 t)

/-- LOCKOUT_RELEASE on port V with RESET_N high. Outside LOCKED_OUT it is refused STATE with the set NOT_LOCKED alone (1). In
LOCKED_OUT, with LEVEL (2: level neither OK nor WARNING), FAULT_ENTRY (4: an entry of kind FAULT), TEMPERATURE (8: no sample
set, t_obc MISSING or not below DERATE_T_TRIP less 50) or FINAL_PENDING (16) holding, it is refused STATE with the sum of
those that hold; both leave the state but for the port unit. Otherwise it replies OK, the lockout reasons are emptied, the
state becomes CONNECTED or UNPLUGGED by the debounced plug level, SESSION is raised and STATE_CHANGED fires; P_cmd is 0 and
the leg stays as it is. -/
def Obligations.LockoutReleaseNamesWhatBlocksIt : Prop :=
  ∀ s : State, s.resetLow = false →
    let s0 := found .v s
    let level := s.im.level ≠ .ok ∧ s.im.level ≠ .warning
    let entry := ∃ e ∈ s.im.faults, e.kind = .fault
    let hot := ∀ x, s.fe.latest = some x → x.tObc.mark = .missing ∨ (s.cfg.derateTTrip : Int) - 50 ≤ x.tObc.value
    (s.sc.state ≠ .lockedOut →
      exec (.lockoutRelease .v []) s = .next (replies .v .lockoutRelease .state [1] s0)) ∧
    (s.sc.state = .lockedOut → level ∨ entry ∨ hot ∨ s.sc.finalPending = true →
      ∃ n : Nat, exec (.lockoutRelease .v []) s = .next (replies .v .lockoutRelease .state [BitVec.ofNat 8 n] s0) ∧
        n < 32 ∧ (n.testBit 0 = false) ∧ (n.testBit 1 = true ↔ level) ∧ (n.testBit 2 = true ↔ entry) ∧
        (n.testBit 3 = true ↔ hot) ∧ (n.testBit 4 = true ↔ s.sc.finalPending = true)) ∧
    (s.sc.state = .lockedOut → ¬ level → ¬ entry → ¬ hot → s.sc.finalPending = false →
      ∃ t, exec (.lockoutRelease .v []) s = .next (replies .v .lockoutRelease .ok [] (takeReports s0 t)) ∧
        t.sc = { s.sc with
          lockout := ⟨false, false⟩
          state := match s.sc.plug with | .present => .connected | .absent => .unplugged } ∧
        t.pc.pCmd = 0 ∧ t.pc.aH = allowanceOf (latestVBus s) t ∧ t.hc.leg = s.hc.leg ∧
        Raised .session t ∧ Fired .stateChanged s t ∧ FlagsBut [.session, .capture] s0 t ∧
        Touches [.sc, .pc, .hc, .ports, .se, .free] s0 t)

/-- The shared operation by which a level change into FAULT and a derate change into TRIP lock the part out. From any other
state the state becomes LOCKED_OUT, the reason joins the set, the verification timer stops, command-zero is clear, the hold
reasons are empty, P_cmd and A_h are 0, no element is on, a connected or connecting leg is DISCONNECTED, SESSION is raised
and STATE_CHANGED fires. If a session was open and still accruing it accrues no more, its close reason is LOCKOUT, its
interval ends, and its record, with reason FINAL and the LOCKOUT flag, is placed where it finds room and else kept pending
with FINAL_PENDING; else the close reason stays and a record already pending gains LOCKOUT. In LOCKED_OUT a new reason is
added with SESSION raised, a standing one changes nothing. (Log entry 15 for the record already pending.) -/
def Obligations.LockoutClosesTheSessionAndStopsPower : Prop :=
  ∀ (r : LockoutReason) (s : State),
    let t := enterLockout r s
    t.sc.state = .lockedOut ∧ t.sc.lockout = s.sc.lockout.add r ∧
    (s.sc.state ≠ .lockedOut →
      t.sc.verify = none ∧ t.sc.commandZero = false ∧ t.sc.hold.any = false ∧ t.pc.pCmd = 0 ∧ t.pc.aH = 0 ∧
      t.hc.e1.isOn = false ∧ t.hc.e2.isOn = false ∧ t.hc.diagnosis = false ∧
      (s.hc.leg = .connected ∨ s.hc.leg = .connecting → t.hc.leg = .disconnected) ∧
      Raised .session t ∧ Fired .stateChanged s t ∧ chgEn t = false ∧
      (s.sc.state.isOpen = true → t.sc.record.pause = false) ∧
      (s.sc.state.isOpen = true → s.ea.accruing = true →
        t.ea = { s.ea with accruing := false } ∧ t.sc.record.closeReason = .lockout ∧ t.ct.interval = none ∧
        t.sc.finalPending = !finalPlaced s ∧ t.ct.finalRecord.isSome = !finalPlaced s ∧
        ∀ i, s.ct.interval = some i →
          (placeable s = true → RecordPlaced .final true i s t) ∧
          (placeable s = false → t.ct.finalRecord = some (formRecord .final true i s) ∧ t.rs = s.rs ∧
            t.ct.held = s.ct.held ∧ Raised .billing t)) ∧
      (s.sc.state.isOpen = false ∨ s.ea.accruing = false →
        t.ea = s.ea ∧ t.sc.record.closeReason = s.sc.record.closeReason ∧ t.sc.finalPending = s.sc.finalPending ∧
        t.ct.finalRecord = s.ct.finalRecord.map fun f => { f with lockout := true })) ∧
    (s.sc.state = .lockedOut → s.sc.lockout.has r = true → t = s) ∧
    (s.sc.state = .lockedOut → s.sc.lockout.has r = false →
      Raised .session t ∧ Touches [.sc, .ports] s t ∧ t.sc = { s.sc with lockout := s.sc.lockout.add r }) ∧
    t.fe = s.fe ∧ t.im = s.im ∧ t.cfg = s.cfg

/-- At a PC_UPDATE with a due set and RESET_N high, the derate state becomes TRIP, HOT or WARM, the highest whose entry
threshold t_obc has reached, or, of those not above the state held, whose threshold less 50 it has reached, else NORMAL. A
MISSING t_obc gives HOT, but leaves TRIP. A change raises DERATE in all ports and fires DERATE_CHANGED; without one neither
happens. A change into TRIP puts the part in LOCKED_OUT with reason OVERTEMP, P_cmd 0 and A_h 0. While LOCKED_OUT, an update
without a change into TRIP leaves the session controller as it is: a fall out of TRIP does not end the lockout. At a
PC_UPDATE with a due set and RESET_N high, the energy Hg + Bg of the set joins the used energy and the window count rises by
1; if the count then equals the window's length, both return to 0. The first set of a window latches the length,
DERATE_WINDOW_S times 10, and later ones keep it. The energy is what the energy account's allocation gives Hg and Bg from the
same set. The exhaustion flag is then set exactly in WARM with the used energy at least ALLOW_WARM Wh, or in HOT with at
least ALLOW_HOT Wh. DERATE_WINDOW_END is that update where it completes the window, and nothing otherwise (log entry 4). -/
def Obligations.DerateStateAndWindowFollowTheSet : Prop :=
  (∀ (s : State) (x : SampleSet), s.resetLow = false → s.fe.latest = some x → s.fe.duePc = true →
    let v := x.tObc.value
    let held := s.pc.derate
    let warm : Int := s.cfg.derateTWarm
    let hot : Int := s.cfg.derateTHot
    let trip : Int := s.cfg.derateTTrip
    let d : Derate :=
      if x.tObc.mark = .missing then (if held = .trip then .trip else .hot)
      else if trip ≤ v ∨ (held = .trip ∧ trip - 50 ≤ v) then .trip
      else if hot ≤ v ∨ ((held = .trip ∨ held = .hot) ∧ hot - 50 ≤ v) then .hot
      else if warm ≤ v ∨ (held ≠ .normal ∧ warm - 50 ≤ v) then .warm
      else .normal
    ∃ t, exec .pcUpdate s = .next (takeReports s t) ∧ t.pc.derate = d ∧
      (d ≠ held → Raised .derate t ∧ Fired .derateChanged s t) ∧
      (d = held → NotFired .derateChanged s t ∧
        ∀ p, flagSet .derate (t.ports.get p).flags = flagSet .derate (s.ports.get p).flags) ∧
      (d = .trip → held ≠ .trip → t.sc.state = .lockedOut ∧ t.sc.lockout.overtemp = true ∧ t.pc.pCmd = 0 ∧ t.pc.aH = 0) ∧
      (d ≠ .trip ∨ held = .trip → s.sc.state = .lockedOut → t.sc = s.sc)) ∧
  ((∀ (s : State) (x : SampleSet), s.resetLow = false → s.fe.latest = some x → s.fe.duePc = true →
    let len := if s.pc.windowCount = 0 then s.cfg.derateWindowS * 10 else s.pc.windowLen
    let g := x.pIn.toNat * 1000
    let hg := min (x.vBus * x.iHeat) g
    let bg := min (x.vBus * x.iBat.toNat * 10) (g - hg)
    ∃ t, exec .pcUpdate s = .next (takeReports s t) ∧ t.pc.windowLen = len ∧
      (s.pc.windowCount + 1 = len → t.pc.windowCount = 0 ∧ t.pc.used = 0) ∧
      (s.pc.windowCount + 1 ≠ len → t.pc.windowCount = s.pc.windowCount + 1 ∧ t.pc.used = s.pc.used + (hg + bg)) ∧
      hg = (sharesOf x).hg ∧ bg = (sharesOf x).bg ∧
      (t.pc.exhausted = true ↔
        (t.pc.derate = .warm ∧ s.cfg.allowWarm * 36000000 ≤ t.pc.used) ∨
        (t.pc.derate = .hot ∧ s.cfg.allowHot * 36000000 ≤ t.pc.used))) ∧
  ∀ s : State,
    exec .derateWindowEnd s =
      if s.pc.windowCount + 1 = (if s.pc.windowCount = 0 then s.cfg.derateWindowS * 10 else s.pc.windowLen)
      then exec .pcUpdate s else .next s)

/-- A PC_UPDATE with a due set and RESET_N high that does not bring the derate state into TRIP. L_station is floor(offer ×
OBC_EFF / 1024). L_obc is 0 if exhausted or in TRIP, half OBC_PMAX in HOT, else OBC_PMAX. B_req is 0 in PREHEAT, without
valid LIMITS or with v_bus at least V_bmax, else floor(v_bus × I_bmax / 100). In PREHEAT and CHARGING, A_h is the lesser
limit less B_req, at least 0, and P_cmd moves towards T = min(L_station, L_obc, B_req + H_on): up by at most RAMP_STEP, down
at once, not up while a phase holds, in whole tens. In other states but CLOSING P_cmd is 0 and A_h is P_heat_batt while
LIMITS is valid, 0 in LOCKED_OUT and otherwise. Elements are fitted where A_h changes. The session controller and every other
block stay; no notice but DERATE and CAPTURE changes. -/
def Obligations.SetpointFollowsTheStages : Prop :=
  ∀ (s : State) (x : SampleSet), s.resetLow = false → s.fe.latest = some x → s.fe.duePc = true → s.sc.state ≠ .closing →
    (derateAfter s.cfg x.tObc s.pc.derate = .trip → s.pc.derate = .trip) →
    ∃ t, exec .pcUpdate s = .next (takeReports s t) ∧
      t.pc.lStation = s.sc.record.offer * s.cfg.obcEff / 1024 ∧
      t.pc.lObc = (if t.pc.exhausted = true ∨ t.pc.derate = .trip then 0
        else if t.pc.derate = .hot then s.cfg.obcPmax / 2 else s.cfg.obcPmax) ∧
      (s.sc.state = .preheat ∨ s.sc.limits = none ∨ s.sc.validity = none → t.pc.bReq = 0) ∧
      (∀ l, s.sc.limits = some l →
        (l.vBmax ≤ x.vBus → t.pc.bReq = 0) ∧
        (s.sc.state ≠ .preheat → s.sc.validity ≠ none → x.vBus < l.vBmax → t.pc.bReq = x.vBus * l.iBmax / 100)) ∧
      (s.sc.state = .preheat ∨ s.sc.state = .charging →
        let top := min t.pc.lStation (min t.pc.lObc (t.pc.bReq + s.hc.hOn))
        let p := if s.pc.pCmd ≤ top then min top (s.pc.pCmd + s.cfg.rampStep) else top
        let q := if s.im.meas = .phaseA ∨ s.im.meas = .phaseB then min p s.pc.pCmd else p
        t.pc.pCmd = q / 10 * 10 ∧ t.pc.aH = min t.pc.lStation t.pc.lObc - t.pc.bReq) ∧
      (s.sc.state ≠ .preheat → s.sc.state ≠ .charging → t.pc.pCmd = 0 ∧
        (s.sc.state = .lockedOut ∨ s.sc.limits = none ∨ s.sc.validity = none → t.pc.aH = 0) ∧
        (∀ l, s.sc.state ≠ .lockedOut → s.sc.limits = some l → s.sc.validity ≠ none → t.pc.aH = l.pHeatBatt)) ∧
      t.hc = (if t.pc.aH = s.pc.aH then s.hc else s.hc.fit t.pc.aH) ∧ t.pc.duty = s.pc.duty ∧ t.pc.pwmMs = s.pc.pwmMs ∧
      FlagsBut [.derate, .capture] s t ∧ Touches [.fe, .pc, .hc, .ports, .se, .free] s t

/-- A PC_UPDATE in CLOSING with a due set and RESET_N high that does not bring the derate state into TRIP: P is the least of
L_station, L_obc and P_cmd less CLOSE_RAMP_STEP (at least 0), P_cmd the whole tens of it. While that is above 0, or once
command- zero is set, P_cmd takes that value, A_h is P_heat_batt while LIMITS is valid and else 0, and the session controller
stays. The first that leaves 0 is the event of the final close: accrual and interval end, and the session ends by the plug
level, or waits with FINAL_PENDING. -/
def Obligations.ClosingStepsDownToTheFinalClose : Prop :=
  ∀ (s : State) (x : SampleSet), s.resetLow = false → s.fe.latest = some x → s.fe.duePc = true → s.sc.state = .closing →
    (derateAfter s.cfg x.tObc s.pc.derate = .trip → s.pc.derate = .trip) →
    ∃ t, exec .pcUpdate s = .next (takeReports s t) ∧
      let lObc := if t.pc.exhausted = true ∨ t.pc.derate = .trip then 0
        else if t.pc.derate = .hot then s.cfg.obcPmax / 2 else s.cfg.obcPmax
      let p := min (s.pc.pCmd - s.cfg.closeRampStep) (min (s.sc.record.offer * s.cfg.obcEff / 1024) lObc) / 10 * 10
      (0 < p ∨ s.sc.commandZero = true →
        t.pc.pCmd = p ∧ t.pc.aH = pHeatBatt s ∧ t.sc = s.sc ∧
        t.hc = (if t.pc.aH = s.pc.aH then s.hc else s.hc.fit t.pc.aH) ∧
        Touches [.fe, .pc, .hc, .ports, .se, .free] s t) ∧
      (p = 0 → s.sc.commandZero = false → ClosedNow s.sc.plug s t)

/-- At an HC_SAMPLE_TAKING with a due set and RESET_N high, each element's rated power is floor(v_bus² / (10 × RES)) and its
expected current floor(v_bus × 100 / RES). Its hot condition is set by MISSING or 1200 and above, cleared below 1100, else
kept; set, the element is HOT_LOCK or DISABLED and not driven; clear, it is not in HOT_LOCK. The thermostat flag is clear
with mode OFF, a MISSING t_pack or t_pack at least the target, set below target less HEAT_BAND, else kept. HEATER_SENSOR is
set exactly by a MISSING t_pack; its setting raises HEATER and fires HEATER_EVENT, and no element is then on. Mode and target
stay. No notice but HEATER and CAPTURE changes, and of the blocks only the heater, the front end and the signals. (Log entry
22 for MISSING with mode OFF.) -/
def Obligations.HeaterTakesRatingsHotAndThermostat : Prop :=
  ∀ (s : State) (x : SampleSet), s.resetLow = false → s.fe.latest = some x → s.fe.dueHc = true →
    let hot (r : TempReading) (old : Bool) : Prop := r.mark = .missing ∨ 1200 ≤ r.value ∨ (1100 ≤ r.value ∧ old = true)
    ∃ t, exec .hcSampleTaking s = .next (takeReports s t) ∧
      t.hc.e1.rated = x.vBus * x.vBus / (10 * s.cfg.resE1) ∧ t.hc.e1.current = x.vBus * 100 / s.cfg.resE1 ∧
      t.hc.e2.rated = x.vBus * x.vBus / (10 * s.cfg.resE2) ∧ t.hc.e2.current = x.vBus * 100 / s.cfg.resE2 ∧
      (t.hc.e1.hot = true ↔ hot x.tEl1 s.hc.e1.hot) ∧ (t.hc.e2.hot = true ↔ hot x.tEl2 s.hc.e2.hot) ∧
      (∀ k, ((t.hc.get k).hot = true → (t.hc.get k).state = .hotLock ∨ (t.hc.get k).state = .disabled) ∧
        ((t.hc.get k).hot = false → (t.hc.get k).state ≠ .hotLock) ∧
        ((s.hc.get k).state = .disabled → (t.hc.get k).state = .disabled)) ∧
      (t.hc.thermostat = true ↔ s.hc.mode = true ∧ x.tPack.mark ≠ .missing ∧ x.tPack.value < s.hc.target ∧
        (x.tPack.value < s.hc.target - s.cfg.heatBand ∨ s.hc.thermostat = true)) ∧
      (t.hc.sensor = true ↔ x.tPack.mark = .missing) ∧
      (x.tPack.mark = .missing → heaterOff t) ∧
      (x.tPack.mark = .missing → s.hc.sensor = false → Raised .heater t ∧ Fired .heaterEvent s t) ∧
      t.hc.mode = s.hc.mode ∧ t.hc.target = s.hc.target ∧
      FlagsBut [.heater, .capture] s t ∧ Touches [.fe, .hc, .ports, .se, .free] s t

/-- At an HC_SAMPLE_TAKING with a due set and RESET_N high: afterwards H_on is at most A_h. An element comes on only if the
thermostat flag is set, the leg was CONNECTED, it had been off 1 s, no phase holds, the localise hold is clear and the state
is not LOCKED_OUT; then its dwell restarts, blanking runs 300 ms and the idle timer stops. With the flag clear an element
whose ON dwell is complete goes off. An element that stays within the allowance, inside its ON dwell and cool, with no check
run and t_pack not MISSING, stays on. With both elements OFF, cool and free to come on, and the flag set, those come on that
R62 selects: both if their sum fits, else the largest that fits alone, E1 on a tie, never one of rated power 0. -/
def Obligations.SelectionKeepsWithinTheAllowance : Prop :=
  ∀ (s : State) (x : SampleSet), s.resetLow = false → s.fe.latest = some x → s.fe.dueHc = true →
    let p1 := x.vBus * x.vBus / (10 * s.cfg.resE1)
    let p2 := x.vBus * x.vBus / (10 * s.cfg.resE2)
    let free := s.hc.leg = .connected ∧ s.im.inPhase = false ∧ s.hc.localiseHold = false ∧ s.sc.state ≠ .lockedOut
    ∃ t, exec .hcSampleTaking s = .next (takeReports s t) ∧ t.hc.hOn ≤ t.pc.aH ∧
      (∀ k, (s.hc.get k).isOn = false → (t.hc.get k).isOn = true →
        free ∧ t.hc.thermostat = true ∧ 1000 ≤ (s.hc.get k).dwell ∧
        (t.hc.get k).dwell = 0 ∧ t.hc.blanking = some 300 ∧ t.hc.idle = none) ∧
      (∀ k, t.hc.thermostat = false → 1000 ≤ (s.hc.get k).dwell → (t.hc.get k).isOn = false) ∧
      ((if s.hc.e1.isOn then p1 else 0) + (if s.hc.e2.isOn then p2 else 0) ≤ s.pc.aH → s.hc.blanking.isSome = true →
        x.tPack.mark ≠ .missing →
        ∀ k, (s.hc.get k).isOn = true → (t.hc.get k).hot = false → (s.hc.get k).dwell < 1000 →
          (t.hc.get k).isOn = true ∧ (t.hc.get k).dwell = (s.hc.get k).dwell) ∧
      (free → t.hc.thermostat = true → s.hc.e1.state = .off → s.hc.e2.state = .off → t.hc.e1.hot = false →
        t.hc.e2.hot = false → s.hc.diagnosis = false → 1000 ≤ s.hc.e1.dwell → 1000 ≤ s.hc.e2.dwell →
        (t.hc.e1.isOn = true ↔ 0 < p1 ∧ (p1 + p2 ≤ s.pc.aH ∨ (p1 ≤ s.pc.aH ∧ (p2 ≤ p1 ∨ s.pc.aH < p2)))) ∧
        (t.hc.e2.isOn = true ↔ 0 < p2 ∧ (p1 + p2 ≤ s.pc.aH ∨ (p2 ≤ s.pc.aH ∧ (p1 < p2 ∨ s.pc.aH < p1)))))

/-- At an HC_SAMPLE_TAKING with a due set and RESET_N high: from DISCONNECTED the leg becomes CONNECTING, with 200 ms to run,
exactly if the thermostat flag is set, the settle timer is not running, no phase holds, the localise hold is clear and the
state is not LOCKED_OUT, and stays DISCONNECTED otherwise. ISOLATED stays. CONNECTING and CONNECTED stay, or become
DISCONNECTED with the settle timer at 200 ms, both elements DISABLED with cause OVERCURRENT. With RESET_N high.
CONNECT_TIMER_EXPIRY lets the time left pass and makes the leg CONNECTED with the idle timer from 0. BLANKING_TIMER_EXPIRY
lets the time left pass and stops that timer. IDLE_TIMER_EXPIRY, with HEAT_IDLE_S above 0 and none deferred, lets the time
left to the limit pass; while a phase holds the disconnect waits, else a connected leg with no element on becomes
DISCONNECTED with the settle timer at 200 ms and the idle timer stopped. DEFERRED_IDLE_DISCONNECT, once no phase holds, does
that if the leg is still CONNECTED with no element on, and drops the wait otherwise. Nothing else changes. Without a running
timer, or with none deferred, or with a phase holding, each does nothing. (Log entries 2 and 3.) -/
def Obligations.LegConnectsWhenFreeAndByItsTimers : Prop :=
  (∀ (s : State) (x : SampleSet), s.resetLow = false → s.fe.latest = some x → s.fe.dueHc = true →
    ∃ t, exec .hcSampleTaking s = .next (takeReports s t) ∧
      (s.hc.leg = .disconnected →
        let starts := t.hc.thermostat = true ∧ s.hc.settle = none ∧ s.im.inPhase = false ∧ s.hc.localiseHold = false ∧
          s.sc.state ≠ .lockedOut
        (starts → t.hc.leg = .connecting ∧ t.hc.connect = some 200) ∧ (¬ starts → t.hc.leg = .disconnected)) ∧
      (s.hc.leg = .isolated → t.hc.leg = .isolated) ∧
      (s.hc.leg = .connecting ∨ s.hc.leg = .connected →
        (t.hc.leg = s.hc.leg ∧ t.hc.connect = s.hc.connect ∧ t.hc.settle = s.hc.settle) ∨
        (t.hc.leg = .disconnected ∧ t.hc.connect = none ∧ t.hc.settle = some 200 ∧ t.hc.idle = none ∧
          ∀ k, (t.hc.get k).state = .disabled ∧ (t.hc.get k).cause = .overcurrent))) ∧
  ((∀ s : State, (s.hc.connect = none → exec .connectTimerExpiry s = .next s) ∧
    (s.hc.blanking = none → exec .blankingTimerExpiry s = .next s) ∧
    (s.hc.idle = none ∨ s.cfg.heatIdleS = 0 ∨ s.hc.idleDeferred = true → exec .idleTimerExpiry s = .next s) ∧
    (s.hc.idleDeferred = false ∨ s.im.inPhase = true → exec .deferredIdleDisconnect s = .next s)) ∧
  ∀ (s : State) (n : Nat), s.resetLow = false →
    let u := elapse n s
    let apart (h : Heater) : Heater :=
      { h with leg := .disconnected, settle := some 200, connect := none, idle := none, idleDeferred := false }
    (s.hc.connect = some n →
      exec .connectTimerExpiry s = .next { u with hc := { u.hc with leg := .connected, connect := none, idle := some 0 } }) ∧
    (s.hc.blanking = some n → exec .blankingTimerExpiry s = .next { u with hc := { u.hc with blanking := none } }) ∧
    (∀ i, s.hc.idle = some i → 0 < s.cfg.heatIdleS → s.hc.idleDeferred = false → n = s.cfg.heatIdleS * 1000 - i →
      (s.im.inPhase = true → exec .idleTimerExpiry s = .next { u with hc := { u.hc with idleDeferred := true } }) ∧
      (s.im.inPhase = false → s.hc.leg = .connected → heaterOff s →
        exec .idleTimerExpiry s = .next { u with hc := apart u.hc })) ∧
    (s.hc.idleDeferred = true → s.im.inPhase = false →
      (s.hc.leg = .connected → heaterOff s → exec .deferredIdleDisconnect s = .next { s with hc := apart s.hc }) ∧
      (s.hc.leg ≠ .connected ∨ ¬ heaterOff s →
        exec .deferredIdleDisconnect s = .next { s with hc := { s.hc with idleDeferred := false } })))

/-- At an HC_SAMPLE_TAKING with a due set, RESET_N high, cool elements, the thermostat flag staying set, both rated powers
above 0 and together within A_h, and an element on. With blanking run out and v_bus at least 500: above 5/4 of I_exp both
elements are DISABLED with cause OVERCURRENT and a closed leg opens. Below 3/4, with both on, E2 goes off, E1 stays on and
the diagnosis begins, without notice; with E1 alone on E1 is DISABLED with cause OPEN and the diagnosis ends; with E2 alone
on E2 is. In between, a diagnosis ends with E2 DISABLED OPEN; without one, causes and ports stay. Each DISABLED raises HEATER
and fires HEATER_EVENT. With blanking running or v_bus below 500 no check runs: causes and ports stay. -/
def Obligations.CurrentCheckFindsTheFaultyElement : Prop :=
  ∀ (s : State) (x : SampleSet), s.resetLow = false → s.fe.latest = some x → s.fe.dueHc = true →
    let cool (r : TempReading) (e : Element) : Prop :=
      r.mark ≠ .missing ∧ (r.value < 1100 ∨ (r.value < 1200 ∧ e.hot = false))
    let p1 := x.vBus * x.vBus / (10 * s.cfg.resE1)
    let p2 := x.vBus * x.vBus / (10 * s.cfg.resE2)
    let expected := (if s.hc.e1.isOn then x.vBus * 100 / s.cfg.resE1 else 0) +
      (if s.hc.e2.isOn then x.vBus * 100 / s.cfg.resE2 else 0)
    cool x.tEl1 s.hc.e1 → cool x.tEl2 s.hc.e2 → x.tPack.mark ≠ .missing → s.hc.mode = true → s.hc.thermostat = true →
    x.tPack.value < s.hc.target → 0 < p1 → 0 < p2 → p1 + p2 ≤ s.pc.aH → (s.hc.e1.isOn = true ∨ s.hc.e2.isOn = true) →
    let runs := s.hc.blanking = none ∧ 500 ≤ x.vBus
    let low := 4 * x.iHeat < 3 * expected
    let high := 5 * expected < 4 * x.iHeat
    ∃ t, exec .hcSampleTaking s = .next (takeReports s t) ∧
      (runs → high → (∀ k, (t.hc.get k).state = .disabled ∧ (t.hc.get k).cause = .overcurrent) ∧ t.hc.diagnosis = false ∧
        (s.hc.leg = .connected ∨ s.hc.leg = .connecting → t.hc.leg = .disconnected ∧ t.hc.settle = some 200) ∧
        Raised .heater t ∧ Fired .heaterEvent s t) ∧
      (runs → low → s.hc.e1.isOn = true → s.hc.e2.isOn = true →
        t.hc.e1.isOn = true ∧ t.hc.e2.state = .off ∧ t.hc.e2.dwell = 0 ∧ t.hc.diagnosis = true ∧
        t.hc.blanking = some 300 ∧ t.ports = s.ports ∧ t.se = s.se) ∧
      (runs → low → s.hc.e1.isOn = true → s.hc.e2.isOn = false →
        t.hc.e1.state = .disabled ∧ t.hc.e1.cause = .openCircuit ∧ t.hc.diagnosis = false ∧
        Raised .heater t ∧ Fired .heaterEvent s t) ∧
      (runs → low → s.hc.e1.isOn = false →
        t.hc.e2.state = .disabled ∧ t.hc.e2.cause = .openCircuit ∧ Raised .heater t ∧ Fired .heaterEvent s t) ∧
      (runs → ¬ low → ¬ high → s.hc.diagnosis = true →
        t.hc.e2.state = .disabled ∧ t.hc.e2.cause = .openCircuit ∧ t.hc.diagnosis = false ∧
        Raised .heater t ∧ Fired .heaterEvent s t) ∧
      (¬ runs ∨ (¬ low ∧ ¬ high ∧ s.hc.diagnosis = false) →
        t.hc.e1.cause = s.hc.e1.cause ∧ t.hc.e2.cause = s.hc.e2.cause ∧ t.ports = s.ports ∧ t.se = s.se)

/-- A HEAT_REQUEST of three bytes on port V with RESET_N high. A mode code above 1 is refused INVALID and changes nothing.
Else the target is clamped to -300..450, CLAMPED if it was clamped and OK if not, with an empty body. A request equal to the
stored one changes nothing. Another replaces mode and target; the thermostat flag is then evaluated against t_pack of the
latest set, and without a set is cleared by mode OFF and kept otherwise. A t_pack that carries a value clears HEATER_SENSOR
and turns nothing on or off. A MISSING one clears the flag, sets HEATER_SENSOR, raising HEATER if it was clear, and turns the
elements off. (Log entries 13 and 22.) A HEATER_RESTORE of one byte on port V with RESET_N high. A selector that is empty or
names anything but E1 (1), E2 (2) and LEG (4) is refused INVALID; else it is refused BUSY under the localise hold; else STATE
if no named element is DISABLED and no named leg ISOLATED. A refused request changes nothing but the port unit. Otherwise it
is answered OK with the sum of the items restored: each named DISABLED element becomes HOT_LOCK if hot, else OFF, its cause
none; a named ISOLATED leg becomes DISCONNECTED. HEATER is raised and HEATER_EVENT fires. No other heater state, and no other
block but the signals, changes. -/
def Obligations.HeatRequestAndRestoreActAtOnce : Prop :=
  (∀ (b : List Byte) (s : State), s.resetLow = false → b.length = 3 →
    let s0 := found .v s
    let mode := decide (u8 b 0 = 1)
    let target := clampInt (-300) 450 (s16 b 1)
    let st : Status := if target = s16 b 1 then .ok else .clamped
    (1 < u8 b 0 → exec (.heatRequest .v b) s = .next (replies .v .heatRequest .invalid [] s0)) ∧
    (u8 b 0 ≤ 1 → s.hc.mode = mode → s.hc.target = target →
      exec (.heatRequest .v b) s = .next (replies .v .heatRequest st [] s0)) ∧
    (u8 b 0 ≤ 1 → ¬ (s.hc.mode = mode ∧ s.hc.target = target) →
      ∃ t, exec (.heatRequest .v b) s = .next (replies .v .heatRequest st [] (takeReports s0 t)) ∧
        t.hc.mode = mode ∧ t.hc.target = target ∧
        (s.fe.latest = none → t = { s0 with hc := { s.hc with
          mode := mode, target := target, thermostat := mode && s.hc.thermostat } }) ∧
        (∀ x, s.fe.latest = some x → x.tPack.mark ≠ .missing →
          t = { s0 with hc := { s.hc with
            mode := mode
            target := target
            thermostat := decide (mode = true ∧ x.tPack.value < target ∧
              (x.tPack.value < target - s.cfg.heatBand ∨ s.hc.thermostat = true))
            sensor := false } }) ∧
        (∀ x, s.fe.latest = some x → x.tPack.mark = .missing →
          t.hc.thermostat = false ∧ t.hc.sensor = true ∧ heaterOff t ∧
          (s.hc.sensor = false → Raised .heater t ∧ Fired .heaterEvent s t) ∧
          FlagsBut [.heater, .capture] s0 t ∧ Touches [.hc, .ports, .se, .free] s0 t))) ∧
  (∀ (b : List Byte) (s : State), s.resetLow = false → b.length = 1 →
    let s0 := found .v s
    let n := u8 b 0
    let r1 := n.testBit 0 = true ∧ s.hc.e1.state = .disabled
    let r2 := n.testBit 1 = true ∧ s.hc.e2.state = .disabled
    let rl := n.testBit 2 = true ∧ s.hc.leg = .isolated
    let restored (e : Element) : Element := { e with state := if e.hot then .hotLock else .off, cause := .noCause }
    (n = 0 ∨ 7 < n → exec (.heaterRestore .v b) s = .next (replies .v .heaterRestore .invalid [] s0)) ∧
    (0 < n → n ≤ 7 → s.hc.localiseHold = true →
      exec (.heaterRestore .v b) s = .next (replies .v .heaterRestore .busy [] s0)) ∧
    (0 < n → n ≤ 7 → s.hc.localiseHold = false → ¬ r1 → ¬ r2 → ¬ rl →
      exec (.heaterRestore .v b) s = .next (replies .v .heaterRestore .state [] s0)) ∧
    (0 < n → n ≤ 7 → s.hc.localiseHold = false → r1 ∨ r2 ∨ rl →
      ∃ t, exec (.heaterRestore .v b) s =
          .next (replies .v .heaterRestore .ok [BitVec.ofNat 8 ((if r1 then 1 else 0) + (if r2 then 2 else 0) +
            (if rl then 4 else 0))] t) ∧
        t.hc = { s.hc with
          e1 := if r1 then restored s.hc.e1 else s.hc.e1
          e2 := if r2 then restored s.hc.e2 else s.hc.e2
          leg := if rl then .disconnected else s.hc.leg } ∧
        Raised .heater t ∧ Fired .heaterEvent s t ∧ FlagsBut [.heater, .capture] s0 t ∧
        Touches [.hc, .ports, .se, .free] s0 t))

/-- With RESET_N high. INS_START on V replies OK, sets RUN_REQUESTED and, at a latest v_bus of at least 500, begins RUNNING;
set already, it changes nothing. INS_STOP on V replies OK, clears RUN_REQUESTED, RUNNING and the pending request, sets the
countdown to a full stopped period and ends a measurement without a result: both switches open, IDLE; a localisation is
abandoned, with RELEASE, the worse run 1 with floor FAULT, its record cleared. A due IM_SAMPLE_TAKING begins RUNNING where
RUN_REQUESTED is set and v_bus is at least 500, and ends it otherwise; else it changes nothing. A beginning restarts the
countdown, and serves a pending request by a start if IDLE. An end by a bus below 500 stops the countdown, and ends a
measurement with an invalid result BUS_LOW offered to the INSULATION stream; the pending request stays. (Log entry 16 for its
number in LOCALISING.) -/
def Obligations.RunningFollowsTheRequestAndTheBus : Prop :=
  (∀ s : State, s.resetLow = false →
    let s0 := found .v s
    let begun (w : State) : State := { w with im := { w.im with
      runRequested := true, running := true, cycleRun := true, cycleLeft := s.cfg.insPeriodS * 1000 } }
    (s.im.runRequested = true → exec (.insStart .v []) s = .next (replies .v .insStart .ok [] s0)) ∧
    (s.im.runRequested = false → latestVBus s < 500 →
      exec (.insStart .v []) s =
        .next (replies .v .insStart .ok [] { s0 with im := { s.im with runRequested := true } })) ∧
    (s.im.runRequested = false → 500 ≤ latestVBus s → s.im.request = false ∨ s.im.meas ≠ .idle →
      exec (.insStart .v []) s = .next (replies .v .insStart .ok [] (begun s0))) ∧
    (s.im.runRequested = false → 500 ≤ latestVBus s → s.im.request = true → s.im.meas = .idle →
      ∃ t, exec (.insStart .v []) s = .next (replies .v .insStart .ok [] t) ∧ Started false (begun s0) t)) ∧
  (∀ s : State, s.resetLow = false →
    let s0 := found .v s
    let localises := s.im.meas = .localising ∨ (s.im.meas ≠ .idle ∧ s.im.localise = true)
    ∃ t, exec (.insStop .v []) s = .next (replies .v .insStop .ok [] t) ∧
      t.im = { s.im with
        runRequested := false, running := false, cycleRun := false, cycleLeft := s.cfg.insPeriodS * 1000
        request := false, meas := .idle, phase := none, window := [], va := none
        worse := if localises then ⟨1, .fault⟩ else s.im.worse
        locRecord := if localises then none else s.im.locRecord } ∧
      t.hc = (if localises then { s.hc with localiseHold := false } else s.hc) ∧
      t.fe.insA = false ∧ t.fe.insB = false ∧ t.fe.latest = s.fe.latest ∧ Touches [.im, .hc, .fe] s0 t) ∧
  ∀ (s : State) (x : SampleSet), s.resetLow = false → s.fe.latest = some x → s.fe.dueIm = true →
    let s1 : State := { s with fe := { s.fe with dueIm := false } }
    let begun : State := { s1 with im := { s.im with
      running := true, cycleRun := true, cycleLeft := s.cfg.insPeriodS * 1000 } }
    let holds := s.im.runRequested = true ∧ 500 ≤ x.vBus
    ((holds ↔ s.im.running = true) → exec .imSampleTaking s = .next s1) ∧
    (holds → s.im.running = false → s.im.request = false ∨ s.im.meas ≠ .idle → exec .imSampleTaking s = .next begun) ∧
    (holds → s.im.running = false → s.im.request = true → s.im.meas = .idle →
      ∃ t, exec .imSampleTaking s = .next t ∧ Started false begun t) ∧
    (¬ holds → s.im.running = true → s.im.meas = .idle →
      exec .imSampleTaking s = .next { s1 with im := { s.im with running := false, cycleRun := false } }) ∧
    (¬ holds → s.im.running = true → s.im.meas ≠ .idle →
      ∃ t r, exec .imSampleTaking s = .next t ∧ t.im.last = some r ∧ Offered r s t ∧ r.valid = false ∧ r.reason = .busLow ∧
        r.number = s.im.number ∧ r.figures = ⟨0, 0, x.vBus⟩ ∧ r.cls = .noClass ∧
        r.va = (s.im.va.getD (0, 0)).1 ∧ r.settleA = (s.im.va.getD (0, 0)).2 ∧ r.vb = 0 ∧ r.settleB = 0 ∧
        t.im.running = false ∧ t.im.cycleRun = false ∧ t.im.cycleLeft = s.im.cycleLeft ∧ t.im.request = s.im.request ∧
        t.im.meas = .idle ∧ t.im.phase = none ∧ t.fe.insA = false ∧ t.fe.insB = false)

/-- With RESET_N high. A start takes the next number, restarts the countdown, serves the pending request and begins PHASE_A
with INS_A alone closed. CYCLE_COUNTDOWN_EXPIRY lets the time left pass and starts a measurement in IDLE, and else leaves the
countdown at zero with the pending flag set. PENDING_MEASUREMENT_START starts one with the flag set, IDLE and RUNNING.
MEASURE_NOW on V or C is refused STATE with RUN_REQUESTED clear; else it replies OK and starts one if IDLE and RUNNING, or
sets the flag. SETTLE_TIMER_EXPIRY lets the time left pass and stops that timer, and in LOCALISING under the localise hold
starts the localisation measurement. Where its countdown or timer does not run, or nothing is pending, each does nothing.
(Log entries 2, 3 and 30.) -/
def Obligations.MeasurementsStartWhenDue : Prop :=
  (∀ s : State, (s.im.cycleRun = false → exec .cycleCountdownExpiry s = .next s) ∧
    (s.im.request = false ∨ s.im.running = false ∨ s.im.meas ≠ .idle → exec .pendingMeasurementStart s = .next s) ∧
    (s.hc.settle = none → exec .settleTimerExpiry s = .next s)) ∧
  ∀ s : State, s.resetLow = false →
    (s.im.cycleRun = true →
      let u := elapse s.im.cycleLeft s
      (s.im.meas = .idle → ∃ t, exec .cycleCountdownExpiry s = .next t ∧ Started false u t) ∧
      (s.im.meas ≠ .idle → exec .cycleCountdownExpiry s =
        .next { u with im := { u.im with cycleRun := false, cycleLeft := 0, request := true } })) ∧
    (s.im.request = true → s.im.running = true → s.im.meas = .idle →
      ∃ t, exec .pendingMeasurementStart s = .next t ∧ Started false s t) ∧
    (∀ p, p = .v ∨ p = .c →
      let s0 := found p s
      (s.im.runRequested = false →
        exec (.measureNow p []) s = .next (replies p .measureNow .state [] s0)) ∧
      (s.im.runRequested = true → s.im.meas = .idle → s.im.running = true →
        ∃ t, exec (.measureNow p []) s = .next (replies p .measureNow .ok [] t) ∧ Started false s0 t) ∧
      (s.im.runRequested = true → s.im.meas ≠ .idle ∨ s.im.running = false →
        exec (.measureNow p []) s =
          .next (replies p .measureNow .ok [] { s0 with im := { s.im with request := true } }))) ∧
    (∀ n, s.hc.settle = some n →
      let u := elapse n s
      let u1 : State := { u with hc := { u.hc with settle := none } }
      (s.hc.localiseHold = true → s.im.meas = .localising →
        ∃ t, exec .settleTimerExpiry s = .next t ∧ Started true u1 t) ∧
      (s.hc.localiseHold = false ∨ s.im.meas ≠ .localising → exec .settleTimerExpiry s = .next u1))

/-- A chassis sample carries v_chs, the mean rounded and clamped to 0..6500, SATURATED exactly where it lies outside, the
closed set and the index. With RESET_N high and a switch closed, CHASSIS_SAMPLE lets the rest of the 50 ms pass, counts the
index (saturating at 255) and takes v_chs, marked or not, into the phase its closed set matches. A phase settles when three
values differ by at most INS_SETTLE_TOL. Phase A settling gives Va and index × 50 ms, swaps the switches at one event,
restarts the phase timer and empties the window. Phase B settling ends the measurement with a result, offered to the
INSULATION stream: U below 500 is BUS_LOW, Va at most Vb or above U is IMPLAUSIBLE, both with resistances 0 and no class;
else it is valid with Rp = 400(Va−Vb)/Vb and Rn = 400(Va−Vb)/(U−Va), 65535 at a divisor 0 and at most 65535, and the class of
R_iso against R_warn and R_fault; a valid one, a localisation's too, restarts the age timer. Without a closed switch nothing
happens; in IDLE, LOCALISING or with a set that does not match, only the sampler moves. (Log entries 2 and 42.) -/
def Obligations.ChassisSamplesSettleThePhases : Prop :=
  (∀ (m : Mean) (f : FrontEnd),
    let x := chassisSample m f
    (x.vChs : Int) = clampInt 0 6500 (roundMean m) ∧ (x.saturated = true ↔ roundMean m < 0 ∨ 6500 < roundMean m) ∧
    x.insA = f.insA ∧ x.insB = f.insB ∧ x.index = f.chassisIndex) ∧
  (∀ (m : Mean) (s : State), s.fe.insA = false → s.fe.insB = false → exec (.chassisSample m) s = .next s) ∧
  ∀ (m : Mean) (s : State), s.resetLow = false → s.fe.chassisMs ≤ 50 → s.fe.insA = true ∨ s.fe.insB = true →
    let v := (clampInt 0 6500 (roundMean m)).toNat
    let index := min 255 (s.fe.chassisIndex + 1)
    let u := elapse (50 - s.fe.chassisMs) s
    let w := (if s.im.window.length = 3 then s.im.window.drop 1 else s.im.window) ++ [v]
    let settled := w.length = 3 ∧ ∀ a ∈ w, ∀ b ∈ w, a ≤ b + s.cfg.insSettleTol
    let inA := s.im.meas = .phaseA ∧ s.fe.insA = true ∧ s.fe.insB = false
    let inB := s.im.meas = .phaseB ∧ s.fe.insA = false ∧ s.fe.insB = true
    (¬ inA → ¬ inB → exec (.chassisSample m) s =
      .next { u with fe := { u.fe with chassisMs := 0, chassisIndex := index } }) ∧
    (inA ∨ inB → ¬ settled → exec (.chassisSample m) s =
      .next { u with fe := { u.fe with chassisMs := 0, chassisIndex := index }, im := { u.im with window := w } }) ∧
    (inA → settled → exec (.chassisSample m) s =
      .next { u with
        fe := { u.fe with insA := false, insB := true, chassisMs := 0, chassisIndex := 0 }
        im := { u.im with meas := .phaseB, va := some (v, index * 50), phase := some 3000, window := [] } }) ∧
    (inB → settled → ∀ va sa, s.im.va = some (va, sa) →
      let bus := latestVBus s
      let rp := if v = 0 then 65535 else min 65535 (400 * (va - v) / v)
      let rn := if va = bus then 65535 else min 65535 (400 * (va - v) / (bus - va))
      let warn := s.cfg.insWarnOpv * bus / 10000
      let fault := min (min s.cfg.insFaultOpv (s.cfg.insWarnOpv - 10) * bus / 10000) (warn - 1)
      ∃ t r, exec (.chassisSample m) s = .next t ∧ t.im.last = some r ∧ Offered r s t ∧ r.number = s.im.number ∧
        r.time.unset = !s.ct.valid ∧ (s.ct.valid = true → r.time = ⟨false, s.ct.day, s.ct.sec⟩) ∧
        (s.ct.valid = false → r.time.sec = s.im.uptime) ∧
        r.va = va ∧ r.vb = v ∧ r.settleA = sa ∧ r.settleB = index * 50 ∧ r.figures.u = bus ∧
        r.leg = s.im.legFlag ∧ r.localise = s.im.localise ∧
        (bus < 500 → r.valid = false ∧ r.reason = .busLow) ∧
        (500 ≤ bus → va ≤ v ∨ bus < va → r.valid = false ∧ r.reason = .implausible) ∧
        (r.valid = false → r.figures = ⟨0, 0, bus⟩ ∧ r.cls = .noClass) ∧
        (500 ≤ bus → v < va → va ≤ bus → r.valid = true ∧ r.reason = .noReason ∧ r.figures = ⟨rp, rn, bus⟩ ∧
          (min rp rn < fault → r.cls = .fault) ∧
          (fault ≤ min rp rn → min rp rn < warn → r.cls = .warning) ∧
          (fault ≤ min rp rn → warn ≤ min rp rn → r.cls = .ok) ∧
          t.im.lastValid = some r.figures ∧ t.im.age = some 0) ∧
        (t.im.meas = .idle ∨ t.im.meas = .localising) ∧ t.im.phase = none ∧ t.fe.insA = false ∧ t.fe.insB = false)

/-- With RESET_N high. PHASE_TIMER_EXPIRY in a phase lets the time left pass and ends the measurement with an invalid result
SETTLE_TIMEOUT, Va and its settle time if phase A had settled, U of the latest set, offered to the INSULATION stream; the
switches open, the state is IDLE. Of a measurement that is no localisation, an invalid result leaves level, runs, age and
fault table, and every other block. LEVEL_AGE_EXPIRY, with the level not UNKNOWN and the age timer running, lets the time to
3 × INS_PERIOD_S pass, stops the timer and changes the level to UNKNOWN, its entry carrying the last valid figures, or Rp and
Rn 65535 and U 0, and PREHEAT and CHARGING go to HOLD with P_cmd 0. With the phase or age timer stopped, or the level UNKNOWN
already, the expiry does nothing. (Log entries 2 and 3.) -/
def Obligations.InvalidResultsAndAgeByTimer : Prop :=
  (∀ s : State, (s.im.phase = none → exec .phaseTimerExpiry s = .next s) ∧
    (s.im.age = none ∨ s.im.level = .unknown → exec .levelAgeExpiry s = .next s)) ∧
  ∀ (s : State) (n : Nat), s.resetLow = false →
    let u := elapse n s
    (s.im.phase = some n → s.im.inPhase = true →
      ∃ t r, exec .phaseTimerExpiry s = .next t ∧ t.im.last = some r ∧ Offered r s t ∧ t.im.meas = .idle ∧ t.im.phase = none ∧
        t.im.va = none ∧ t.fe.insA = false ∧ t.fe.insB = false ∧
        r.number = s.im.number ∧ r.time.unset = !s.ct.valid ∧ r.valid = false ∧ r.reason = .settleTimeout ∧
        r.va = (s.im.va.getD (0, 0)).1 ∧ r.settleA = (s.im.va.getD (0, 0)).2 ∧ r.vb = 0 ∧ r.settleB = 0 ∧
        r.figures = ⟨0, 0, latestVBus s⟩ ∧ r.cls = .noClass ∧ r.leg = s.im.legFlag ∧ r.localise = s.im.localise ∧
        (s.im.localise = false → t.im.level = s.im.level ∧ t.im.worse = s.im.worse ∧ t.im.better = s.im.better ∧
          t.im.age = u.im.age ∧ t.im.faults = s.im.faults ∧ t.im.lastValid = s.im.lastValid ∧
          t.rs = (offer .insulation (.result r) u).rs ∧ Touches [.fe, .im, .rs, .ports, .free] u t)) ∧
    (∀ i, s.im.age = some i → s.im.level ≠ .unknown → n = 3 * s.cfg.insPeriodS * 1000 - i →
      let u1 : State := { u with im := { u.im with age := none } }
      ∃ t, exec .levelAgeExpiry s = .next (takeReports u t) ∧
        LevelMoved .unknown (s.im.lastValid.getD ⟨65535, 65535, 0⟩) u1 t)

/-- The operation that applies a valid result of no localisation, under the invariant on the runs. From UNMEASURED and
UNKNOWN a class OK or WARNING is the level at once. A result equal to the level empties both runs and does nothing else. The
first worse result only begins the worse run and empties the better one. The second moves the level to the less severe of the
run; where that is FAULT, the result carries the leg flag and the leg is not ISOLATED, the level stays, the worse run stands
at 2, the figures are kept, both elements go off, the leg opens under the localise hold, and the state is LOCALISING. The
first two better results only lengthen the better run and empty the worse one; the third moves the level to the most severe
of the run. Each move is one level change, with the lockout, or the hold reason, the state and the P_cmd, that it brings. -/
def Obligations.LevelMovesByTheRuns : Prop :=
  ∀ (k : Machine.Class) (x : Figures) (leg : Bool) (s : State), k ≠ .noClass → RunsOk s →
    let t := takeClass k x leg s
    let runs (worse better : Run) : State := { s with im := { s.im with worse := worse, better := better } }
    let floor := if s.im.worse.count = 0 ∨ k.rank < s.im.worse.bound.rank then k else s.im.worse.bound
    let ceiling := if s.im.better.count = 0 ∨ s.im.better.bound.rank < k.rank then k else s.im.better.bound
    let localises := floor = .fault ∧ leg = true ∧ s.hc.leg ≠ .isolated
    (s.im.level = .unmeasured ∨ s.im.level = .unknown → k ≠ .fault → LevelMoved k.level x s t) ∧
    (k.level = s.im.level → t = runs .empty .empty) ∧
    (s.im.level.rank < k.rank →
      (s.im.worse.count = 0 → t = runs ⟨1, k⟩ .empty) ∧
      (0 < s.im.worse.count → localises →
        t.im = { s.im with worse := ⟨2, .fault⟩, better := .empty, meas := .localising, locRecord := some x } ∧
        t.hc.localiseHold = true ∧ heaterOff t ∧
        (s.hc.leg = .connecting ∨ s.hc.leg = .connected → t.hc.leg = .disconnected ∧ t.hc.settle = some 200) ∧
        Touches [.im, .hc] s t) ∧
      (0 < s.im.worse.count → ¬ localises → LevelMoved floor.level x s t)) ∧
    (s.im.level = .warning ∨ s.im.level = .fault → k.rank < s.im.level.rank →
      (s.im.better.count ≤ 1 → t = runs .empty ⟨s.im.better.count + 1, ceiling⟩) ∧
      (2 ≤ s.im.better.count → LevelMoved ceiling.level x s t))

/-- The operation that applies the result of a localisation. Valid with class OK or WARNING: the leg is ISOLATED, the hold
ends, HEATER is raised and HEATER_EVENT fires; a HEATER_LEG entry with the figures of the localisation record is appended
first, where the table has room and the counter a sequence; the level is the result's class, INSULATION raised and
LEVEL_CHANGED fired only if it changes, and both runs are empty. Otherwise the hold ends, a DISCONNECTED leg stays so, and
the level becomes FAULT with the figures of the result, as a level change if it was not FAULT already. The localisation
record is cleared. -/
def Obligations.LocalisationPlacesTheFault : Prop :=
  ∀ (r : ResultRecord) (y : Figures) (s : State), r.localise = true → s.im.locRecord = some y →
    let t := applyResult r s
    let inLeg := r.valid = true ∧ (r.cls = .ok ∨ r.cls = .warning)
    t.im.locRecord = none ∧ t.hc.localiseHold = false ∧
    (inLeg → t.hc.leg = .isolated ∧ Raised .heater t ∧ Fired .heaterEvent s t ∧ t.im.level = r.cls.level ∧
      t.im.worse = .empty ∧ t.im.better = .empty ∧
      (s.im.level ≠ r.cls.level → Raised .insulation t ∧ Fired .levelChanged s t) ∧
      (s.im.level = r.cls.level → NotFired .levelChanged s t ∧ t.sc = s.sc ∧
        FlagsBut [.heater, .faultTable, .capture] s t) ∧
      (s.im.faults.length < 8 → s.im.entrySeq < 4294967295 →
        ∃ e rest, t.im.faults = s.im.faults ++ e :: rest ∧ e.kind = .heaterLeg ∧ e.figures = y ∧
          e.seq = s.im.entrySeq + 1 ∧ Raised .faultTable t)) ∧
    (¬ inLeg → (s.hc.leg = .disconnected → t.hc.leg = .disconnected) ∧ t.im.level = .fault ∧
      (s.im.level ≠ .fault →
        LevelMoved .fault r.figures
          { s with im := { s.im with locRecord := none }, hc := { s.hc with localiseHold := false } } t))

/-- The shared operation that takes the reports of an event once its work is done. There is no report where no phase held
before the event, nor without a fall of P_cmd by more than 500 W, an element going off or HLD opening; the state stays as the
event left it, as it does where the event itself ended the measurement. One report at abandonment count 0 makes it 1 and
begins a new attempt: INS_A alone closed, chassis interval and index from 0, phase timer 3000 ms, window and Va cleared, leg
flag afresh, pending request served; nothing else changes. One report at a higher count, or both reports of one event at any
count (log entry 11), end the measurement with an invalid result DISTURBED offered to the INSULATION stream, IDLE, both
switches open. (Log entry 35 for a plug loss in CLOSING.) -/
def Obligations.DisturbancesRestartOnceThenEnd : Prop :=
  ∀ s t : State,
    let r := takeReports s t
    let fell := t.pc.pCmd + 500 < s.pc.pCmd
    let opened := (s.hc.e1.isOn = true ∧ t.hc.e1.isOn = false) ∨ (s.hc.e2.isOn = true ∧ t.hc.e2.isOn = false) ∨
      (s.hc.hldClosed = true ∧ t.hc.hldClosed = false)
    (s.im.inPhase = false ∨ t.im.inPhase = false ∨ (¬ fell ∧ ¬ opened) → r = t) ∧
    (s.im.inPhase = true → t.im.inPhase = true → (fell ∧ ¬ opened) ∨ (opened ∧ ¬ fell) → t.im.abandoned = 0 →
      r.im = { t.im with
        abandoned := 1, meas := .phaseA, phase := some 3000, window := [], va := none
        legFlag := t.hc.hldClosed, request := false } ∧
      r.fe = { t.fe with insA := true, insB := false, chassisMs := 0, chassisIndex := 0 } ∧ Touches [.im, .fe] t r) ∧
    (s.im.inPhase = true → t.im.inPhase = true → fell ∨ opened → t.im.abandoned ≠ 0 ∨ (fell ∧ opened) →
      r.im.meas = .idle ∧ r.im.phase = none ∧ r.fe.insA = false ∧ r.fe.insB = false ∧
      ∃ x, r.im.last = some x ∧ Offered x t r ∧ x.valid = false ∧ x.reason = .disturbed ∧ x.number = t.im.number ∧
        x.figures = ⟨0, 0, latestVBus t⟩ ∧ x.cls = .noClass ∧ x.vb = 0 ∧ x.localise = t.im.localise)

/-- With RESET_N high. A FAULT_ACK of four bytes on V, for a sequence in the table, removes its entries, keeps the others in
order and is answered OK with the number left; an emptied table clears OVERFLOW and its count; nothing else changes. For a
sequence not in the table it is refused NOT_FOUND and changes nothing. A FAULT_LIST of one byte on any port changes nothing:
for a position in the table it is answered OK with the entry there in full, the number of entries, OVERFLOW and its count,
and beyond it EMPTY with those three alone. -/
def Obligations.FaultTableIsAcknowledgedAndListed : Prop :=
  (∀ (b : List Byte) (s : State), s.resetLow = false → b.length = 4 →
    let s0 := found .v s
    let left := s.im.faults.filter fun e => e.seq ≠ u32 b 0
    ((∃ e ∈ s.im.faults, e.seq = u32 b 0) →
      exec (.faultAck .v b) s = .next (replies .v .faultAck .ok (b1 left.length) { s0 with im := { s.im with
        faults := left
        overflow := if left = [] then false else s.im.overflow
        overflowCount := if left = [] then 0 else s.im.overflowCount } })) ∧
    ((∀ e ∈ s.im.faults, e.seq ≠ u32 b 0) →
      exec (.faultAck .v b) s = .next (replies .v .faultAck .notFound [] s0))) ∧
  ∀ (p : Port) (b : List Byte) (s : State), s.resetLow = false → b.length = 1 →
    let tail := b1 s.im.faults.length ++ bFlag s.im.overflow ++ b1 s.im.overflowCount
    (∀ e, s.im.faults[u8 b 0]? = some e →
      exec (.faultList p b) s = .next (replies p .faultList .ok
        (be 4 e.seq ++ b1 e.kind.code ++ be 2 e.time.day ++ be 4 e.time.sec ++ bFlag e.time.unset ++
          be 2 e.figures.rp ++ be 2 e.figures.rn ++ be 2 e.figures.u ++ tail) (found p s))) ∧
    (s.im.faults.length ≤ u8 b 0 →
      exec (.faultList p b) s = .next (replies p .faultList .empty tail (found p s)))

/-- The operation that takes every result, valid or not, a localisation's too. The record is offered to the INSULATION stream
and is the last result; a valid one is the last valid result and restarts the age timer, an invalid one leaves both. It is
then applied to the level: a localisation's in place of the runs, else a valid one to the runs and the level, else not at
all. In VERIFYING the session controller then seeks its verdict: if the result is valid with class OK or WARNING and the
level then is OK or WARNING, the verification timer stops and the state becomes HOLD, with P_cmd 0, if a hold reason stands,
else CHARGING or PREHEAT by the gate, SESSION raised and STATE_CHANGED fired. Any other result leaves VERIFYING and its
timer, unless the level has changed to FAULT, which locks out. In other states no verdict is given. -/
def Obligations.ResultsAreKeptAppliedAndGiveTheVerdict : Prop :=
  ∀ (r : ResultRecord) (s : State),
    let t := resultEvent r s
    let o := offer .insulation (.result r) s
    let kept : State := { o with im := { o.im with
      last := some r
      lastValid := if r.valid then some r.figures else s.im.lastValid
      age := if r.valid then some 0 else s.im.age } }
    let a := if r.localise then applyResult r kept else if r.valid then takeClass r.cls r.figures r.leg kept else kept
    let verdict := s.sc.state = .verifying ∧ r.valid = true ∧ (r.cls = .ok ∨ r.cls = .warning) ∧
      (t.im.level = .ok ∨ t.im.level = .warning)
    t.im.last = some r ∧ Offered r s t ∧
    (r.valid = true → t.im.lastValid = some r.figures ∧ t.im.age = some 0) ∧
    (r.valid = false → t.im.lastValid = s.im.lastValid ∧ t.im.age = s.im.age) ∧
    t.im = a.im ∧ (¬ verdict → t = a) ∧
    (verdict →
      t.sc = { s.sc with
        verify := none
        hold := { s.sc.hold with insulationUnknown := s.sc.hold.insulationUnknown && decide (t.im.level = s.im.level) }
        state := if t.sc.hold.any then .hold else if s.sc.gate then .charging else .preheat } ∧
      t.pc.pCmd = (if t.sc.state = .hold then 0 else s.pc.pCmd) ∧
      Raised .session t ∧ Fired .stateChanged s t ∧ Touches [.sc, .pc, .hc, .ports, .se, .free] a t) ∧
    (s.sc.state = .verifying → ¬ verdict →
      (t.im.level ≠ .fault ∨ s.im.level = .fault → t.sc.state = .verifying ∧ t.sc.verify = s.sc.verify) ∧
      (t.im.level = .fault → s.im.level ≠ .fault → t.sc.state = .lockedOut ∧ t.sc.verify = none)) ∧
    (s.sc.state ≠ .verifying → t.sc.state ≠ .verifying)

/-- At an EA_ALLOCATION with a due set and RESET_N high: G = max(p_in, 0) × 1000, Hg the lesser of v_bus × i_heat and G, Bg
the lesser of v_bus × max(i_bat, 0) × 10 and G − Hg, Lg = G − Hg − Bg, Hb the rest of the heater power; Hg + Bg + Lg = G. The
lifetime account takes all five; the session account takes them while it accrues, else the unassigned counter takes G. A
field adds to its residue and carries a Wh at 36,000,000. A carry of G beyond the field's maximum (40 bits, session 32 bits)
freezes the four grid fields, of Hb that field, and a frozen field takes nothing. A session G carry adds the price register
once to the cost; a set accrued into the session marks REVERSE for p_in below 0 and SATURATED_INPUT by its summary in the
interval in progress. Nothing else of the clock unit, and no block but these and the pulse path, changes. (Log entry 37 for
the marks of a frozen account.) -/
def Obligations.AllocationAccruesEveryShareOnce : Prop :=
  ∀ (s : State) (x : SampleSet), s.resetLow = false → s.fe.latest = some x → s.fe.dueEa = true →
    let g := x.pIn.toNat * 1000
    let h := x.vBus * x.iHeat
    let hg := min h g
    let bg := min (x.vBus * x.iBat.toNat * 10) (g - hg)
    let lg := g - hg - bg
    let hb := h - hg
    let carries (e : Energy) (n : Nat) : Bool := 36000000 ≤ e.res + n
    let plus (e : Energy) (n : Nat) : Energy :=
      if carries e n then ⟨e.wh + 1, e.res + n - 36000000⟩ else ⟨e.wh, e.res + n⟩
    let taken (top : Nat) (a : Account) : Account :=
      let grid := a.gridFrozen || (carries a.g g && decide (top ≤ a.g.wh))
      let pack := a.hbFrozen || (carries a.hb hb && decide (top ≤ a.hb.wh))
      { g := if grid then a.g else plus a.g g
        bg := if grid then a.bg else plus a.bg bg
        hg := if grid then a.hg else plus a.hg hg
        lg := if grid then a.lg else plus a.lg lg
        hb := if pack then a.hb else plus a.hb hb
        gridFrozen := grid
        hbFrozen := pack }
    hg + bg + lg = g ∧
    ∃ t, exec .eaAllocation s = .next t ∧ t.ea.lifetime = taken 1099511627775 s.ea.lifetime ∧
      t.ea.accruing = s.ea.accruing ∧
      (s.ea.accruing = true →
        t.ea.session = taken 4294967295 s.ea.session ∧ t.ea.unassigned = s.ea.unassigned ∧
        t.ea.unassignedFrozen = s.ea.unassignedFrozen ∧
        t.ct = { s.ct with
          cost := s.ct.cost + if t.ea.session.g.wh = s.ea.session.g.wh then 0 else s.ct.price
          interval := s.ct.interval.map fun i => { i with flags := { i.flags with
            reverse := i.flags.reverse || decide (x.pIn < 0)
            saturatedInput := i.flags.saturatedInput || x.saturated } } }) ∧
      (s.ea.accruing = false →
        t.ea.session = s.ea.session ∧ t.ct = s.ct ∧
        t.ea.unassignedFrozen = (s.ea.unassignedFrozen ||
          (carries s.ea.unassigned g && decide (4294967295 ≤ s.ea.unassigned.wh))) ∧
        t.ea.unassigned = (if t.ea.unassignedFrozen then s.ea.unassigned else plus s.ea.unassigned g)) ∧
      t.fe = { s.fe with dueEa := false } ∧ Touches [.fe, .ea, .ct] s t

/-- At an EA_ALLOCATION with a due set, RESET_N high, pending at most 255 and lost at most its maximum: at quantum 0 the
pulse path stays. Else the quanta crossed are as many as the accumulator with G holds, at most the room of pending and lost
counts, and G is not added where that room is used up without it. They leave the accumulator, join pending up to 255 and then
lost, and in READY with any pending one is emitted: HIGH, 5 ms. PULSE_HIGH_END lets the time left pass and makes HIGH LOW for
5 ms; PULSE_LOW_END makes LOW READY, or takes the next pending pulse at once. PWM_PERIOD_START lets the millisecond end and
drives the duty floor(P_cmd × 1000 / 22000). Outside its state of the output a pulse timer does nothing. Nothing else
changes. (Log entries 2 and 3.) -/
def Obligations.PulsesAreConserved : Prop :=
  (∀ (s : State) (x : SampleSet), s.resetLow = false → s.fe.latest = some x → s.fe.dueEa = true → s.ea.pulses ≤ 255 →
    s.ea.lost ≤ 4294967295 →
    let q := 8 * s.cfg.pulseWhInt + s.cfg.pulseWhEighths
    let unit := q * 4500000
    let g := x.pIn.toNat * 1000
    let room := 255 - s.ea.pulses + (4294967295 - s.ea.lost)
    let fed := if room ≤ s.ea.acc / unit then 0 else g
    let n := min ((s.ea.acc + fed) / unit) room
    let queued := min 255 (s.ea.pulses + n)
    ∃ t, exec .eaAllocation s = .next t ∧
      (q = 0 → t.ea.acc = s.ea.acc ∧ t.ea.pulses = s.ea.pulses ∧ t.ea.lost = s.ea.lost ∧ t.ea.pulse = s.ea.pulse ∧
        t.ea.pulseMs = s.ea.pulseMs) ∧
      (0 < q → t.ea.acc + n * unit = s.ea.acc + fed ∧ t.ea.lost = s.ea.lost + (s.ea.pulses + n - 255) ∧
        (s.ea.pulse = .ready → 0 < queued → t.ea.pulses + 1 = queued ∧ t.ea.pulse = .high ∧ t.ea.pulseMs = 5) ∧
        (s.ea.pulse ≠ .ready ∨ queued = 0 → t.ea.pulses = queued ∧ t.ea.pulse = s.ea.pulse ∧
          t.ea.pulseMs = s.ea.pulseMs))) ∧
  (∀ s : State, (s.ea.pulse ≠ .high → exec .pulseHighEnd s = .next s) ∧
    (s.ea.pulse ≠ .low → exec .pulseLowEnd s = .next s)) ∧
  ∀ s : State, s.resetLow = false →
    let u := elapse s.ea.pulseMs s
    let w := elapse (1 - s.pc.pwmMs) s
    (s.ea.pulse = .high →
      exec .pulseHighEnd s = .next { u with ea := { u.ea with pulse := .low, pulseMs := 5 } }) ∧
    (s.ea.pulse = .low → s.ea.pulses = 0 →
      exec .pulseLowEnd s = .next { u with ea := { u.ea with pulse := .ready, pulseMs := 0 } }) ∧
    (s.ea.pulse = .low → 0 < s.ea.pulses →
      exec .pulseLowEnd s =
        .next { u with ea := { u.ea with pulse := .high, pulseMs := 5, pulses := s.ea.pulses - 1 } }) ∧
    exec .pwmPeriodStart s =
      .next { w with pc := { w.pc with pwmMs := w.pc.pwmMs - 1, duty := s.pc.pCmd * 1000 / 22000 } }

/-- With RESET_N high and the timebase within its second, CLOCK_TICK lets the rest of the second pass. The second of day
rises by 1, 86399 giving 0 and the next day, 65535 followed by 0; validity stays. The session elapsed count rises while the
session accrues, both uptime counts always, all saturating. The periodic timer stands at 0 for a SNAP_PERIOD_S of 0, else it
rises by 1, and where it so reaches SNAP_PERIOD_S it is 0 and PERIODIC occurs. With no interval in progress the price
register is looked up at a minute tick, and nothing else changes but the ports by the snapshot engine. PERIODIC_TIMER_EXPIRY
is that tick where the periodic timer so expires, and nothing otherwise (log entries 2 to 4; 14 for the lookup without an
interval). -/
def Obligations.TicksAdvanceTheClockAndTheCounts : Prop :=
  (∀ s : State, s.resetLow = false → s.ct.timebase ≤ 1000 →
    let u := elapse (1000 - s.ct.timebase) s
    let sec := if s.ct.sec = 86399 then 0 else s.ct.sec + 1
    let day := if s.ct.sec = 86399 then (s.ct.day + 1) % 65536 else s.ct.day
    let elapsed := if s.ea.accruing then min 4294967295 (s.ct.elapsed + 1) else s.ct.elapsed
    ∃ t, exec .clockTick s = .next t ∧
      t.ct.sec = sec ∧ t.ct.day = day ∧ t.ct.valid = s.ct.valid ∧ t.ct.timebase = 0 ∧ t.ct.elapsed = elapsed ∧
      t.im = { u.im with uptime := min 4294967295 (s.im.uptime + 1) } ∧
      t.se.uptime = min 4294967295 (s.se.uptime + 1) ∧
      (s.cfg.snapPeriodS = 0 → t.se.periodic = 0 ∧ NotFired .periodic s t) ∧
      (0 < s.cfg.snapPeriodS → s.se.periodic + 1 < s.cfg.snapPeriodS →
        t.se.periodic = s.se.periodic + 1 ∧ NotFired .periodic s t) ∧
      (0 < s.cfg.snapPeriodS → s.cfg.snapPeriodS ≤ s.se.periodic + 1 → t.se.periodic = 0 ∧ Fired .periodic s t) ∧
      (s.ct.interval = none →
        t.ct = { s.ct with
          sec := sec
          day := day
          timebase := 0
          elapsed := elapsed
          price := if sec % 60 = 0 then priceOf s.sc.record.payer { s with ct := { s.ct with sec := sec } }
            else s.ct.price } ∧
        FlagsBut [.capture] s t ∧ Touches [.ct, .im, .se, .ports, .free] u t)) ∧
  ∀ s : State,
    (s.resetLow = false → 0 < s.cfg.snapPeriodS → s.cfg.snapPeriodS ≤ s.se.periodic + 1 →
      exec .periodicTimerExpiry s = exec .clockTick s) ∧
    (s.resetLow = true ∨ s.cfg.snapPeriodS = 0 ∨ s.se.periodic + 1 < s.cfg.snapPeriodS →
      exec .periodicTimerExpiry s = .next s)

/-- A tick with RESET_N high and interval i in progress is a PERIOD if the clock is valid, a minute begins, and the payer's
active table has several periods one of which starts then; else a BOUNDARY if a minute that is a multiple of the latched
length begins, or, clock invalid, the elapsed count is a positive multiple of it. PERIOD_CLOSE and BOUNDARY_CLOSE are the
tick of that cause, and nothing otherwise (log entry 4). Where BILLING has a slot or the hold slot is empty the close is
real: the record of session, index, payer, generation, start, duration, price, Wh differences, cost difference and flags is
placed, the reported cost advanced, INTERVAL_CLOSED fired, a staged table applied, and the next interval opened. Else it
merges: the interval goes on with MERGED, its length latched, MIXED_PRICE if the price changes, BILLING raised, store, tables
and reported cost as they were. A tick of no cause leaves all that. -/
def Obligations.TicksCloseIntervalsByCause : Prop :=
  ∀ (s : State) (i : Interval), s.resetLow = false → s.ct.timebase ≤ 1000 → s.ct.interval = some i →
    let payer := s.sc.record.payer
    let sec := if s.ct.sec = 86399 then 0 else s.ct.sec + 1
    let elapsed := if s.ea.accruing then min 4294967295 (s.ct.elapsed + 1) else s.ct.elapsed
    let period := s.ct.valid = true ∧ sec % 60 = 0 ∧
      ∃ tab, (s.ct.kind payer).active = some tab ∧ 1 < tab.length ∧ ∃ p ∈ tab, p.start = sec / 60
    let boundary := (s.ct.valid = true ∧ sec % 60 = 0 ∧ sec / 60 % i.latched = 0) ∨
      (s.ct.valid = false ∧ 0 < elapsed ∧ elapsed % (60 * i.latched) = 0)
    let room := billingRoom s = true ∨ s.ct.held = none
    let s1 : State := { s with ct := { s.ct with elapsed := elapsed } }
    (period → exec .periodClose s = exec .clockTick s) ∧ (¬ period → exec .periodClose s = .next s) ∧
    (boundary ∧ ¬ period → exec .boundaryClose s = exec .clockTick s) ∧
    (period ∨ ¬ boundary → exec .boundaryClose s = .next s) ∧
    (∀ reason, (reason = .period ∧ period) ∨ (reason = .boundary ∧ boundary ∧ ¬ period) →
      let r := formRecord reason false i s1
      r = { number := s.sc.record.number, index := i.index, payer := payer, generation := (s.ct.kind payer).generation
            startDay := i.startDay, startSec := i.startSec, duration := elapsed - i.openElapsed, price := s.ct.price
            wh := ⟨s.ea.session.g.wh - i.base.g, s.ea.session.bg.wh - i.base.bg, s.ea.session.hg.wh - i.base.hg,
              s.ea.session.lg.wh - i.base.lg, s.ea.session.hb.wh - i.base.hb⟩
            cost := (s.ct.cost + 500) / 1000 - s.ct.reported, reason := reason
            clockUnset := i.flags.clockUnset, noTariff := i.flags.noTariff, merged := i.flags.merged
            mixedPrice := i.flags.mixedPrice, reverse := i.flags.reverse, saturatedInput := i.flags.saturatedInput
            saturatedAccount := s.ea.session.gridFrozen || s.ea.session.hbFrozen
            lockout := false, final := false, aborted := false } ∧
      ∃ t, exec .clockTick s = .next t ∧
        (room → RecordPlaced reason false i s1 t ∧ IntervalOpened ((i.index + 1) % 65536) s t) ∧
        (¬ room → t.ct.interval = some { i with
            latched := s.cfg.billIntervalMin
            flags := { i.flags with
              merged := true
              mixedPrice := i.flags.mixedPrice || decide (t.ct.price ≠ s.ct.price) } } ∧
          t.ct.price = priceOf payer { s with ct := { s.ct with sec := sec } } ∧
          t.ct.held = s.ct.held ∧ t.ct.reported = s.ct.reported ∧ t.ct.cost = s.ct.cost ∧ t.rs = s.rs ∧
          (∀ k, t.ct.kind k = s.ct.kind k) ∧ Raised .billing t ∧ NotFired .intervalClosed s t)) ∧
    (¬ period → ¬ boundary → ∃ t, exec .clockTick s = .next t ∧
      t.ct.interval.map Interval.index = some i.index ∧ t.ct.held = s.ct.held ∧ t.ct.reported = s.ct.reported ∧
      t.ct.cost = s.ct.cost ∧ t.rs = s.rs ∧ (∀ k, t.ct.kind k = s.ct.kind k) ∧ NotFired .intervalClosed s t ∧
      FlagsBut [.capture] s t)

/-- A TIME_SET of six bytes on port T with RESET_N high. A second of day above 86399 is refused INVALID and changes nothing.
Else it is answered OK with an empty body; the clock takes day and second, becomes valid, and its timebase restarts. With no
interval in progress clock and price register alone change. With one, and BILLING having a slot or the hold slot empty, the
record is formed with reason CLOCK_SET under the clock as it stood and placed, and the next interval opens at the new time.
Else the interval goes on, its start kept, with MERGED, its length latched, MIXED_PRICE if the price changes, and BILLING
raised. The price register is that of the new minute. -/
def Obligations.TimeSetClosesUnderTheOldClock : Prop :=
  ∀ (b : List Byte) (s : State), s.resetLow = false → b.length = 6 →
    let s0 := found .t s
    (86399 < u32 b 2 → exec (.timeSet .t b) s = .next (replies .t .timeSet .invalid [] s0)) ∧
    (u32 b 2 ≤ 86399 →
      ∃ t, exec (.timeSet .t b) s = .next (replies .t .timeSet .ok [] t) ∧
        t.ct.day = u16 b 0 ∧ t.ct.sec = u32 b 2 ∧ t.ct.valid = true ∧ t.ct.timebase = 0 ∧
        t.ct.price = priceOf s.sc.record.payer t ∧ t.ct.elapsed = s.ct.elapsed ∧
        (s.ct.interval = none →
          t.ct = { s.ct with day := u16 b 0, sec := u32 b 2, valid := true, timebase := 0, price := t.ct.price } ∧
          Touches [.ct] s0 t) ∧
        (∀ i, s.ct.interval = some i →
          (billingRoom s = true ∨ s.ct.held = none →
            RecordPlaced .clockSet false i s0 t ∧ IntervalOpened ((i.index + 1) % 65536) s t) ∧
          (billingRoom s = false → s.ct.held ≠ none →
            t.ct.interval = some { i with
              latched := s.cfg.billIntervalMin
              flags := { i.flags with
                merged := true
                mixedPrice := i.flags.mixedPrice || decide (t.ct.price ≠ s.ct.price) } } ∧
            t.ct.held = s.ct.held ∧ t.ct.reported = s.ct.reported ∧ t.rs = s.rs ∧ (∀ k, t.ct.kind k = s.ct.kind k) ∧
            Raised .billing t ∧ NotFired .intervalClosed s t)))

/-- A TARIFF_LOAD of 2 + 4n bytes, n from 1 to 8, on port C (STATION) or T (FLEET) with RESET_N high: unless the count is n,
the first start 0, every start at most 1439 and each above the one before, it is refused INVALID and changes nothing. Else
the table replaces a staged one of the kind; it waits while a session of that payer is open, and is otherwise applied at
once: active, generation one up modulo 65536, TARIFF raised, TARIFF_APPLIED fired. The OK reply carries the kind and whether
it was applied. TARIFF_APPLY_AT_SESSION_END applies the staged table of the payer's kind with no session open, and does
nothing otherwise. The price of a kind is 0 without an active table, its first price with the clock invalid, else that of the
latest period starting not after the minute. (Log entries 3 and 5 for the last row.) -/
def Obligations.TariffTablesAreCheckedStagedAndApplied : Prop :=
  (∀ (p : Port) (n : Nat) (b : List Byte) (s : State), s.resetLow = false → p = .c ∨ p = .t → 1 ≤ n → n ≤ 8 →
    b.length = 2 + 4 * n →
    let s0 := found p s
    let k : Payer := if p = .c then .station else .fleet
    let tab := (List.range n).map fun i => Period.mk (u16 b (2 + 4 * i)) (u16 b (4 + 4 * i))
    let good := u16 b 0 = n ∧ u16 b 2 = 0 ∧ (∀ x ∈ tab, x.start ≤ 1439) ∧ (tab.map Period.start).Pairwise (· < ·)
    let waits := s.sc.state.isOpen = true ∧ s.sc.record.payer = k
    (¬ good → exec (.tariffLoad p b) s = .next (replies p .tariffLoad .invalid [] s0)) ∧
    (good → waits → exec (.tariffLoad p b) s =
      .next (replies p .tariffLoad .ok [BitVec.ofNat 8 k.code, 0]
        { s0 with ct := s.ct.putKind k { s.ct.kind k with staged := some tab } })) ∧
    (good → ¬ waits →
      ∃ t, exec (.tariffLoad p b) s = .next (replies p .tariffLoad .ok [BitVec.ofNat 8 k.code, 1] t) ∧
        t.ct = s.ct.putKind k ⟨some tab, none, ((s.ct.kind k).generation + 1) % 65536⟩ ∧
        Raised .tariff t ∧ Fired .tariffApplied s t ∧ FlagsBut [.tariff, .capture] s0 t ∧
        Touches [.ct, .ports, .se, .free] s0 t)) ∧
  (∀ s : State, s.resetLow = false →
    let k := s.sc.record.payer
    (s.sc.state.isOpen = true ∨ (s.ct.kind k).staged = none → exec .tariffApplyAtSessionEnd s = .next s) ∧
    (∀ tab, s.sc.state.isOpen = false → (s.ct.kind k).staged = some tab →
      ∃ t, exec .tariffApplyAtSessionEnd s = .next t ∧
        t.ct = s.ct.putKind k ⟨some tab, none, ((s.ct.kind k).generation + 1) % 65536⟩ ∧
        Raised .tariff t ∧ Fired .tariffApplied s t ∧ Touches [.ct, .ports, .se, .free] s t)) ∧
  ∀ (k : Payer) (s : State),
    ((s.ct.kind k).active = none → priceOf k s = 0) ∧
    ∀ (x : Period) (xs : List Period), (s.ct.kind k).active = some (x :: xs) →
      (s.ct.valid = false → priceOf k s = x.price) ∧
      (∀ (l r : List Period) (y : Period), s.ct.valid = true → x :: xs = l ++ y :: r → y.start ≤ s.ct.sec / 60 →
        (∀ z ∈ r, s.ct.sec / 60 < z.start) → priceOf k s = y.price)

/-- With RESET_N high. HELD_RECORD_APPEND, with a held record and BILLING having a free slot, appends it and empties the hold
slot, and does nothing otherwise. PENDING_FINAL_PLACED, with a pending final record, appends it where BILLING has a free
slot, else takes it into an empty hold slot with BILLING raised, and does nothing where there is neither. Its placing clears
FINAL_PENDING, the hold reasons, the gate, the command-zero condition and the pause flag, takes CLOSING to CONNECTED or
UNPLUGGED by the plug level and leaves another state, raises SESSION and fires SESSION_CLOSED. Without a pending record it
does nothing. (Log entries 3 and 5: that both are also steps of their own.) -/
def Obligations.HeldAndFinalRecordsTakeTheRoom : Prop :=
  (∀ s : State, s.resetLow = false →
    (s.ct.held = none ∨ billingRoom s = false → exec .heldRecordAppend s = .next s) ∧
    (∀ r, s.ct.held = some r → billingRoom s = true →
      exec .heldRecordAppend s =
        .next { offer .billing (.billing r) s with ct := { s.ct with held := none } })) ∧
  ∀ s : State, s.resetLow = false →
    (s.ct.finalRecord = none ∨ (billingRoom s = false ∧ s.ct.held ≠ none) → exec .pendingFinalPlaced s = .next s) ∧
    (∀ r, s.ct.finalRecord = some r → billingRoom s = true ∨ s.ct.held = none →
      ∃ t, exec .pendingFinalPlaced s = .next (takeReports s t) ∧ t.ct.finalRecord = none ∧
        (billingRoom s = true → t.rs = (offer .billing (.billing r) s).rs ∧ t.ct.held = s.ct.held) ∧
        (billingRoom s = false → t.rs = s.rs ∧ t.ct.held = some r ∧ Raised .billing t) ∧
        t.sc.finalPending = false ∧ t.sc.commandZero = false ∧ t.sc.gate = false ∧ t.sc.hold.any = false ∧
        t.sc.record = { s.sc.record with pause := false } ∧
        t.sc.state = (if s.sc.state = .closing then (match s.sc.plug with | .present => .connected | .absent => .unplugged)
          else s.sc.state) ∧
        (s.sc.state = .closing → t.pc.pCmd = 0 ∧ Fired .stateChanged s t) ∧
        Raised .session t ∧ Fired .sessionClosed s t ∧ t.ea = s.ea ∧ t.im = s.im)

/-- The operation by which a producer offers a record, under the invariant of the store. To a joined stream below its area's
slot count it is appended: it stands last, every earlier record keeps its position, the count is one up, and each port's
STREAM flag is its condition. To a full stream: BILLING is unchanged; INSULATION and EVENTS count one lost and keep their
queue; READINGS drops its oldest, each later record moves one position down, the offered one stands last, the count stays and
one is counted overwritten. To an unjoined stream: BILLING unchanged, the others count one lost. Counts saturate at
4294967295. The other streams, their records, their counts and the area table stay, and no block but the store and the ports
changes. -/
def Obligations.OffersFollowThePolicyOfTheStream : Prop :=
  ∀ (st : Stream) (rec : Record) (s : State), StoreOk s →
    let t := offer st rec s
    let x := s.rs.stream st
    let lost (n : Nat) : Prop := (t.rs.stream st).lost = min 4294967295 (x.lost + n)
    let overs (n : Nat) : Prop := (t.rs.stream st).overwritten = min 4294967295 (x.overwritten + n)
    (∀ st', st' ≠ st → t.rs.stream st' = s.rs.stream st' ∧
      ∀ j k, (s.rs.stream st').join = some j → recordAt j k t.rs = recordAt j k s.rs) ∧
    t.rs.areas = s.rs.areas ∧ Touches [.rs, .ports] s t ∧ FlagsBut [.stream] s t ∧
    (x.lost ≤ 4294967295 → x.overwritten ≤ 4294967295 →
      (x.join = none → (t.rs.stream st).join = none ∧ lost (if st = .billing then 0 else 1) ∧ overs 0) ∧
      (∀ j a, x.join = some j → s.rs.defined j.area = some a →
        (j.count < a.count → lost 0 ∧ overs 0 ∧
          (∃ i, (t.rs.stream st).join = some i ∧ i.area = j.area ∧ i.port = j.port ∧ i.count = j.count + 1 ∧
            (∀ k, k < j.count → recordAt i k t.rs = recordAt j k s.rs) ∧ recordAt i j.count t.rs = some rec) ∧
          ∀ p, flagSet .stream (t.ports.get p).flags = streamCondition p t) ∧
        (j.count = a.count → st ≠ .readings → t.ports = s.ports ∧ t.rs.slots = s.rs.slots ∧
          (t.rs.stream st).join = some j ∧ lost (if st = .billing then 0 else 1) ∧ overs 0) ∧
        (j.count = a.count → st = .readings → t.ports = s.ports ∧ lost 0 ∧ overs 1 ∧
          ∃ i, (t.rs.stream st).join = some i ∧ i.area = j.area ∧ i.port = j.port ∧ i.count = j.count ∧
            (∀ k, k + 1 < j.count → recordAt i k t.rs = recordAt j (k + 1) s.rs) ∧
            recordAt i (j.count - 1) t.rs = some rec)))

/-- An AREA_SET of four bytes on port T with RESET_N high is refused INVALID for an area above 5; else BUSY where it is
joined; else INVALID for a count below 4 or above 256 or a last slot above 255; else OVERLAP where its slots meet another
defined area's; else OK with the entry taking first slot and count. An AREA_CLEAR of one byte is refused INVALID above 5,
BUSY where joined, else OK with the entry undefined. Other entries, the slots, the streams and every other block stay. Every
such reply, refused or not, carries the area table after the request, six entries of five bytes: for a defined one flag 1,
first slot, count, joined stream or 4; for an undefined one flag 0 and 4 for none. (The slots of an undefined entry are free
values, log entry 33.) -/
def Obligations.AreasAreSetAndClearedWhenFree : Prop :=
  (∀ (b : List Byte) (s : State), s.resetLow = false →
    let s0 := found .t s
    let i := u8 b 0
    let a : Area := ⟨u8 b 1, u16 b 2⟩
    let joined := ∃ st j, (s.rs.stream st).join = some j ∧ j.area = i
    let bad := a.count < 4 ∨ 256 < a.count ∨ 255 < a.first + a.count - 1
    let meets := ∃ k d, k ≠ i ∧ s.rs.defined k = some d ∧ a.first < d.first + d.count ∧ d.first < a.first + a.count
    let wrote (x : Option Area) (t : State) : Prop :=
      t.rs.defined i = x ∧ (∀ n, n ≠ i → t.rs.defined n = s.rs.defined n) ∧ t.rs.slots = s.rs.slots ∧
        (∀ st, t.rs.stream st = s.rs.stream st) ∧ Touches [.rs] s0 t
    (b.length = 4 →
      let gives (x : Status) : Prop :=
        exec (.areaSet .t b) s = .next (replies .t .areaSet x (areaTable s0) { s0 with free := s.free + 1 })
      (5 < i → gives .invalid) ∧ (i ≤ 5 → joined → gives .busy) ∧ (i ≤ 5 → ¬ joined → bad → gives .invalid) ∧
      (i ≤ 5 → ¬ joined → ¬ bad → meets → gives .overlap) ∧
      (i ≤ 5 → ¬ joined → ¬ bad → ¬ meets → ∃ t, wrote (some a) t ∧
        exec (.areaSet .t b) s = .next (replies .t .areaSet .ok (areaTable t) { t with free := s.free + 1 }))) ∧
    (b.length = 1 →
      let gives (x : Status) : Prop :=
        exec (.areaClear .t b) s = .next (replies .t .areaClear x (areaTable s0) { s0 with free := s.free + 1 })
      (5 < i → gives .invalid) ∧ (i ≤ 5 → joined → gives .busy) ∧
      (i ≤ 5 → ¬ joined → ∃ t, wrote none t ∧
        exec (.areaClear .t b) s = .next (replies .t .areaClear .ok (areaTable t) { t with free := s.free + 1 })))) ∧
  ∀ (s : State) (i : Nat), i ≤ 5 → (areaTable s).length = 30 ∧
    let e := ((areaTable s).drop (5 * i)).take 5
    (∀ a, s.rs.defined i = some a →
      e = bFlag true ++ b1 a.first ++ be 2 a.count ++ b1 (joinedCode s.rs i)) ∧
    (s.rs.defined i = none → e.head? = some 0 ∧ e.getLast? = some 4) ∧
    (∀ st j, StoreOk s → (s.rs.stream st).join = some j → j.area = i → joinedCode s.rs i = st.code) ∧
    ((∀ st j, (s.rs.stream st).join = some j → j.area ≠ i) → joinedCode s.rs i = 4)

/-- A JOIN of three bytes on port T with RESET_N high is refused INVALID for a stream above 3, an undefined area or a port
but V, C, T; else BUSY where the stream or the area is joined; else OK: the stream has the area, the consumer, its head at
the first slot and count 0, and where it is BILLING a held record and then a pending final one is placed. An UNJOIN of two
bytes is refused INVALID above 3; else NOT_JOINED; else LOCKED for BILLING with a session open or a record held; else
NOT_EMPTY with records and FORCE clear; else OK with the number discarded: the stream is unjoined, its records gone and
counted lost (saturating). Refused, nothing changes. Other streams, their records and the areas stay; STREAM flags follow
their condition. Each reply carries the area table. (Log entry 33.) -/
def Obligations.StreamsAreJoinedAndReleased : Prop :=
  ∀ (b : List Byte) (s : State), s.resetLow = false → StoreOk s →
    let s0 := found .t s
    let follows (t : State) : Prop := ∀ p, flagSet .stream (t.ports.get p).flags = streamCondition p t
    let gives (k : Kind) (c : Instr) (x : Status) : Prop :=
      exec c s = .next (replies .t k x (areaTable s0) { s0 with free := s.free + 1 })
    (b.length = 3 →
      let gives := gives .joinStream (.join .t b)
      let named := u8 b 0 ≤ 3 ∧ 1 ≤ u8 b 2 ∧ u8 b 2 ≤ 3 ∧ s.rs.defined (u8 b 1) ≠ none
      let used := ∃ st j, (s.rs.stream st).join = some j ∧ (st.code = u8 b 0 ∨ j.area = u8 b 1)
      (¬ named → gives .invalid) ∧ (named → used → gives .busy) ∧
      ∀ st p a, st.code = u8 b 0 → portCode p = u8 b 2 → s.rs.defined (u8 b 1) = some a → ¬ used →
        ∃ t, exec (.join .t b) s =
            .next (replies .t .joinStream .ok (areaTable t) (takeReports s0 { t with free := t.free + 1 })) ∧
          t.rs.areas = s.rs.areas ∧ (∀ st', st' ≠ st → t.rs.stream st' = s.rs.stream st') ∧
          (t.rs.stream st).lost = (s.rs.stream st).lost ∧ (t.rs.stream st).overwritten = (s.rs.stream st).overwritten ∧
          follows t ∧ (∃ j, (t.rs.stream st).join = some j ∧ j.area = u8 b 1 ∧ j.port = p ∧ j.head = a.first ∧
            (st ≠ .billing ∨ (s.ct.held = none ∧ s.ct.finalRecord = none) → j.count = 0 ∧ Touches [.rs, .ports] s0 t) ∧
            (∀ r, st = .billing → s.ct.held = some r → recordAt j 0 t.rs = some (.billing r) ∧ t.ct.held = none ∧
              (s.ct.finalRecord = none → j.count = 1 ∧ Touches [.rs, .ct, .ports] s0 t) ∧
              ∀ f, s.ct.finalRecord = some f → j.count = 2 ∧ recordAt j 1 t.rs = some (.billing f) ∧
                t.ct.finalRecord = none ∧ t.sc.finalPending = false ∧ Fired .sessionClosed s t))) ∧
    (b.length = 2 →
      let gives := gives .unjoin (.unjoin .t b)
      (3 < u8 b 0 → gives .invalid) ∧
      ∀ st, st.code = u8 b 0 →
        ((s.rs.stream st).join = none → gives .notJoined) ∧
        ∀ j, (s.rs.stream st).join = some j →
          let locked := st = .billing ∧ (s.sc.state.isOpen = true ∨ s.ct.held ≠ none)
          (locked → gives .locked) ∧ (¬ locked → 0 < j.count → u8 b 1 = 0 → gives .notEmpty) ∧
          (¬ locked → j.count = 0 ∨ u8 b 1 ≠ 0 →
            ∃ t, exec (.unjoin .t b) s =
                .next (replies .t .unjoin .ok (be 2 j.count ++ areaTable t) { t with free := s.free + 1 }) ∧
              t.rs.stream st = ⟨none, min 4294967295 ((s.rs.stream st).lost + j.count), (s.rs.stream st).overwritten⟩ ∧
              t.rs.areas = s.rs.areas ∧ (∀ k, k < j.count → recordAt j k t.rs = none) ∧ follows t ∧
              (∀ st', st' ≠ st → t.rs.stream st' = s.rs.stream st' ∧
                ∀ i k, (s.rs.stream st').join = some i → recordAt i k t.rs = recordAt i k s.rs) ∧
              Touches [.rs, .ports] s0 t))

/-- On any port, RESET_N high, under the invariant of the store. STREAM_READ (two bytes) and STREAM_ACK (three) are refused
INVALID for a stream above 3; else NOT_JOINED with the lost and overwritten counts, raising ALARM and adding the stream to
the alarm set of that port alone; else NOT_CONSUMER, with the consumer's code, from another port. A read of position k below
the count is OK with record k and the stream state, else EMPTY with the stream state; it changes nothing. An ACK of n removes
the m = min(n, count) oldest: position k then gives the record of position k + m; the freed slots are empty; the OK reply
carries m and the stream state. On BILLING with m above 0 a held record is appended within the event, and then a pending
final one is placed: appended where a slot is still free, else taken into the hold slot with BILLING raised; its session
ends, FINAL_PENDING clear, SESSION raised and SESSION_CLOSED fired. Other streams stay, and STREAM flags follow their
condition. -/
def Obligations.ConsumersReadAndAcknowledgeFromTheOldest : Prop :=
  ∀ (p : Port) (b : List Byte) (s : State), s.resetLow = false → StoreOk s →
    let s0 := found p s
    let figures (st : Stream) (x : StreamState) : List Byte :=
      (match x.join with
        | some j => b1 j.area ++ b1 (s.rs.area j.area).first ++ be 2 (s.rs.area j.area).count ++ b1 (portCode j.port) ++
          b1 j.head ++ be 2 j.count ++ be 2 (s.cfg.mark st)
        | none => []) ++ be 4 x.lost ++ be 4 x.overwritten
    (∀ k c, (k = .streamRead ∧ c = .streamRead p b ∧ b.length = 2) ∨ (k = .streamAck ∧ c = .streamAck p b ∧ b.length = 3) →
      (3 < u8 b 0 → exec c s = .next (replies p k .invalid [] s0)) ∧
      ∀ st, st.code = u8 b 0 →
        ((s.rs.stream st).join = none →
          ∃ t, exec c s = .next (replies p k .notJoined (figures st (s.rs.stream st)) t) ∧
            flagSet .alarm (t.ports.get p).flags = true ∧
            (t.ports.get p).alarm = (match st with
              | .billing => { (s.ports.get p).alarm with billing := true }
              | .insulation => { (s.ports.get p).alarm with insulation := true }
              | .events => { (s.ports.get p).alarm with events := true }
              | .readings => { (s.ports.get p).alarm with readings := true }) ∧
            (∀ p', p' ≠ p → t.ports.get p' = s.ports.get p') ∧ FlagsBut [.alarm] s0 t ∧ Touches [.ports] s0 t) ∧
        ∀ j, (s.rs.stream st).join = some j → j.port ≠ p →
          exec c s = .next (replies p k .notConsumer (b1 (portCode j.port)) s0)) ∧
    (b.length = 2 → ∀ st j, st.code = u8 b 0 → (s.rs.stream st).join = some j → j.port = p →
      (u8 b 1 < j.count → ∃ r, recordAt j (u8 b 1) s.rs = some r ∧ exec (.streamRead p b) s =
        .next (replies p .streamRead .ok (r.wire ++ figures st (s.rs.stream st)) s0)) ∧
      (j.count ≤ u8 b 1 → exec (.streamRead p b) s =
        .next (replies p .streamRead .empty (figures st (s.rs.stream st)) s0))) ∧
    (b.length = 3 → ∀ st j, st.code = u8 b 0 → (s.rs.stream st).join = some j → j.port = p →
      let m := min (u16 b 1) j.count
      ∃ t i, exec (.streamAck p b) s =
          .next (replies p .streamAck .ok (be 2 m ++ figures st (t.rs.stream st)) (takeReports s0 t)) ∧
        (t.rs.stream st).join = some i ∧ i.area = j.area ∧ i.port = j.port ∧
        (∀ k, k + m < j.count → recordAt i k t.rs = recordAt j (k + m) s.rs) ∧
        (t.rs.stream st).lost = (s.rs.stream st).lost ∧ (t.rs.stream st).overwritten = (s.rs.stream st).overwritten ∧
        t.rs.areas = s.rs.areas ∧ (∀ q, flagSet .stream (t.ports.get q).flags = streamCondition q t) ∧
        (∀ st', st' ≠ st → t.rs.stream st' = s.rs.stream st' ∧
          ∀ h k, (s.rs.stream st').join = some h → recordAt h k t.rs = recordAt h k s.rs) ∧
        (st ≠ .billing ∨ m = 0 ∨ (s.ct.held = none ∧ s.ct.finalRecord = none) →
          i.count = j.count - m ∧ (∀ k, k < m → recordAt j k t.rs = none) ∧ Touches [.rs, .ports] s0 t) ∧
        (∀ r, st = .billing → 0 < m → s.ct.held = some r → t.ct.held.all (fun f => s.ct.finalRecord = some f) = true ∧
          recordAt i (j.count - m) t.rs = some (.billing r) ∧ t.ct.finalRecord = none ∧
          (s.ct.finalRecord = none → i.count = j.count - m + 1 ∧ Touches [.rs, .ct, .ports] s0 t) ∧
          (s.ct.finalRecord ≠ none → t.sc.finalPending = false ∧ Fired .sessionClosed s t)) ∧
        (∀ f, st = .billing → 0 < m → s.ct.finalRecord = some f →
          let n := j.count - m + (if s.ct.held = none then 0 else 1)
          t.ct.finalRecord = none ∧ t.sc.finalPending = false ∧ Raised .session t ∧ Fired .sessionClosed s t ∧
          (n < (s.rs.area j.area).count →
            recordAt i n t.rs = some (.billing f) ∧ i.count = n + 1 ∧ t.ct.held = none) ∧
          ((s.rs.area j.area).count ≤ n → i.count = n ∧ t.ct.held = some f ∧ Raised .billing t)))

/-- The operation by which a source occurs. Disabled, it changes nothing. Enabled and not pending, it joins the pending set
with its port and the time of the clock, or the engine's uptime count marked unset, and nothing else of the engine changes.
Enabled and pending, the member stays, the missed count rises by 1 up to 255, and CAPTURE is raised in all ports.
SNAPSHOT_NOW, on any port with RESET_N high, is one such occurrence of REQUEST with that port; the OK reply carries the
outcome PENDED 0, MISSED 1 or DISABLED 2, the set of pending sources after it and the missed count of REQUEST. (The day
figure of an unset time is a free value, log entry 8.) -/
def Obligations.OccurrencesJoinOrAreMissed : Prop :=
  (∀ (port : Option Port) (src : Source) (s : State),
    let t := occurFrom port src s
    let k := src.code
    let on := (s.se.vectors.get k).enabled = true
    (¬ on → t = s) ∧
    (on → s.se.waiting.get k = none →
      (∃ m, t.se.waiting.get k = some m ∧ m.port = port ∧ m.time.unset = !s.ct.valid ∧
        (s.ct.valid = true → m.time = ⟨false, s.ct.day, s.ct.sec⟩) ∧ (s.ct.valid = false → m.time.sec = s.se.uptime)) ∧
      (∀ i, i ≠ k → t.se.waiting.get i = s.se.waiting.get i) ∧ t.se = { s.se with waiting := t.se.waiting } ∧
      Touches [.se, .free] s t) ∧
    (∀ m, on → s.se.waiting.get k = some m →
      t.se.missed.get k = min 255 (s.se.missed.get k + 1) ∧ (∀ i, i ≠ k → t.se.missed.get i = s.se.missed.get i) ∧
      t.se = { s.se with missed := t.se.missed } ∧ Raised .capture t ∧ FlagsBut [.capture] s t ∧
      Touches [.se, .ports] s t)) ∧
  ∀ (p : Port) (s : State), s.resetLow = false →
    let s0 := found p s
    let t := occurFrom (some p) .request s0
    let outcome : Nat := if (s.se.vectors.get 11).enabled = false then 2 else if s.se.waiting.get 11 = none then 0 else 1
    ∃ n : Nat, exec (.snapshotNow p []) s =
        .next (replies p .snapshotNow .ok (b1 outcome ++ be 2 n ++ b1 (t.se.missed.get 11)) t) ∧
      n < 4096 ∧ ∀ k : Fin 12, (n.testBit k.val = true ↔ (t.se.waiting.get k).isSome = true)

/-- With RESET_N high. SNAPSHOT_SELECTION, in IDLE with a source pending, takes the lowest-numbered one, whose first
descriptor is not exhausted, out of the pending set: its chain runs from that descriptor while the chain flags say so, at
most to 15, and the composition of the first begins, 2 ms, with the header and figures read now; otherwise it does nothing.
COMPOSITION_COMPLETE lets the time left pass, offers the record to the stream of its descriptor and counts the use: above 1
the count falls by 1; else a REPEAT count takes its reload, with CAPTURE if notify is set, and a NORMAL one is 0, CAPTURE is
raised, and the source served and all that name it first are disabled and withdrawn. The next descriptor of the chain not
exhausted then begins for the same trigger, or the engine is IDLE. Until time passes the chain counts as just served. Without
a composition it does nothing. (Log entries 2, 3, 30 and 39.) -/
def Obligations.ChainsAreSelectedComposedAndCounted : Prop :=
  (∀ s : State,
    (s.se.service.isSome = true ∨ (∀ k, s.se.waiting.get k = none) → exec .snapshotSelection s = .next s) ∧
    (s.se.service = none → exec .compositionComplete s = .next s)) ∧
  (∀ (s : State) (k : Fin 12) (m : Member), s.resetLow = false → s.se.service = none → s.se.waiting.get k = some m →
    (∀ i, i < k → s.se.waiting.get i = none) →
    let first := (s.se.vectors.get k).first
    let d := s.se.desc first
    first ≤ 15 → (d.repeating = true ∨ 0 < d.count) →
    ∃ t n, exec .snapshotSelection s = .next t ∧ t.se.waiting.get k = none ∧
      (∀ i, i ≠ k → t.se.waiting.get i = s.se.waiting.get i) ∧
      first + n ≤ 15 ∧ (∀ i, first ≤ i → i < first + n → (s.se.desc i).chain = true) ∧
      (first + n = 15 ∨ (s.se.desc (first + n)).chain = false) ∧
      t.se.service = some
        { source := k.val, member := m, chain := List.range' first (n + 1), rest := List.range' (first + 1) n, left := 2
          record :=
            { source := k.val, port := m.port, desc := first, repeating := d.repeating, fieldSet := d.fieldSet
              time := m.time, seq := s.fe.latest.map SampleSet.seq, missed := s.se.missed.get k
              countAfter := if 1 < d.count then d.count - 1 else if d.repeating then d.reload else 0
              body := fieldBody d.fieldSet s } } ∧
      t.se = { s.se with waiting := t.se.waiting, service := t.se.service } ∧ Touches [.se, .free] s t) ∧
  ∀ (s : State) (v : Service), s.resetLow = false → s.se.service = some v → v.source < 12 → v.record.desc ≤ 15 →
    let u := elapse v.left s
    let i := v.record.desc
    let d := s.se.desc i
    let runsOut := d.count ≤ 1
    let hit (k : Fin 12) : Prop := k.val = v.source ∨ (s.se.vectors.get k).first = i
    ∃ t, exec .compositionComplete s = .next t ∧
      t.rs = (offer (if d.toReadings then .readings else .events) (.captured v.record) u).rs ∧
      t.se.desc i = { d with
        count := if 1 < d.count then d.count - 1 else if d.repeating then d.reload else 0 } ∧
      (∀ n, n ≤ 15 → n ≠ i → t.se.desc n = s.se.desc n) ∧ t.se.missed = s.se.missed ∧ t.se.justServed = v.chain ∧
      (runsOut → d.repeating = false → Raised .capture t ∧
        ∀ k, (hit k → t.se.vectors.get k = ⟨false, (s.se.vectors.get k).first⟩ ∧ t.se.waiting.get k = none) ∧
          (¬ hit k → t.se.vectors.get k = s.se.vectors.get k ∧ t.se.waiting.get k = s.se.waiting.get k)) ∧
      (¬ runsOut ∨ d.repeating = true → t.se.vectors = s.se.vectors ∧ t.se.waiting = s.se.waiting) ∧
      (runsOut → d.repeating = true → d.notify = true → Raised .capture t) ∧
      (¬ runsOut ∨ (d.repeating = true ∧ d.notify = false) → FlagsBut [.stream] s t) ∧
      FlagsBut [.stream, .capture] s t ∧
      (let rest := v.rest.dropWhile (fun k => (t.se.desc k).spent);
        (rest = [] → t.se.service = none) ∧
        ∀ k ks, rest = k :: ks → ∃ w, t.se.service = some w ∧ w.source = v.source ∧ w.member = v.member ∧
          w.chain = v.chain ∧ w.rest = ks ∧ w.left = 2 ∧ w.record.desc = k ∧ w.record.source = v.source ∧
          w.record.port = v.member.port ∧ w.record.time = v.member.time ∧ w.record.fieldSet = (t.se.desc k).fieldSet ∧
          w.record.body = fieldBody (t.se.desc k).fieldSet u) ∧
      Touches [.se, .rs, .ports, .free] u t

/-- On port T with RESET_N high. A DESC_SET of nine bytes is refused INVALID for an index above 15, a mode above 1, a field
set above 5 or a stream but EVENTS 2 and READINGS 3; else BUSY for a descriptor of the chain under service, or of one whose
completion falls together with it; else the descriptor is the one carried, a reload of 0 stored 1 with CLAMPED, OK otherwise.
Left NORMAL at count 0, it disables the enabled sources that name it first and withdraws their pending members; the reply
carries it and that set. A VECTOR_SET of three bytes is refused INVALID for a source above 11 or an index above 15; else
EXHAUSTED if it enables with a descriptor NORMAL at count 0; else OK: the entry is written, the missed count 0, the member
withdrawn if disabled; the reply carries entry and old missed count. Refused, nothing changes; other entries stay. (Log
entries 18, 34 and 39.) -/
def Obligations.SnapshotTablesAreSetWithTheirChecks : Prop :=
  ∀ (b : List Byte) (s : State), s.resetLow = false →
    let s0 := found .t s
    let i := u8 b 0
    (b.length = 9 →
      let invalid := 15 < i ∨ 1 < u8 b 1 ∨ 5 < u8 b 2 ∨ u8 b 3 < 2 ∨ 3 < u8 b 3
      let busy := (∃ v, s.se.service = some v ∧ i ∈ v.chain) ∨ i ∈ s.se.justServed
      (invalid → exec (.descSet .t b) s = .next (replies .t .descSet .invalid [] s0)) ∧
      (¬ invalid → busy → exec (.descSet .t b) s = .next (replies .t .descSet .busy [] s0)) ∧
      ∀ f, ¬ invalid → ¬ busy → fieldSetOf (u8 b 2) = some f →
        let d : Descriptor :=
          { repeating := u8 b 1 = 1, fieldSet := f, toReadings := u8 b 3 = 3, count := u16 b 4
            reload := if u16 b 6 = 0 then 1 else u16 b 6, chain := (u8 b 8).testBit 0, notify := (u8 b 8).testBit 1 }
        let hit (k : Fin 12) : Prop := u8 b 1 = 0 ∧ u16 b 4 = 0 ∧ s.se.vectors.get k = ⟨true, i⟩
        ∃ t n, exec (.descSet .t b) s = .next (replies .t .descSet (if u16 b 6 = 0 then .clamped else .ok)
            (b1 (u8 b 1) ++ b1 f.code ++ b1 (u8 b 3) ++ be 2 d.count ++ be 2 d.reload ++ bFlag d.chain ++ bFlag d.notify ++
              be 2 n) t) ∧
          n < 4096 ∧ t.se.desc i = d ∧ (∀ m, m ≤ 15 → m ≠ i → t.se.desc m = s.se.desc m) ∧
          (∀ k, (n.testBit k.val = true ↔ hit k) ∧
            (hit k → t.se.vectors.get k = ⟨false, i⟩ ∧ t.se.waiting.get k = none) ∧
            (¬ hit k → t.se.vectors.get k = s.se.vectors.get k ∧ t.se.waiting.get k = s.se.waiting.get k)) ∧
          t.se.missed = s.se.missed ∧ t.se.service = s.se.service ∧ t.se.justServed = s.se.justServed ∧ Touches [.se] s0 t) ∧
    (b.length = 3 →
      let on := u8 b 1 ≠ 0
      let invalid := 11 < i ∨ 15 < u8 b 2
      let spent := (s.se.desc (u8 b 2)).repeating = false ∧ (s.se.desc (u8 b 2)).count = 0
      (invalid → exec (.vectorSet .t b) s = .next (replies .t .vectorSet .invalid [] s0)) ∧
      (¬ invalid → on → spent → exec (.vectorSet .t b) s = .next (replies .t .vectorSet .exhausted [] s0)) ∧
      ∀ k : Fin 12, k.val = i → ¬ invalid → ¬ (on ∧ spent) →
        ∃ t, exec (.vectorSet .t b) s = .next (replies .t .vectorSet .ok
            (bFlag (decide on) ++ b1 (u8 b 2) ++ b1 (s.se.missed.get k)) t) ∧
          t.se.vectors.get k = ⟨decide on, u8 b 2⟩ ∧ t.se.missed.get k = 0 ∧
          t.se.waiting.get k = (if on then s.se.waiting.get k else none) ∧
          (∀ m, m ≠ k → t.se.vectors.get m = s.se.vectors.get m ∧ t.se.missed.get m = s.se.missed.get m ∧
            t.se.waiting.get m = s.se.waiting.get m) ∧
          t.se.descs = s.se.descs ∧ t.se.service = s.se.service ∧ t.se.justServed = s.se.justServed ∧ Touches [.se] s0 t)

/-- With RESET_N high. A FRAMING_ERROR (a partial frame), an OVERLONG_FRAME (length above 60) and a CRC_ERROR (check byte
other than the CRC of kind, length and body) add their member to that port's error set, raise its PORT_ERROR, end its
exchange and leave its pending reply and all else; where the condition does not hold nothing happens. An UNKNOWN_KIND_REQUEST
of a kind not in the table is answered UNKNOWN_KIND with an empty body, a pending reply overrun first. FETCH drives the
pending reply's frame (kind + 0x80, status, length, body, check), or the WAIT frame 80 02 00 21, and changes nothing else.
REPLY_SHIFT_COMPLETE empties the buffer while a pending reply is driven, and does nothing otherwise. Taking a request
discards a pending reply, recording OVERRUN. The data output is high-impedance with RESET_N low or chip select high, 0x00
while a frame is clocked in; after a FETCH frame it gives the driven bytes, then 0x00. (Log entries 3 and 6; 41 for other
frames.) -/
def Obligations.BrokenFramesAndFetch : Prop :=
  (∀ (p : Port) (s : State),
    (∀ x, s.resetLow = true → dataOut p x s = .highImpedance) ∧ dataOut p .released s = .highImpedance ∧
    (s.resetLow = false → dataOut p .frame s = .drives 0 ∧
      (∃ t, exec (.fetch p []) s = .next t ∧ ∀ n : Nat,
        (∀ r, (s.ports.get p).reply = some r → dataOut p (.afterFetch n) t = .drives (r.frame.getD n 0)) ∧
        ((s.ports.get p).reply = none →
          dataOut p (.afterFetch n) t = .drives ([0x80#8, 0x02#8, 0x00#8, 0x21#8].getD n 0))) ∧
      ((s.ports.get p).shiftsReply = true → ∃ t, exec (.replyShiftComplete p) s = .next t ∧
        ∀ n : Nat, dataOut p (.afterFetch n) t = .drives 0))) ∧
  ∀ (p : Port) (s : State), s.resetLow = false →
    let broken (x : PortUnit → ErrorSet) (t : State) : Prop :=
      Touches [.ports] s t ∧ (∀ q, q ≠ p → t.ports.get q = s.ports.get q) ∧
      t.ports.get p = { s.ports.get p with
        request := [], shift := [], shiftsReply := false, errors := x (s.ports.get p)
        flags := (s.ports.get p).flags ||| 0x800#12 }
    let driven (u : PortUnit) (t : State) : Prop :=
      Touches [.ports] s t ∧ (∀ q, q ≠ p → t.ports.get q = s.ports.get q) ∧ t.ports.get p = u
    (∀ (received : List Byte) (bits : Nat),
      let cut := (received = [] ∧ 0 < bits) ∨ received.length = 1 ∨
        ∃ k l rest, received = k :: l :: rest ∧ l.toNat ≤ 60 ∧ rest.length ≤ l.toNat
      (cut → ∃ t, exec (.framingError p received bits) s = .next t ∧
        broken (fun u => { u.errors with framing := true }) t) ∧
      (¬ cut → exec (.framingError p received bits) s = .next s)) ∧
    (∀ k l : Byte,
      (60 < l.toNat → ∃ t, exec (.overlongFrame p k l) s = .next t ∧ broken (fun u => { u.errors with framing := true }) t) ∧
      (l.toNat ≤ 60 → exec (.overlongFrame p k l) s = .next s)) ∧
    (∀ (k check : Byte) (b : List Byte),
      (b.length ≤ 60 → check ≠ crc8 (k :: BitVec.ofNat 8 b.length :: b) →
        ∃ t, exec (.crcError p k b check) s = .next t ∧ broken (fun u => { u.errors with crc := true }) t) ∧
      (60 < b.length ∨ check = crc8 (k :: BitVec.ofNat 8 b.length :: b) → exec (.crcError p k b check) s = .next s)) ∧
    (∀ (k : Byte) (b : List Byte),
      (knownKind k = false → exec (.unknownKindRequest p k b) s = .next (putReply p ⟨k, .unknownKind, []⟩ (found p s))) ∧
      (knownKind k = true → exec (.unknownKindRequest p k b) s = .next s)) ∧
    (∃ t, exec (.fetch p []) s = .next t ∧
      (∀ r, (s.ports.get p).reply = some r →
        let head := (r.kind + 0x80#8) :: BitVec.ofNat 8 r.status.code :: BitVec.ofNat 8 r.body.length :: r.body
        driven { s.ports.get p with request := [], shift := head ++ [crc8 head], shiftsReply := true } t) ∧
      ((s.ports.get p).reply = none → driven { s.ports.get p with
        request := [], shift := [0x80#8, 0x02#8, 0x00#8, 0x21#8], shiftsReply := false } t)) ∧
    ((s.ports.get p).shiftsReply = true → ∃ t, exec (.replyShiftComplete p) s = .next t ∧
      driven { s.ports.get p with reply := none, shift := [], shiftsReply := false } t) ∧
    ((s.ports.get p).shiftsReply = false → exec (.replyShiftComplete p) s = .next s) ∧
    ((s.ports.get p).reply = none →
      driven { s.ports.get p with request := [], shift := [], shiftsReply := false } (found p s)) ∧
    ((s.ports.get p).reply ≠ none →
      driven { s.ports.get p with
        request := [], reply := none, shift := [], shiftsReply := false
        errors := { (s.ports.get p).errors with overrun := true }
        flags := (s.ports.get p).flags ||| 0x800#12 } (found p s))

/-- For every request command with RESET_N high: a body of a length the table does not give its kind is refused LENGTH; of a
right length from a port the table does not give it, PERMISSION. Both leave what taking a request leaves, the reply apart,
which is empty but for AREA_SET, AREA_CLEAR, JOIN and UNJOIN: theirs carries the area table (its free values: log entry 33).
The lengths are those of the table, SESSION_OPEN 6 and the label of at most 16, TARIFF_LOAD 2 + 4n with n from 1 to 8, and
the ports: T alone for TIME_SET, the plan and the snapshot tables, V alone for LIMITS, HEAT_REQUEST, INS_START, INS_STOP,
FAULT_ACK, LOCKOUT_RELEASE and HEATER_RESTORE, C alone for the session requests, V and C for MEASURE_NOW, C and T for
TARIFF_LOAD, all for the rest. A request of any kind but an empty FETCH leaves a reply of its kind pending on its port. -/
def Obligations.EveryRequestIsCheckedForLengthAndPort : Prop :=
  (∀ (c : Instr) (p : Port) (k : Kind) (b : List Byte) (s : State), asRequest c = some (p, k, b) → s.resetLow = false →
    let s0 := found p s
    let plan := k = .areaSet ∨ k = .areaClear ∨ k = .joinStream ∨ k = .unjoin
    (∀ x, (lengthOk k b = false ∧ x = .length) ∨ (lengthOk k b = true ∧ portOk k p = false ∧ x = .permission) →
      (¬ plan → exec c s = .next (replies p k x [] s0)) ∧
      (plan → exec c s = .next (replies p k x (areaTable s0) { s0 with free := s.free + 1 }))) ∧
    (c ≠ .fetch p [] → ∃ t r, exec c s = .next t ∧ (t.ports.get p).reply = some r ∧ r.kind = BitVec.ofNat 8 k.code)) ∧
  (∀ (k : Kind) (b : List Byte), k ≠ .sessionOpen → k ≠ .tariffLoad → (lengthOk k b = true ↔ b.length =
    match k with
    | .limits => 8 | .timeSet => 6 | .descSet => 9
    | .faultAck | .offerUpdate | .areaSet => 4
    | .heatRequest | .configSet | .joinStream | .vectorSet | .streamAck => 3
    | .tariffGet | .noticeClear | .noticeEnable | .unjoin | .streamRead => 2
    | .heaterRestore | .stationPause | .faultList | .configGet | .areaClear => 1
    | _ => 0)) ∧
  (∀ b, lengthOk .sessionOpen b = true ↔ 6 ≤ b.length ∧ u8 b 5 ≤ 16 ∧ b.length = 6 + u8 b 5) ∧
  (∀ b, lengthOk .tariffLoad b = true ↔ ∃ n, 1 ≤ n ∧ n ≤ 8 ∧ b.length = 2 + 4 * n) ∧
  ∀ (k : Kind) (p : Port), (portOk k p = true ↔ p ∈
    match k with
    | .limits | .heatRequest | .insStart | .insStop | .faultAck | .lockoutRelease | .heaterRestore => [Port.v]
    | .measureNow => [.v, .c]
    | .sessionOpen | .offerUpdate | .stationPause | .sessionClose => [.c]
    | .tariffLoad => [.c, .t]
    | .timeSet | .areaSet | .areaClear | .joinStream | .unjoin | .descSet | .vectorSet => [.t]
    | _ => [.v, .c, .t])

/-- On any port with RESET_N high. A CONFIG_SET of three bytes is refused INVALID for an unknown code, else PERMISSION from a
port not the item's owner. Else the value is clamped to the range, INS_FAULT_OPV below INS_WARN_OPV to 10 less, each derate
threshold to 10 from its neighbours; CLAMPED if changed, else OK, with code, previous and stored value; that item alone
changes. At once: either pulse item zeroes accumulator, pending and lost; SNAP_PERIOD_S the periodic timer; a mark sets the
STREAM flags to their condition; a changed OBC_PMAX or OBC_EFF lowers P_cmd in PREHEAT, CHARGING and CLOSING to both limits
in tens (0 in CLOSING asks the final close) and recomputes A_h; a changed HEAT_IDLE_S opens a leg idle as long, deferred in a
phase; a longer one drops a waiting disconnect (log entry 36). Other items change nothing else. A CONFIG_GET of one byte is
refused INVALID or gives code, value, range, default, owner, and changes nothing. -/
def Obligations.ItemsAreClampedStoredAndTakeEffect : Prop :=
  ∀ (p : Port) (b : List Byte) (s : State), s.resetLow = false →
    let s0 := found p s
    (b.length = 1 →
      (itemOf (u8 b 0) = none → exec (.configGet p b) s = .next (replies p .configGet .invalid [] s0)) ∧
      ∀ k, itemOf (u8 b 0) = some k → exec (.configGet p b) s = .next (replies p .configGet .ok
        (b1 (u8 b 0) ++ be 2 (s.cfg.get k) ++ be 2 k.range.1 ++ be 2 k.range.2 ++ be 2 (State.reset.cfg.get k) ++
          b1 (portCode k.owner)) s0)) ∧
    (b.length = 3 →
      (itemOf (u8 b 0) = none → exec (.configSet p b) s = .next (replies p .configSet .invalid [] s0)) ∧
      ∀ k, itemOf (u8 b 0) = some k →
        (p ≠ k.owner → exec (.configSet p b) s = .next (replies p .configSet .permission [] s0)) ∧
        (p = k.owner →
          let x := max k.range.1 (min k.range.2 (u16 b 1))
          let v := if k = .insFaultOpv then (if s.cfg.insWarnOpv ≤ x then s.cfg.insWarnOpv - 10 else x)
            else if k = .derateTWarm then min x (s.cfg.derateTHot - 10)
            else if k = .derateTHot then max (s.cfg.derateTWarm + 10) (min x (s.cfg.derateTTrip - 10))
            else if k = .derateTTrip then max x (s.cfg.derateTHot + 10) else x
          let s1 : State := { s0 with cfg := s.cfg.put k v }
          ∃ t, exec (.configSet p b) s = .next (replies p .configSet (if v = u16 b 1 then .ok else .clamped)
              (b1 (u8 b 0) ++ be 2 (s.cfg.get k) ++ be 2 v) (takeReports s0 t)) ∧
            t.cfg.get k = v ∧ (∀ k', k' ≠ k → t.cfg.get k' = s.cfg.get k') ∧
            (k = .pulseWhInt ∨ k = .pulseWhEighths → t = { s1 with ea := { s.ea with acc := 0, pulses := 0, lost := 0 } }) ∧
            (k = .snapPeriodS → t = { s1 with se := { s.se with periodic := 0 } }) ∧
            (k = .markBilling ∨ k = .markInsulation ∨ k = .markEvents ∨ k = .markReadings →
              Touches [.ports] s1 t ∧ FlagsBut [.stream] s0 t ∧
              ∀ q, flagSet .stream (t.ports.get q).flags = streamCondition q t) ∧
            (k = .obcPmax ∨ k = .obcEff → (s.cfg.get k = v → t = s1) ∧
              (s.cfg.get k ≠ v →
                let q := min s.pc.pCmd (min (lStationOf s1) (lObcOf s1)) / 10 * 10
                let ends := s.sc.state = .closing ∧ q = 0 ∧ s.sc.commandZero = false
                (ends → ClosedNow s.sc.plug s1 t) ∧
                (¬ ends → t.pc.aH = allowanceOf (latestVBus s) s1 ∧ Touches [.pc, .hc] s1 t ∧
                  t.pc.pCmd = if s.sc.state = .preheat ∨ s.sc.state = .charging ∨ s.sc.state = .closing then q
                    else s.pc.pCmd))) ∧
            (k = .heatIdleS → (s.cfg.heatIdleS = v → t = s1) ∧
              (s.cfg.heatIdleS ≠ v →
                let reached := 0 < v ∧ ∃ i, s.hc.idle = some i ∧ v * 1000 ≤ i
                (¬ reached → t = { s1 with hc := { s.hc with idleDeferred := false } }) ∧
                (reached → s.im.inPhase = true → t = { s1 with hc := { s.hc with idleDeferred := true } }) ∧
                (reached → s.im.inPhase = false → s.hc.leg = .connected → heaterOff s → t = { s1 with hc := { s.hc with
                  leg := .disconnected, settle := some 200, connect := none, idle := none, idleDeferred := false } }))) ∧
            (k ≠ .pulseWhInt → k ≠ .pulseWhEighths → k ≠ .snapPeriodS → k ≠ .markBilling → k ≠ .markInsulation →
              k ≠ .markEvents → k ≠ .markReadings → k ≠ .obcPmax → k ≠ .obcEff → k ≠ .heatIdleS → t = s1)))

/-- On any port with RESET_N high. NOTICE_GET is OK with flags, mask and alarm set and changes nothing. NOTICE_CLEAR and
NOTICE_ENABLE of two bytes naming a code above 11 are refused INVALID. A clear clears the named flags except STREAM, empties
the alarm set if it names ALARM, and is OK with the flags after it; an enable replaces the mask and is OK with mask and
flags. ERR_CLEAR is OK with the error set as it was after an overrun, and empties it, PORT_ERROR left. STATUS_GET is OK with
the figures of each block in order and the error set, and changes nothing but the model's count of free values (log entries
9, 10, 21 and 40). No other port and no other block changes. The notice line is asserted exactly where RESET_N is high and a
flag is both set and enabled. -/
def Obligations.NoticesErrorsAndStatusOfAPort : Prop :=
  (∀ (p : Port) (s : State), noticeLine p s = true ↔
    s.resetLow = false ∧ ∃ n, flagSet n (s.ports.get p).flags = true ∧ flagSet n (s.ports.get p).mask = true) ∧
  ∀ (p : Port) (b : List Byte) (s : State), s.resetLow = false →
    let s0 := found p s
    let u := s0.ports.get p
    let set (x : BitVec 12) : List Byte := be 2 x.toNat
    let x := BitVec.ofNat 12 (u16 b 0)
    exec (.noticeGet p []) s = .next (replies p .noticeGet .ok (set u.flags ++ set u.mask ++
      b1 (setSum [u.alarm.billing, u.alarm.insulation, u.alarm.events, u.alarm.readings])) s0) ∧
    exec (.errClear p []) s = .next (replies p .errClear .ok
      (b1 (setSum [u.errors.framing, u.errors.crc, u.errors.overrun]))
      { s0 with ports := s0.ports.put p { u with errors := ⟨false, false, false⟩ } }) ∧
    (b.length = 2 → 4095 < u16 b 0 →
      exec (.noticeClear p b) s = .next (replies p .noticeClear .invalid [] s0) ∧
      exec (.noticeEnable p b) s = .next (replies p .noticeEnable .invalid [] s0)) ∧
    (b.length = 2 → u16 b 0 ≤ 4095 →
      exec (.noticeEnable p b) s = .next (replies p .noticeEnable .ok (set x ++ set u.flags)
        { s0 with ports := s0.ports.put p { u with mask := x } }) ∧
      ∃ f, exec (.noticeClear p b) s = .next (replies p .noticeClear .ok (set f) { s0 with ports := s0.ports.put p { u with
          flags := f
          alarm := if flagSet .alarm x then ⟨false, false, false, false⟩ else u.alarm } }) ∧
        ∀ n, (flagSet n f = true ↔ flagSet n u.flags = true ∧ (flagSet n x = false ∨ n = .stream))) ∧
    ∃ m, exec (.statusGet p []) s = .next (replies p .statusGet .ok (statusBody p s0) { s0 with free := m }) ∧
      statusBody p s0 =
        b1 s.sc.state.code ++ b1 (plugCode s.sc.plug) ++ b1 s.sc.hold.sum ++ b1 s.sc.lockout.sum ++
        bFlag s.sc.finalPending ++ b1 s.sc.record.label.length ++ s.sc.record.label ++
        limitsFigures s ++ b1 (limitsCode s.sc) ++
        b1 s.im.level.code ++ bFlag s.im.runRequested ++ bFlag s.im.running ++ b1 s.im.meas.code ++
        (match s.im.last with
          | some r => be 4 r.number ++ bFlag r.valid ++ b1 r.cls.code
          | none => be 4 0 ++ bFlag false ++ b1 0) ++
        b1 s.hc.e1.state.code ++ b1 s.hc.e2.state.code ++ b1 s.hc.e1.cause.code ++ b1 s.hc.e2.cause.code ++
        b1 s.hc.leg.code ++ bFlag s.hc.mode ++ beSigned 2 s.hc.target ++ bFlag s.hc.thermostat ++ bFlag s.hc.sensor ++
        be 2 s.hc.demand ++ be 2 s.hc.hOn ++
        be 2 s.pc.pCmd ++ be 2 s.pc.aH ++ b1 s.pc.derate.code ++ bFlag s.pc.exhausted ++
        bFlag s.ct.valid ++ be 2 s.ct.day ++ be 4 s.ct.sec ++ be 2 (indexFigure s) ++ be 2 s.ct.price ++
        b1 s.ct.station.status.code ++ be 2 s.ct.station.generation ++ b1 s.ct.fleet.status.code ++
        be 2 s.ct.fleet.generation ++ bFlag s.ct.held.isSome ++
        b1 (setSum [u.errors.framing, u.errors.crc, u.errors.overrun])

/-- On any port with RESET_N high. READING_GET is answered OK in every state and changes nothing but the port unit. Its body
carries in order session number, open time with its unset mark, the accruing flag, the session account's G, Bg, Hg, Lg and Hb
in Wh, SATURATED_ACCOUNT, the session cost rounded half up to minor units, the lifetime account's G and its other four
fields, its saturated flag, the unassigned counter, pending and lost pulses. TARIFF_GET of two bytes is refused INVALID for a
kind or selector above 1; where the selected table exists it is answered OK with status, generation and the periods in order,
else EMPTY with status and generation alone; it changes nothing but the port unit. -/
def Obligations.ReadingsAndTariffsAreReadWhole : Prop :=
  ∀ (p : Port) (b : List Byte) (s : State), s.resetLow = false →
    let s0 := found p s
    let a := s.ea.session
    let l := s.ea.lifetime
    let time := s.sc.record.openTime
    exec (.readingGet p []) s = .next (replies p .readingGet .ok
      (be 4 s.sc.record.number ++ (be 2 time.day ++ be 4 time.sec ++ bFlag time.unset) ++ bFlag s.ea.accruing ++
        be 4 a.g.wh ++ be 4 a.bg.wh ++ be 4 a.hg.wh ++ be 4 a.lg.wh ++ be 4 a.hb.wh ++
        bFlag (a.gridFrozen || a.hbFrozen) ++ be 5 ((s.ct.cost + 500) / 1000) ++
        be 5 l.g.wh ++ be 5 l.bg.wh ++ be 5 l.hg.wh ++ be 5 l.lg.wh ++ be 5 l.hb.wh ++
        bFlag (l.gridFrozen || l.hbFrozen) ++ be 4 s.ea.unassigned.wh ++ b1 s.ea.pulses ++ be 4 s.ea.lost) s0) ∧
    (b.length = 2 →
      (1 < u8 b 0 ∨ 1 < u8 b 1 → exec (.tariffGet p b) s = .next (replies p .tariffGet .invalid [] s0)) ∧
      (u8 b 0 ≤ 1 → u8 b 1 ≤ 1 →
        let k := s.ct.kind (if u8 b 0 = 0 then .station else .fleet)
        let head := b1 (if k.staged.isSome then 1 else if k.active.isSome then 2 else 0) ++ be 2 k.generation
        let tab := if u8 b 1 = 0 then k.active else k.staged
        (tab = none → exec (.tariffGet p b) s = .next (replies p .tariffGet .empty head s0)) ∧
        ∀ t, tab = some t → exec (.tariffGet p b) s = .next (replies p .tariffGet .ok
          (head ++ t.flatMap fun x => be 2 x.start ++ be 2 x.price) s0)))

/-- A count in k bytes is carried most significant first, too wide a one at the field's largest value; a signed figure in
two's complement; a set as the sum of 2 to the code of each member. A billing record, a result record and a captured record
have 48 bytes, with the fields of their layouts at their offsets, bytes 28 to 47 of a result record 0, and after an 18-byte
header the body of a captured record filled with zeros. The bodies carry: SESSION 23 bytes, ENERGY 30, POWER 19, THERMAL 20,
INSULATION 21, LIMITS 13, each with its figures at their offsets; the figures of an absent sample set or last result are 0.
(Codes by position: log entry 20. The interval's figures without an interval and the LIMITS figures without a record are free
values, log entries 9 and 10; the remaining validity is log entry 31.) -/
def Obligations.RecordsAndFieldSetsHaveTheirLayouts : Prop :=
  (∀ k n : Nat, (be k n).length = k ∧ countOf (be k n) = min n (256 ^ k - 1)) ∧
  (∀ (k : Nat) (x : Int), -(2 ^ (8 * k + 7) : Int) ≤ x → x < 2 ^ (8 * k + 7) →
    (beSigned (k + 1) x).length = k + 1 ∧ (countOf (beSigned (k + 1) x) : Int) = x % 256 ^ (k + 1)) ∧
  (∀ (l : List Bool) (k : Nat), (setSum l).testBit k = l.getD k false) ∧
  (∀ r : BillingRecord, Laid (Record.billing r).wire 48
    [(0, [1]), (1, b1 ((match r.reason with | .boundary => 0 | .period => 1 | .clockSet => 2 | .final => 3 | .aborted => 4) +
        match r.payer with | .station => 0 | .fleet => 8)),
      (2, be 2 (setSum [r.clockUnset, r.noTariff, r.merged, r.mixedPrice, r.reverse, r.saturatedInput, r.saturatedAccount,
        r.lockout, r.final, r.aborted])),
      (4, be 4 r.number), (8, be 2 r.index), (10, be 2 r.generation),
      (12, be 2 (if r.clockUnset then 0 else r.startDay)), (14, be 4 r.startSec), (18, be 3 r.duration), (21, be 2 r.price),
      (23, be 4 r.wh.g), (27, be 4 r.wh.bg), (31, be 4 r.wh.hg), (35, be 4 r.wh.lg), (39, be 4 r.wh.hb), (43, be 5 r.cost)]) ∧
  (∀ r : ResultRecord, Laid (Record.result r).wire 48
    [(0, [2]), (1, b1 (setSum [r.valid, r.leg, r.localise, r.time.unset])),
      (2, [match r.reason with | .noReason => 0 | .busLow => 1 | .implausible => 2 | .settleTimeout => 3 | .disturbed => 4]),
      (3, [match r.cls with | .noClass => 0 | .ok => 1 | .warning => 2 | .fault => 3]),
      (4, be 4 r.number), (8, be 2 r.time.day), (10, be 4 r.time.sec), (14, be 2 r.va), (16, be 2 r.vb),
      (18, be 2 r.figures.u), (20, be 2 r.figures.rp), (22, be 2 r.figures.rn), (24, be 2 r.settleA), (26, be 2 r.settleB),
      (28, List.replicate 20 0)]) ∧
  (∀ r : CapturedRecord, r.body.length ≤ 30 → Laid (Record.captured r).wire 48
    [(0, [3]), (1, b1 r.source), (2, [match r.port with | none => 0 | some .v => 1 | some .c => 2 | some .t => 3]),
      (3, b1 r.desc), (4, bFlag r.repeating),
      (5, [match r.fieldSet with
        | .session => 0 | .energy => 1 | .power => 2 | .thermal => 3 | .insulation => 4 | .limits => 5]),
      (6, b1 (setSum [r.time.unset, r.seq.isNone])), (7, b1 r.missed), (8, be 2 r.time.day), (10, be 4 r.time.sec),
      (14, be 2 (r.seq.getD 0)), (16, be 2 r.countAfter), (18, r.body),
      (18 + r.body.length, List.replicate (30 - r.body.length) 0)]) ∧
  ∀ s : State,
    Laid (fieldBody .session s) 23
      [(0, b1 s.sc.state.code), (1, b1 s.sc.hold.sum), (2, b1 s.sc.lockout.sum),
        (3, b1 (setSum [s.sc.finalPending, s.sc.record.pause, s.ct.held.isSome])), (4, be 4 s.sc.record.number),
        (8, b1 s.sc.record.payer.code), (9, be 2 s.sc.record.offer), (11, b1 s.sc.record.closeReason.code),
        (12, be 2 (indexFigure s)), (14, b1 (lengthFigure s)), (15, be 2 s.ct.price), (17, be 6 s.ct.cost)] ∧
    (∀ i, s.ct.interval = some i → indexFigure s = i.index ∧ lengthFigure s = i.latched) ∧
    (let a := s.ea.session;
      let part (e : Energy) : List Byte := b1 (e.res * 256 / 36000000);
      Laid (fieldBody .energy s) 30
        [(0, be 3 a.g.wh), (3, be 3 a.bg.wh), (6, be 3 a.hg.wh), (9, be 3 a.lg.wh), (12, be 3 a.hb.wh), (15, part a.g),
          (16, part a.bg), (17, part a.hg), (18, part a.lg), (19, part a.hb),
          (20, b1 (setSum [a.gridFrozen || a.hbFrozen, s.ea.accruing, s.ea.lifetime.gridFrozen || s.ea.lifetime.hbFrozen])),
          (21, be 4 s.ea.lifetime.g.wh), (25, be 3 s.ea.unassigned.wh), (28, b1 s.ea.pulses), (29, b1 s.ea.lost)]) ∧
    Laid (fieldBody .power s) 19
      ([(0, be 2 s.pc.pCmd), (2, be 2 s.pc.aH), (4, be 2 s.hc.hOn), (6, b1 s.pc.derate.code), (7, bFlag s.pc.exhausted),
        (8, be 2 (s.pc.used / 36000000))] ++ match s.fe.latest with
          | some x => [(10, beSigned 2 x.pIn), (12, be 2 x.vBus), (14, beSigned 2 x.iBat), (16, be 2 x.iHeat),
            (18, b1 (setSum [x.satPIn, x.satVBus, x.satIBat, x.satIHeat]))]
          | none => [(10, List.replicate 9 0)]) ∧
    Laid (fieldBody .thermal s) 20
      ([(0, b1 s.hc.e1.state.code), (1, b1 s.hc.e1.cause.code), (2, b1 s.hc.e2.state.code), (3, b1 s.hc.e2.cause.code),
        (4, b1 s.hc.leg.code), (5, b1 (setSum [s.hc.thermostat, s.hc.sensor])), (6, be 2 s.hc.demand)] ++
        match s.fe.latest with
          | some x => [(8, beSigned 2 x.tPack.value), (10, beSigned 2 x.tEl1.value), (12, beSigned 2 x.tEl2.value),
            (14, beSigned 2 x.tObc.value), (16, b1 x.tPack.mark.code), (17, b1 x.tEl1.mark.code), (18, b1 x.tEl2.mark.code),
            (19, b1 x.tObc.mark.code)]
          | none => [(8, List.replicate 12 0)]) ∧
    Laid (fieldBody .insulation s) 21
      ([(0, b1 s.im.level.code), (1, b1 (setSum [s.im.runRequested, s.im.running])), (2, b1 s.im.meas.code)] ++
        (match s.im.last with
          | some r => [(3, be 4 r.number), (7, b1 (setSum [r.valid, r.localise])), (8, b1 r.cls.code),
            (9, be 2 r.figures.rp), (11, be 2 r.figures.rn), (13, be 2 r.figures.u)]
          | none => [(3, List.replicate 12 0)]) ++
        [(15, b1 s.im.faults.length), (16, bFlag s.im.overflow), (17, b1 s.im.worse.count), (18, b1 s.im.worse.bound.code),
          (19, b1 s.im.better.count), (20, b1 s.im.better.bound.code)]) ∧
    Laid (fieldBody .limits s) 13
      ((match s.sc.limits with
          | some l => [(0, be 2 l.iBmax), (2, be 2 l.vBmax), (4, beSigned 2 l.tAccept), (6, be 2 l.pHeatBatt),
            (8, b1 (if s.sc.validity.isSome then 0 else 1))]
          | none => [(8, [2])]) ++
        [(9, b1 (s.sc.validity.getD 0 / 100)), (10, bFlag s.hc.mode), (11, beSigned 2 s.hc.target)])

/-- Right after a COLD reset P_cmd stands within its limits, the lockout conditions hold, the accounts are balanced, the
items lie in their ranges, the fault table, the runs, the snapshot tables and the record store are as their invariants say.
-/
def Obligations.ResetMeetsTheInvariants : Prop :=
  CommandOk State.reset ∧ LockoutOk State.reset ∧ AccountsOk State.reset ∧ ItemsOk State.reset ∧ FaultTableOk State.reset ∧
    RunsOk State.reset ∧ SnapshotOk State.reset ∧ StoreOk State.reset

/-- Every step keeps: P_cmd is a multiple of 10, at most floor(offer × OBC_EFF / 1024) and at most L_obc as it stands (so at
most OBC_PMAX), and 0 in every session state but PREHEAT, CHARGING and CLOSING; the level FAULT stands only in LOCKED_OUT;
lockout reasons stand only there; there both elements are off and P_cmd is 0; hold reasons stand only while a session is
open. -/
def Obligations.CommandAndLockoutStayWithinTheirLimits : Prop :=
  ∀ s t : State, CommandOk s → LockoutOk s → step s = .next t → CommandOk t ∧ LockoutOk t

/-- Every step keeps: in the session and the lifetime account, reckoned in mW·ds as Wh × 36,000,000 plus residue, G equals Bg
+ Hg + Lg. Every step keeps: each item lies in its range of the item table, and each derate threshold stands at least 10
above the one below it. Every step keeps: the fault table holds at most 8 entries, their sequences strictly rising and none
above the entry sequence counter. Every step keeps: the floor of a worse run is worse than the level, the ceiling of a better
run is better than a level of WARNING or FAULT, and no localisation is in progress at level FAULT. -/
def Obligations.AccountsItemsFaultTableAndRunsStaySound : Prop :=
  ((∀ s t : State, AccountsOk s → step s = .next t → AccountsOk t) ∧
  ∀ s t : State, ItemsOk s → step s = .next t → ItemsOk t) ∧
  ((∀ s t : State, FaultTableOk s → step s = .next t → FaultTableOk t) ∧
  ∀ s t : State, RunsOk s → step s = .next t → RunsOk t)

/-- Every step keeps: the slots keep their canonical form; defined areas hold at least 4 slots inside 0 to 255 and share
none; each join is on a defined area of its own, its head inside it, no more records than slots, and a record in each slot of
its queue. Every step keeps: vector entries name descriptors 0 to 15, no enabled source has as its first descriptor a NORMAL
one with count 0, and the chain under service lies in the descriptor table. -/
def Obligations.StoreStaysSound : Prop :=
  (∀ s t : State, StoreOk s → step s = .next t → StoreOk t) ∧
  ∀ s t : State, SnapshotOk s → step s = .next t → SnapshotOk t

end
end

