-- ==== Sys2Proof/Laws/State.lean ====
section
/-! SUPPORT. One lemma for each field of State under each update of Machine/Ops.lean, true by definition, and the laws of
vectors, port units and the slots of the record store. -/

namespace Sys2Proof.Machine

set_option Elab.async false


/-! ## The update of `fe` -/

@[simp] theorem State.onFe_resetLow (s : State) (f : FrontEnd → FrontEnd) : (s.onFe f).resetLow = s.resetLow := rfl
@[simp] theorem State.onFe_fe (s : State) (f : FrontEnd → FrontEnd) : (s.onFe f).fe = f s.fe := rfl
@[simp] theorem State.onFe_sc (s : State) (f : FrontEnd → FrontEnd) : (s.onFe f).sc = s.sc := rfl
@[simp] theorem State.onFe_pc (s : State) (f : FrontEnd → FrontEnd) : (s.onFe f).pc = s.pc := rfl
@[simp] theorem State.onFe_hc (s : State) (f : FrontEnd → FrontEnd) : (s.onFe f).hc = s.hc := rfl
@[simp] theorem State.onFe_im (s : State) (f : FrontEnd → FrontEnd) : (s.onFe f).im = s.im := rfl
@[simp] theorem State.onFe_ea (s : State) (f : FrontEnd → FrontEnd) : (s.onFe f).ea = s.ea := rfl
@[simp] theorem State.onFe_ct (s : State) (f : FrontEnd → FrontEnd) : (s.onFe f).ct = s.ct := rfl
@[simp] theorem State.onFe_rs (s : State) (f : FrontEnd → FrontEnd) : (s.onFe f).rs = s.rs := rfl
@[simp] theorem State.onFe_se (s : State) (f : FrontEnd → FrontEnd) : (s.onFe f).se = s.se := rfl
@[simp] theorem State.onFe_ports (s : State) (f : FrontEnd → FrontEnd) : (s.onFe f).ports = s.ports := rfl
@[simp] theorem State.onFe_cfg (s : State) (f : FrontEnd → FrontEnd) : (s.onFe f).cfg = s.cfg := rfl
@[simp] theorem State.onFe_free (s : State) (f : FrontEnd → FrontEnd) : (s.onFe f).free = s.free := rfl
@[simp] theorem State.onFe_pending (s : State) (f : FrontEnd → FrontEnd) : (s.onFe f).pending = s.pending := rfl

/-! ## The update of `sc` -/

@[simp] theorem State.onSc_resetLow (s : State) (f : Session → Session) : (s.onSc f).resetLow = s.resetLow := rfl
@[simp] theorem State.onSc_fe (s : State) (f : Session → Session) : (s.onSc f).fe = s.fe := rfl
@[simp] theorem State.onSc_sc (s : State) (f : Session → Session) : (s.onSc f).sc = f s.sc := rfl
@[simp] theorem State.onSc_pc (s : State) (f : Session → Session) : (s.onSc f).pc = s.pc := rfl
@[simp] theorem State.onSc_hc (s : State) (f : Session → Session) : (s.onSc f).hc = s.hc := rfl
@[simp] theorem State.onSc_im (s : State) (f : Session → Session) : (s.onSc f).im = s.im := rfl
@[simp] theorem State.onSc_ea (s : State) (f : Session → Session) : (s.onSc f).ea = s.ea := rfl
@[simp] theorem State.onSc_ct (s : State) (f : Session → Session) : (s.onSc f).ct = s.ct := rfl
@[simp] theorem State.onSc_rs (s : State) (f : Session → Session) : (s.onSc f).rs = s.rs := rfl
@[simp] theorem State.onSc_se (s : State) (f : Session → Session) : (s.onSc f).se = s.se := rfl
@[simp] theorem State.onSc_ports (s : State) (f : Session → Session) : (s.onSc f).ports = s.ports := rfl
@[simp] theorem State.onSc_cfg (s : State) (f : Session → Session) : (s.onSc f).cfg = s.cfg := rfl
@[simp] theorem State.onSc_free (s : State) (f : Session → Session) : (s.onSc f).free = s.free := rfl
@[simp] theorem State.onSc_pending (s : State) (f : Session → Session) : (s.onSc f).pending = s.pending := rfl

/-! ## The update of `pc` -/

@[simp] theorem State.onPc_resetLow (s : State) (f : Power → Power) : (s.onPc f).resetLow = s.resetLow := rfl
@[simp] theorem State.onPc_fe (s : State) (f : Power → Power) : (s.onPc f).fe = s.fe := rfl
@[simp] theorem State.onPc_sc (s : State) (f : Power → Power) : (s.onPc f).sc = s.sc := rfl
@[simp] theorem State.onPc_pc (s : State) (f : Power → Power) : (s.onPc f).pc = f s.pc := rfl
@[simp] theorem State.onPc_hc (s : State) (f : Power → Power) : (s.onPc f).hc = s.hc := rfl
@[simp] theorem State.onPc_im (s : State) (f : Power → Power) : (s.onPc f).im = s.im := rfl
@[simp] theorem State.onPc_ea (s : State) (f : Power → Power) : (s.onPc f).ea = s.ea := rfl
@[simp] theorem State.onPc_ct (s : State) (f : Power → Power) : (s.onPc f).ct = s.ct := rfl
@[simp] theorem State.onPc_rs (s : State) (f : Power → Power) : (s.onPc f).rs = s.rs := rfl
@[simp] theorem State.onPc_se (s : State) (f : Power → Power) : (s.onPc f).se = s.se := rfl
@[simp] theorem State.onPc_ports (s : State) (f : Power → Power) : (s.onPc f).ports = s.ports := rfl
@[simp] theorem State.onPc_cfg (s : State) (f : Power → Power) : (s.onPc f).cfg = s.cfg := rfl
@[simp] theorem State.onPc_free (s : State) (f : Power → Power) : (s.onPc f).free = s.free := rfl
@[simp] theorem State.onPc_pending (s : State) (f : Power → Power) : (s.onPc f).pending = s.pending := rfl

/-! ## The update of `hc` -/

@[simp] theorem State.onHc_resetLow (s : State) (f : Heater → Heater) : (s.onHc f).resetLow = s.resetLow := rfl
@[simp] theorem State.onHc_fe (s : State) (f : Heater → Heater) : (s.onHc f).fe = s.fe := rfl
@[simp] theorem State.onHc_sc (s : State) (f : Heater → Heater) : (s.onHc f).sc = s.sc := rfl
@[simp] theorem State.onHc_pc (s : State) (f : Heater → Heater) : (s.onHc f).pc = s.pc := rfl
@[simp] theorem State.onHc_hc (s : State) (f : Heater → Heater) : (s.onHc f).hc = f s.hc := rfl
@[simp] theorem State.onHc_im (s : State) (f : Heater → Heater) : (s.onHc f).im = s.im := rfl
@[simp] theorem State.onHc_ea (s : State) (f : Heater → Heater) : (s.onHc f).ea = s.ea := rfl
@[simp] theorem State.onHc_ct (s : State) (f : Heater → Heater) : (s.onHc f).ct = s.ct := rfl
@[simp] theorem State.onHc_rs (s : State) (f : Heater → Heater) : (s.onHc f).rs = s.rs := rfl
@[simp] theorem State.onHc_se (s : State) (f : Heater → Heater) : (s.onHc f).se = s.se := rfl
@[simp] theorem State.onHc_ports (s : State) (f : Heater → Heater) : (s.onHc f).ports = s.ports := rfl
@[simp] theorem State.onHc_cfg (s : State) (f : Heater → Heater) : (s.onHc f).cfg = s.cfg := rfl
@[simp] theorem State.onHc_free (s : State) (f : Heater → Heater) : (s.onHc f).free = s.free := rfl
@[simp] theorem State.onHc_pending (s : State) (f : Heater → Heater) : (s.onHc f).pending = s.pending := rfl

/-! ## The update of `im` -/

@[simp] theorem State.onIm_resetLow (s : State) (f : Insulation → Insulation) : (s.onIm f).resetLow = s.resetLow := rfl
@[simp] theorem State.onIm_fe (s : State) (f : Insulation → Insulation) : (s.onIm f).fe = s.fe := rfl
@[simp] theorem State.onIm_sc (s : State) (f : Insulation → Insulation) : (s.onIm f).sc = s.sc := rfl
@[simp] theorem State.onIm_pc (s : State) (f : Insulation → Insulation) : (s.onIm f).pc = s.pc := rfl
@[simp] theorem State.onIm_hc (s : State) (f : Insulation → Insulation) : (s.onIm f).hc = s.hc := rfl
@[simp] theorem State.onIm_im (s : State) (f : Insulation → Insulation) : (s.onIm f).im = f s.im := rfl
@[simp] theorem State.onIm_ea (s : State) (f : Insulation → Insulation) : (s.onIm f).ea = s.ea := rfl
@[simp] theorem State.onIm_ct (s : State) (f : Insulation → Insulation) : (s.onIm f).ct = s.ct := rfl
@[simp] theorem State.onIm_rs (s : State) (f : Insulation → Insulation) : (s.onIm f).rs = s.rs := rfl
@[simp] theorem State.onIm_se (s : State) (f : Insulation → Insulation) : (s.onIm f).se = s.se := rfl
@[simp] theorem State.onIm_ports (s : State) (f : Insulation → Insulation) : (s.onIm f).ports = s.ports := rfl
@[simp] theorem State.onIm_cfg (s : State) (f : Insulation → Insulation) : (s.onIm f).cfg = s.cfg := rfl
@[simp] theorem State.onIm_free (s : State) (f : Insulation → Insulation) : (s.onIm f).free = s.free := rfl
@[simp] theorem State.onIm_pending (s : State) (f : Insulation → Insulation) : (s.onIm f).pending = s.pending := rfl

/-! ## The update of `ea` -/

@[simp] theorem State.onEa_resetLow (s : State) (f : EnergyAccount → EnergyAccount) : (s.onEa f).resetLow = s.resetLow := rfl
@[simp] theorem State.onEa_fe (s : State) (f : EnergyAccount → EnergyAccount) : (s.onEa f).fe = s.fe := rfl
@[simp] theorem State.onEa_sc (s : State) (f : EnergyAccount → EnergyAccount) : (s.onEa f).sc = s.sc := rfl
@[simp] theorem State.onEa_pc (s : State) (f : EnergyAccount → EnergyAccount) : (s.onEa f).pc = s.pc := rfl
@[simp] theorem State.onEa_hc (s : State) (f : EnergyAccount → EnergyAccount) : (s.onEa f).hc = s.hc := rfl
@[simp] theorem State.onEa_im (s : State) (f : EnergyAccount → EnergyAccount) : (s.onEa f).im = s.im := rfl
@[simp] theorem State.onEa_ea (s : State) (f : EnergyAccount → EnergyAccount) : (s.onEa f).ea = f s.ea := rfl
@[simp] theorem State.onEa_ct (s : State) (f : EnergyAccount → EnergyAccount) : (s.onEa f).ct = s.ct := rfl
@[simp] theorem State.onEa_rs (s : State) (f : EnergyAccount → EnergyAccount) : (s.onEa f).rs = s.rs := rfl
@[simp] theorem State.onEa_se (s : State) (f : EnergyAccount → EnergyAccount) : (s.onEa f).se = s.se := rfl
@[simp] theorem State.onEa_ports (s : State) (f : EnergyAccount → EnergyAccount) : (s.onEa f).ports = s.ports := rfl
@[simp] theorem State.onEa_cfg (s : State) (f : EnergyAccount → EnergyAccount) : (s.onEa f).cfg = s.cfg := rfl
@[simp] theorem State.onEa_free (s : State) (f : EnergyAccount → EnergyAccount) : (s.onEa f).free = s.free := rfl
@[simp] theorem State.onEa_pending (s : State) (f : EnergyAccount → EnergyAccount) : (s.onEa f).pending = s.pending := rfl

/-! ## The update of `ct` -/

@[simp] theorem State.onCt_resetLow (s : State) (f : ClockTariff → ClockTariff) : (s.onCt f).resetLow = s.resetLow := rfl
@[simp] theorem State.onCt_fe (s : State) (f : ClockTariff → ClockTariff) : (s.onCt f).fe = s.fe := rfl
@[simp] theorem State.onCt_sc (s : State) (f : ClockTariff → ClockTariff) : (s.onCt f).sc = s.sc := rfl
@[simp] theorem State.onCt_pc (s : State) (f : ClockTariff → ClockTariff) : (s.onCt f).pc = s.pc := rfl
@[simp] theorem State.onCt_hc (s : State) (f : ClockTariff → ClockTariff) : (s.onCt f).hc = s.hc := rfl
@[simp] theorem State.onCt_im (s : State) (f : ClockTariff → ClockTariff) : (s.onCt f).im = s.im := rfl
@[simp] theorem State.onCt_ea (s : State) (f : ClockTariff → ClockTariff) : (s.onCt f).ea = s.ea := rfl
@[simp] theorem State.onCt_ct (s : State) (f : ClockTariff → ClockTariff) : (s.onCt f).ct = f s.ct := rfl
@[simp] theorem State.onCt_rs (s : State) (f : ClockTariff → ClockTariff) : (s.onCt f).rs = s.rs := rfl
@[simp] theorem State.onCt_se (s : State) (f : ClockTariff → ClockTariff) : (s.onCt f).se = s.se := rfl
@[simp] theorem State.onCt_ports (s : State) (f : ClockTariff → ClockTariff) : (s.onCt f).ports = s.ports := rfl
@[simp] theorem State.onCt_cfg (s : State) (f : ClockTariff → ClockTariff) : (s.onCt f).cfg = s.cfg := rfl
@[simp] theorem State.onCt_free (s : State) (f : ClockTariff → ClockTariff) : (s.onCt f).free = s.free := rfl
@[simp] theorem State.onCt_pending (s : State) (f : ClockTariff → ClockTariff) : (s.onCt f).pending = s.pending := rfl

/-! ## The update of `rs` -/

@[simp] theorem State.onRs_resetLow (s : State) (f : Store → Store) : (s.onRs f).resetLow = s.resetLow := rfl
@[simp] theorem State.onRs_fe (s : State) (f : Store → Store) : (s.onRs f).fe = s.fe := rfl
@[simp] theorem State.onRs_sc (s : State) (f : Store → Store) : (s.onRs f).sc = s.sc := rfl
@[simp] theorem State.onRs_pc (s : State) (f : Store → Store) : (s.onRs f).pc = s.pc := rfl
@[simp] theorem State.onRs_hc (s : State) (f : Store → Store) : (s.onRs f).hc = s.hc := rfl
@[simp] theorem State.onRs_im (s : State) (f : Store → Store) : (s.onRs f).im = s.im := rfl
@[simp] theorem State.onRs_ea (s : State) (f : Store → Store) : (s.onRs f).ea = s.ea := rfl
@[simp] theorem State.onRs_ct (s : State) (f : Store → Store) : (s.onRs f).ct = s.ct := rfl
@[simp] theorem State.onRs_rs (s : State) (f : Store → Store) : (s.onRs f).rs = f s.rs := rfl
@[simp] theorem State.onRs_se (s : State) (f : Store → Store) : (s.onRs f).se = s.se := rfl
@[simp] theorem State.onRs_ports (s : State) (f : Store → Store) : (s.onRs f).ports = s.ports := rfl
@[simp] theorem State.onRs_cfg (s : State) (f : Store → Store) : (s.onRs f).cfg = s.cfg := rfl
@[simp] theorem State.onRs_free (s : State) (f : Store → Store) : (s.onRs f).free = s.free := rfl
@[simp] theorem State.onRs_pending (s : State) (f : Store → Store) : (s.onRs f).pending = s.pending := rfl

/-! ## The update of `se` -/

@[simp] theorem State.onSe_resetLow (s : State) (f : SnapshotEngine → SnapshotEngine) : (s.onSe f).resetLow = s.resetLow := rfl
@[simp] theorem State.onSe_fe (s : State) (f : SnapshotEngine → SnapshotEngine) : (s.onSe f).fe = s.fe := rfl
@[simp] theorem State.onSe_sc (s : State) (f : SnapshotEngine → SnapshotEngine) : (s.onSe f).sc = s.sc := rfl
@[simp] theorem State.onSe_pc (s : State) (f : SnapshotEngine → SnapshotEngine) : (s.onSe f).pc = s.pc := rfl
@[simp] theorem State.onSe_hc (s : State) (f : SnapshotEngine → SnapshotEngine) : (s.onSe f).hc = s.hc := rfl
@[simp] theorem State.onSe_im (s : State) (f : SnapshotEngine → SnapshotEngine) : (s.onSe f).im = s.im := rfl
@[simp] theorem State.onSe_ea (s : State) (f : SnapshotEngine → SnapshotEngine) : (s.onSe f).ea = s.ea := rfl
@[simp] theorem State.onSe_ct (s : State) (f : SnapshotEngine → SnapshotEngine) : (s.onSe f).ct = s.ct := rfl
@[simp] theorem State.onSe_rs (s : State) (f : SnapshotEngine → SnapshotEngine) : (s.onSe f).rs = s.rs := rfl
@[simp] theorem State.onSe_se (s : State) (f : SnapshotEngine → SnapshotEngine) : (s.onSe f).se = f s.se := rfl
@[simp] theorem State.onSe_ports (s : State) (f : SnapshotEngine → SnapshotEngine) : (s.onSe f).ports = s.ports := rfl
@[simp] theorem State.onSe_cfg (s : State) (f : SnapshotEngine → SnapshotEngine) : (s.onSe f).cfg = s.cfg := rfl
@[simp] theorem State.onSe_free (s : State) (f : SnapshotEngine → SnapshotEngine) : (s.onSe f).free = s.free := rfl
@[simp] theorem State.onSe_pending (s : State) (f : SnapshotEngine → SnapshotEngine) : (s.onSe f).pending = s.pending := rfl

/-! ## The update of `ports` -/

@[simp] theorem State.onPorts_resetLow (s : State) (f : Ports → Ports) : (s.onPorts f).resetLow = s.resetLow := rfl
@[simp] theorem State.onPorts_fe (s : State) (f : Ports → Ports) : (s.onPorts f).fe = s.fe := rfl
@[simp] theorem State.onPorts_sc (s : State) (f : Ports → Ports) : (s.onPorts f).sc = s.sc := rfl
@[simp] theorem State.onPorts_pc (s : State) (f : Ports → Ports) : (s.onPorts f).pc = s.pc := rfl
@[simp] theorem State.onPorts_hc (s : State) (f : Ports → Ports) : (s.onPorts f).hc = s.hc := rfl
@[simp] theorem State.onPorts_im (s : State) (f : Ports → Ports) : (s.onPorts f).im = s.im := rfl
@[simp] theorem State.onPorts_ea (s : State) (f : Ports → Ports) : (s.onPorts f).ea = s.ea := rfl
@[simp] theorem State.onPorts_ct (s : State) (f : Ports → Ports) : (s.onPorts f).ct = s.ct := rfl
@[simp] theorem State.onPorts_rs (s : State) (f : Ports → Ports) : (s.onPorts f).rs = s.rs := rfl
@[simp] theorem State.onPorts_se (s : State) (f : Ports → Ports) : (s.onPorts f).se = s.se := rfl
@[simp] theorem State.onPorts_ports (s : State) (f : Ports → Ports) : (s.onPorts f).ports = f s.ports := rfl
@[simp] theorem State.onPorts_cfg (s : State) (f : Ports → Ports) : (s.onPorts f).cfg = s.cfg := rfl
@[simp] theorem State.onPorts_free (s : State) (f : Ports → Ports) : (s.onPorts f).free = s.free := rfl
@[simp] theorem State.onPorts_pending (s : State) (f : Ports → Ports) : (s.onPorts f).pending = s.pending := rfl

/-! ## The update of `cfg` -/

@[simp] theorem State.onCfg_resetLow (s : State) (f : Items → Items) : (s.onCfg f).resetLow = s.resetLow := rfl
@[simp] theorem State.onCfg_fe (s : State) (f : Items → Items) : (s.onCfg f).fe = s.fe := rfl
@[simp] theorem State.onCfg_sc (s : State) (f : Items → Items) : (s.onCfg f).sc = s.sc := rfl
@[simp] theorem State.onCfg_pc (s : State) (f : Items → Items) : (s.onCfg f).pc = s.pc := rfl
@[simp] theorem State.onCfg_hc (s : State) (f : Items → Items) : (s.onCfg f).hc = s.hc := rfl
@[simp] theorem State.onCfg_im (s : State) (f : Items → Items) : (s.onCfg f).im = s.im := rfl
@[simp] theorem State.onCfg_ea (s : State) (f : Items → Items) : (s.onCfg f).ea = s.ea := rfl
@[simp] theorem State.onCfg_ct (s : State) (f : Items → Items) : (s.onCfg f).ct = s.ct := rfl
@[simp] theorem State.onCfg_rs (s : State) (f : Items → Items) : (s.onCfg f).rs = s.rs := rfl
@[simp] theorem State.onCfg_se (s : State) (f : Items → Items) : (s.onCfg f).se = s.se := rfl
@[simp] theorem State.onCfg_ports (s : State) (f : Items → Items) : (s.onCfg f).ports = s.ports := rfl
@[simp] theorem State.onCfg_cfg (s : State) (f : Items → Items) : (s.onCfg f).cfg = f s.cfg := rfl
@[simp] theorem State.onCfg_free (s : State) (f : Items → Items) : (s.onCfg f).free = s.free := rfl
@[simp] theorem State.onCfg_pending (s : State) (f : Items → Items) : (s.onCfg f).pending = s.pending := rfl

/-! ## A free value drawn -/

@[simp] theorem State.draw_resetLow (s : State) : s.draw.resetLow = s.resetLow := rfl
@[simp] theorem State.draw_fe (s : State) : s.draw.fe = s.fe := rfl
@[simp] theorem State.draw_sc (s : State) : s.draw.sc = s.sc := rfl
@[simp] theorem State.draw_pc (s : State) : s.draw.pc = s.pc := rfl
@[simp] theorem State.draw_hc (s : State) : s.draw.hc = s.hc := rfl
@[simp] theorem State.draw_im (s : State) : s.draw.im = s.im := rfl
@[simp] theorem State.draw_ea (s : State) : s.draw.ea = s.ea := rfl
@[simp] theorem State.draw_ct (s : State) : s.draw.ct = s.ct := rfl
@[simp] theorem State.draw_rs (s : State) : s.draw.rs = s.rs := rfl
@[simp] theorem State.draw_se (s : State) : s.draw.se = s.se := rfl
@[simp] theorem State.draw_ports (s : State) : s.draw.ports = s.ports := rfl
@[simp] theorem State.draw_cfg (s : State) : s.draw.cfg = s.cfg := rfl
@[simp] theorem State.draw_free (s : State) : s.draw.free = s.free + 1 := rfl
@[simp] theorem State.draw_pending (s : State) : s.draw.pending = s.pending := rfl

/-! ## The update of one port unit -/

@[simp] theorem State.onPort_resetLow (s : State) (p : Port) (f : PortUnit → PortUnit) : (s.onPort p f).resetLow = s.resetLow := rfl
@[simp] theorem State.onPort_fe (s : State) (p : Port) (f : PortUnit → PortUnit) : (s.onPort p f).fe = s.fe := rfl
@[simp] theorem State.onPort_sc (s : State) (p : Port) (f : PortUnit → PortUnit) : (s.onPort p f).sc = s.sc := rfl
@[simp] theorem State.onPort_pc (s : State) (p : Port) (f : PortUnit → PortUnit) : (s.onPort p f).pc = s.pc := rfl
@[simp] theorem State.onPort_hc (s : State) (p : Port) (f : PortUnit → PortUnit) : (s.onPort p f).hc = s.hc := rfl
@[simp] theorem State.onPort_im (s : State) (p : Port) (f : PortUnit → PortUnit) : (s.onPort p f).im = s.im := rfl
@[simp] theorem State.onPort_ea (s : State) (p : Port) (f : PortUnit → PortUnit) : (s.onPort p f).ea = s.ea := rfl
@[simp] theorem State.onPort_ct (s : State) (p : Port) (f : PortUnit → PortUnit) : (s.onPort p f).ct = s.ct := rfl
@[simp] theorem State.onPort_rs (s : State) (p : Port) (f : PortUnit → PortUnit) : (s.onPort p f).rs = s.rs := rfl
@[simp] theorem State.onPort_se (s : State) (p : Port) (f : PortUnit → PortUnit) : (s.onPort p f).se = s.se := rfl
@[simp] theorem State.onPort_ports (s : State) (p : Port) (f : PortUnit → PortUnit) : (s.onPort p f).ports = s.ports.put p (f (s.ports.get p)) := rfl
@[simp] theorem State.onPort_cfg (s : State) (p : Port) (f : PortUnit → PortUnit) : (s.onPort p f).cfg = s.cfg := rfl
@[simp] theorem State.onPort_free (s : State) (p : Port) (f : PortUnit → PortUnit) : (s.onPort p f).free = s.free := rfl
@[simp] theorem State.onPort_pending (s : State) (p : Port) (f : PortUnit → PortUnit) : (s.onPort p f).pending = s.pending := rfl

/-- What was put into a port unit is read back. -/
@[simp] theorem Ports.get_put_self (u : Ports) (p : Port) (x : PortUnit) : (u.put p x).get p = x := by cases p <;> rfl

/-- The other port units stay as they are. -/
theorem Ports.get_put_other (u : Ports) (p q : Port) (x : PortUnit) (h : q ≠ p) : (u.put p x).get q = u.get q := by
  cases p <;> cases q <;> first | rfl | exact absurd rfl h

/-- A map over the port units is read unit by unit. -/
@[simp] theorem Ports.get_map (u : Ports) (f : PortUnit → PortUnit) (p : Port) : (u.map f).get p = f (u.get p) := by
  cases p <;> rfl

/-- Two puts into one unit: the last one stands. -/
@[simp] theorem Ports.put_put (u : Ports) (p : Port) (x y : PortUnit) : (u.put p x).put p y = u.put p y := by cases p <;> rfl

/-- Putting back what was there changes nothing. -/
@[simp] theorem Ports.put_get (u : Ports) (p : Port) : u.put p (u.get p) = u := by cases p <;> rfl

/-! ## Vectors -/

/-- What was put at an index is read back. -/
@[simp] theorem vput_get_self {α : Type} {n : Nat} (v : Vector α n) (i : Fin n) (x : α) : (vput v i x).get i = x := by
  simp [vput, Vector.get_eq_getElem]

/-- The other entries stay as they are. -/
theorem vput_get_other {α : Type} {n : Nat} (v : Vector α n) (i j : Fin n) (x : α) (h : j ≠ i) :
    (vput v i x).get j = v.get j := by
  have : i.val ≠ j.val := fun e => h (Fin.ext e.symm)
  simp [vput, Vector.get_eq_getElem, this]

/-- An entry after a put, at any index. -/
theorem vput_get {α : Type} {n : Nat} (v : Vector α n) (i j : Fin n) (x : α) :
    (vput v i x).get j = if j = i then x else v.get j := by
  split
  · next h => subst h; simp
  · next h => exact vput_get_other v i j x h

end Sys2Proof.Machine
end

