-- ==== Sys2Proof/Laws/Frames.lean ====
section
/-! SUPPORT. The frame of every shared operation: the blocks it may change. A composition's frame follows by `Touches.step`
from those of its parts. -/

namespace Sys2Proof.Machine

set_option Elab.async false

/-! ## Frames compose -/

theorem Touches.refl (bs : List Block) (s : State) : Touches bs s s := fun b _ => by cases b <;> rfl

theorem Touches.mono {bs cs : List Block} {s t : State} (h : Touches bs s t)
    (sub : bs.all (fun b => cs.contains b) = true := by rfl) : Touches cs s t := by
  intro b hb
  refine h b fun hb' => hb ?_
  have := List.all_eq_true.mp sub b hb'
  simpa using this

theorem Touches.trans {bs : List Block} {s t u : State} (h : Touches bs s t) (h' : Touches bs t u) : Touches bs s u := by
  intro b hb
  have h1 := h b hb
  have h2 := h' b hb
  cases b <;> simp only [Same] at * <;> exact h2.trans h1

/-- One more operation of a smaller frame. -/
theorem Touches.step {bs cs : List Block} {s t u : State} (h : Touches cs s t) (h' : Touches bs t u)
    (sub : bs.all (fun b => cs.contains b) = true := by rfl) : Touches cs s u := h.trans (h'.mono sub)

/-- The blocks an operation reached by one command may change: all but RESET_N's level, the items and the queue. -/
def workBlocks : List Block := [.fe, .sc, .pc, .hc, .im, .ea, .ct, .rs, .se, .ports, .free]

/-- The blocks the session controller's moves reach. -/
def moveBlocks : List Block := [.sc, .pc, .hc, .ct, .ports, .se, .free]

/-- The blocks the closes of a session reach. -/
def closeBlocks : List Block := [.sc, .pc, .hc, .ea, .ct, .rs, .ports, .se, .free]

/-- The blocks a billing record reaches. -/
def billingBlocks : List Block := [.ct, .rs, .ports, .se, .free]

/-! ## Updates -/

theorem onFe_touches (s : State) (f : FrontEnd → FrontEnd) : Touches [.fe] s (s.onFe f) := fun b h => by
  cases b <;> first | rfl | simp at h
theorem onSc_touches (s : State) (f : Session → Session) : Touches [.sc] s (s.onSc f) := fun b h => by
  cases b <;> first | rfl | simp at h
theorem onPc_touches (s : State) (f : Power → Power) : Touches [.pc] s (s.onPc f) := fun b h => by
  cases b <;> first | rfl | simp at h
theorem onHc_touches (s : State) (f : Heater → Heater) : Touches [.hc] s (s.onHc f) := fun b h => by
  cases b <;> first | rfl | simp at h
theorem onIm_touches (s : State) (f : Insulation → Insulation) : Touches [.im] s (s.onIm f) := fun b h => by
  cases b <;> first | rfl | simp at h
theorem onEa_touches (s : State) (f : EnergyAccount → EnergyAccount) : Touches [.ea] s (s.onEa f) := fun b h => by
  cases b <;> first | rfl | simp at h
theorem onCt_touches (s : State) (f : ClockTariff → ClockTariff) : Touches [.ct] s (s.onCt f) := fun b h => by
  cases b <;> first | rfl | simp at h
theorem onRs_touches (s : State) (f : Store → Store) : Touches [.rs] s (s.onRs f) := fun b h => by
  cases b <;> first | rfl | simp at h
theorem onSe_touches (s : State) (f : SnapshotEngine → SnapshotEngine) : Touches [.se] s (s.onSe f) := fun b h => by
  cases b <;> first | rfl | simp at h
theorem onPorts_touches (s : State) (f : Ports → Ports) : Touches [.ports] s (s.onPorts f) := fun b h => by
  cases b <;> first | rfl | simp at h
theorem onCfg_touches (s : State) (f : Items → Items) : Touches [.cfg] s (s.onCfg f) := fun b h => by
  cases b <;> first | rfl | simp at h
theorem draw_touches (s : State) : Touches [.free] s s.draw := fun b h => by
  cases b <;> first | rfl | simp at h
theorem onPort_touches (s : State) (p : Port) (f : PortUnit → PortUnit) : Touches [.ports] s (s.onPort p f) :=
  onPorts_touches _ _

/-! ## Notices, stamps, occurrences -/

theorem raiseAll_touches (n : Notice) (s : State) : Touches [.ports] s (raiseAll n s) := onPorts_touches _ _
theorem raiseAt_touches (p : Port) (n : Notice) (s : State) : Touches [.ports] s (raiseAt p n s) := onPort_touches _ _ _
theorem recordError_touches (p : Port) (x : PortError) (s : State) : Touches [.ports] s (recordError p x s) :=
  onPort_touches _ _ _
theorem refreshStream_touches (s : State) : Touches [.ports] s (refreshStream s) := onPorts_touches _ _

theorem stamped_touches (s : State) : Touches [.free] s (stamped s) := by
  unfold stamped
  split
  · exact .refl _ _
  · exact draw_touches s

theorem occurFrom_touches (p : Option Port) (src : Source) (s : State) : Touches signals s (occurFrom p src s) := by
  unfold occurFrom
  split
  · exact .refl _ _
  · exact ((stamped_touches s).mono).step (onSe_touches _ _)
  · exact ((onSe_touches s _).mono).step (raiseAll_touches _ _)

theorem occur_touches (src : Source) (s : State) : Touches signals s (occur src s) := occurFrom_touches none src s

/-! ## The record store -/

theorem dropRecord_touches (st : Stream) (s : State) : Touches [.rs] s (dropRecord st s) := onRs_touches _ _

theorem appendRecord_touches (st : Stream) (r : Record) (j : Join) (s : State) :
    Touches [.rs, .ports] s (appendRecord st r j s) :=
  ((onRs_touches s _).mono).step (refreshStream_touches _)

theorem offer_touches (st : Stream) (r : Record) (s : State) : Touches [.rs, .ports] s (offer st r s) := by
  unfold offer
  split
  · unfold offerUnjoined
    cases st
    · exact .refl _ _
    all_goals exact (dropRecord_touches _ s).mono
  · split
    · exact appendRecord_touches _ _ _ _
    · unfold offerFull
      cases st
      · exact .refl _ _
      · exact (dropRecord_touches _ s).mono
      · exact (dropRecord_touches _ s).mono
      · exact (onRs_touches s _).mono

theorem takeOldest_touches (st : Stream) (j : Join) (n : Nat) (s : State) :
    Touches [.rs, .ports] s (takeOldest st j n s) :=
  ((onRs_touches s _).mono).step (refreshStream_touches _)

/-! ## Clock and tariffs -/

theorem lookUpPrice_touches (s : State) : Touches [.ct] s (lookUpPrice s) := onCt_touches _ _
theorem openInterval_touches (i : Nat) (s : State) : Touches [.ct] s (openInterval i s) := onCt_touches _ _
theorem markFinal_touches (f : BillingRecord → BillingRecord) (s : State) : Touches [.ct] s (markFinal f s) :=
  onCt_touches _ _

theorem applyStaged_touches (k : Payer) (s : State) : Touches (.ct :: signals) s (applyStaged k s) := by
  unfold applyStaged
  split
  · exact .refl _ _
  · exact (((onCt_touches s _).mono).step (raiseAll_touches _ _)).step (occur_touches _ _)

theorem placeRecord_touches (r : BillingRecord) (s : State) : Touches [.ct, .rs, .ports] s (placeRecord r s) := by
  unfold placeRecord
  split
  · exact (offer_touches _ _ s).mono
  · split
    · exact ((onCt_touches s _).mono).step (raiseAll_touches _ _)
    · exact .refl _ _

theorem appendHeld_touches (s : State) : Touches [.ct, .rs, .ports] s (appendHeld s) := by
  unfold appendHeld
  split
  · exact .refl _ _
  · split
    · exact ((offer_touches _ _ s).mono).step (onCt_touches _ _)
    · exact .refl _ _

theorem realClose_touches (r : BillingReason) (l : Bool) (i : Interval) (s : State) :
    Touches billingBlocks s (realClose r l i s) := by
  unfold realClose
  have h1 : Touches billingBlocks s (s.onCt fun c => { c with reported := roundedCost c.cost }) :=
    (onCt_touches s _).mono
  dsimp only
  split
  · exact ((h1.step (placeRecord_touches _ _)).step (occur_touches _ _)).step (applyStaged_touches _ _)
  · exact (((h1.step (onCt_touches _ _)).step (raiseAll_touches _ _)).step (occur_touches _ _)).step
      (applyStaged_touches _ _)

theorem mergedClose_touches (i : Interval) (s : State) : Touches [.ct, .ports] s (mergedClose i s) :=
  ((onCt_touches s _).mono).step (raiseAll_touches _ _)

theorem tickClose_touches (r : BillingReason) (i : Interval) (s : State) : Touches billingBlocks s (tickClose r i s) := by
  unfold tickClose
  split
  · exact (realClose_touches _ _ _ s).step (openInterval_touches _ _)
  · exact ((mergedClose_touches _ s).mono).step (lookUpPrice_touches _)

theorem finalClose_touches (r : BillingReason) (l : Bool) (s : State) :
    Touches (.ea :: billingBlocks) s (finalClose r l s) := by
  unfold finalClose
  have h1 : Touches (.ea :: billingBlocks) s (s.onEa fun a => { a with accruing := false }) :=
    (onEa_touches s _).mono
  dsimp only
  split
  · exact h1
  · exact (h1.step (realClose_touches _ _ _ _)).step (onCt_touches _ _)

/-! ## Power command and session controller -/

theorem setCommand_touches (p : Nat) (s : State) : Touches [.pc] s (setCommand p s) := onPc_touches _ _

theorem recompute_touches (v : Nat) (s : State) : Touches [.pc, .hc] s (recompute v s) := by
  unfold recompute
  have h1 : Touches [.pc, .hc] s (s.onPc fun p =>
      { p with lStation := lStationOf s, lObc := lObcOf s, bReq := bReqOf v s, aH := allowanceOf v s }) :=
    (onPc_touches s _).mono
  dsimp only
  split
  · exact h1
  · exact h1.step (onHc_touches _ _)

theorem recomputeNow_touches (s : State) : Touches [.pc, .hc] s (recomputeNow s) := recompute_touches _ _

theorem stateChangeCommand_touches (s : State) : Touches [.pc, .hc] s (stateChangeCommand s) := by
  unfold stateChangeCommand
  split
  · exact recomputeNow_touches _
  · exact ((setCommand_touches 0 s).mono).step (recomputeNow_touches _)

theorem setState_touches (x : SessionState) (s : State) : Touches moveBlocks s (setState x s) := by
  unfold setState
  split
  · exact .refl _ _
  · have h1 : Touches moveBlocks s
        (stateChangeCommand (occur .stateChanged (raiseAll .session (s.onSc fun c => { c with state := x })))) :=
      ((((onSc_touches s _).mono).step (raiseAll_touches _ _)).step (occur_touches _ _)).step
        (stateChangeCommand_touches _)
    dsimp only
    split
    · exact h1.step (applyStaged_touches _ _)
    · exact h1

theorem sessionEnd_touches (s : State) : Touches moveBlocks s (sessionEnd s) := by
  unfold sessionEnd
  dsimp only
  split
  · exact (((setState_touches _ s).step (onSc_touches _ _)).step (raiseAll_touches _ _)).step (occur_touches _ _)
  · exact (((onSc_touches s _).mono).step (raiseAll_touches _ _)).step (occur_touches _ _)

theorem answerClose_touches (s : State) : Touches moveBlocks s (answerClose s) := by
  unfold answerClose
  split
  · exact sessionEnd_touches s
  · exact ((onSc_touches s _).mono).step (raiseAll_touches _ _)

theorem placeFinal_touches (s : State) : Touches (.rs :: moveBlocks) s (placeFinal s) := by
  unfold placeFinal
  split
  · exact .refl _ _
  · split
    · exact (((placeRecord_touches _ s).mono).step (onCt_touches _ _)).step (sessionEnd_touches _)
    · exact .refl _ _

theorem billingGainsRoom_touches (s : State) : Touches (.rs :: moveBlocks) s (billingGainsRoom s) :=
  ((appendHeld_touches s).mono).step (placeFinal_touches _)

theorem commandZeroReached_touches (s : State) : Touches closeBlocks s (commandZeroReached s) := by
  unfold commandZeroReached
  split
  · exact (((onSc_touches s _).mono).step (finalClose_touches _ _ _)).step (answerClose_touches _)
  · exact .refl _ _

theorem enterClosing_touches (r : CloseReason) (s : State) : Touches closeBlocks s (enterClosing r s) :=
  (((onSc_touches s _).mono).step (setState_touches _ _)).step (commandZeroReached_touches _)

theorem holdMove_touches (s : State) : Touches moveBlocks s (holdMove s) := by
  unfold holdMove
  split <;> (try split) <;> first | exact .refl _ _ | exact setState_touches _ _

theorem sampleMove_touches (s : State) : Touches moveBlocks s (sampleMove s) := by
  unfold sampleMove
  split <;> first | exact .refl _ _ | exact setState_touches _ _

theorem closeOnLoss_touches (s : State) : Touches closeBlocks s (closeOnLoss s) :=
  ((onSc_touches s _).mono).step (enterClosing_touches _ _)

theorem plugTransition_touches (l : Plug) (s : State) : Touches closeBlocks s (plugTransition l s) := by
  unfold plugTransition
  split <;> split <;>
    first
    | exact .refl _ _
    | exact (setState_touches _ _).mono
    | exact closeOnLoss_touches _
    | exact (setCommand_touches 0 s).mono

theorem scTake_touches (x : SampleSet) (s : State) : Touches closeBlocks s (scTake x s) := by
  unfold scTake
  dsimp only
  split
  · exact ((onSc_touches s _).mono).step (plugTransition_touches _ _)
  · exact ((onSc_touches s _).mono).step (sampleMove_touches _)

theorem heaterLockout_touches (s : State) : Touches [.hc] s (heaterLockout s) := onHc_touches _ _

theorem enterLockout_touches (r : LockoutReason) (s : State) : Touches closeBlocks s (enterLockout r s) := by
  unfold enterLockout
  have h0 : Touches closeBlocks s (s.onSc (Session.lockOut r)) := (onSc_touches s _).mono
  split
  · unfold addLockoutReason
    split
    · exact .refl _ _
    · exact ((onSc_touches s _).mono).step (raiseAll_touches _ _)
  · dsimp only
    split
    · exact ((((h0.step (onSc_touches _ _)).step (finalClose_touches _ _ _)).step (setState_touches _ _)).step
        (heaterLockout_touches _)).step (answerClose_touches _)
    · exact ((h0.step (markFinal_touches _ _)).step (setState_touches _ _)).step (heaterLockout_touches _)

theorem takeLevel_touches (l : Level) (s : State) : Touches closeBlocks s (takeLevel l s) := by
  unfold takeLevel
  split
  · exact enterLockout_touches _ _
  · exact ((onSc_touches s _).mono).step (holdMove_touches _)

theorem seekVerdict_touches (v : Bool) (k : Class) (s : State) : Touches moveBlocks s (seekVerdict v k s) := by
  unfold seekVerdict
  split
  · exact ((onSc_touches s _).mono).step (setState_touches _ _)
  · exact .refl _ _

theorem openSession_touches (k : Payer) (x : Nat) (b : List Byte) (s : State) :
    Touches (.ea :: moveBlocks) s (openSession k x b s) := by
  unfold openSession
  exact ((((((stamped_touches s).mono).step (onSc_touches _ _)).step (onEa_touches _ _)).step
    (onCt_touches _ _)).step (openInterval_touches _ _)).step (setState_touches _ _) |>.step (occur_touches _ _)

/-! ## Heater controller -/

theorem heaterEvent_touches (s : State) : Touches signals s (heaterEvent s) :=
  ((raiseAll_touches _ s).mono).step (occur_touches _ _)

theorem evalThermostat_touches (t : TempReading) (s : State) : Touches (.hc :: signals) s (evalThermostat t s) := by
  unfold evalThermostat
  dsimp only
  split
  · split
    · exact (onHc_touches s _).mono
    · exact ((onHc_touches s _).mono).step (heaterEvent_touches _)
  · exact (onHc_touches s _).mono

theorem takeCheck_touches (v i : Nat) (s : State) : Touches (.hc :: signals) s (takeCheck v i s) := by
  unfold takeCheck
  have h (f : Heater → Heater) : Touches (.hc :: signals) s (s.onHc f) := (onHc_touches s f).mono
  split
  · exact .refl _ _
  · exact (h _).step (heaterEvent_touches _)
  · split
    · exact h _
    · split
      · exact (h _).step (heaterEvent_touches _)
      · exact (h _).step (heaterEvent_touches _)
  · split
    · exact (h _).step (heaterEvent_touches _)
    · exact .refl _ _

theorem idleLimit_touches (s : State) : Touches [.hc] s (idleLimit s) := by
  unfold idleLimit
  split <;> exact onHc_touches _ _

theorem localiseLeg_touches (s : State) : Touches [.hc] s (localiseLeg s) := onHc_touches _ _
theorem releaseLeg_touches (s : State) : Touches [.hc] s (releaseLeg s) := onHc_touches _ _
theorem isolateLeg_touches (s : State) : Touches (.hc :: signals) s (isolateLeg s) :=
  ((onHc_touches s _).mono).step (heaterEvent_touches _)

/-! ## Insulation monitor -/

theorem openSwitches_touches (s : State) : Touches [.fe] s (openSwitches s) := onFe_touches _ _

theorem startAttempt_touches (s : State) : Touches [.fe, .im] s (startAttempt s) :=
  ((onFe_touches s _).mono).step (onIm_touches _ _)

theorem startMeasurement_touches (l : Bool) (s : State) : Touches [.fe, .im] s (startMeasurement l s) :=
  ((onIm_touches s _).mono).step (startAttempt_touches _)

theorem requestMeasurement_touches (s : State) : Touches [.fe, .im] s (requestMeasurement s) := by
  unfold requestMeasurement
  split
  · exact startMeasurement_touches _ _
  · exact (onIm_touches s _).mono

theorem priorityRequest_touches (s : State) : Touches [.fe, .im] s (priorityRequest s) := by
  unfold priorityRequest
  split
  · exact requestMeasurement_touches _
  · exact .refl _ _

theorem endMeasurement_touches (s : State) : Touches [.fe, .im] s (endMeasurement s) :=
  ((openSwitches_touches s).mono).step (onIm_touches _ _)

theorem appendFault_touches (k : FaultKind) (x : Figures) (s : State) :
    Touches [.im, .ports, .free] s (appendFault k x s) := by
  unfold appendFault
  split
  · dsimp only
    split
    · exact (onIm_touches s _).mono
    · exact ((onIm_touches s _).mono).step (raiseAll_touches _ _)
  · exact (((stamped_touches s).mono).step (onIm_touches _ _)).step (raiseAll_touches _ _)

/-- The blocks a change of level reaches. -/
def levelBlocks : List Block := .im :: closeBlocks

theorem setLevel_touches (l : Level) (x : Figures) (s : State) : Touches levelBlocks s (setLevel l x s) := by
  unfold setLevel
  split
  · exact .refl _ _
  · have h1 : Touches levelBlocks s (occur .levelChanged (raiseAll .insulation
        (s.onIm fun m => { m with level := l, worse := .empty, better := .empty }))) :=
      (((onIm_touches s _).mono).step (raiseAll_touches _ _)).step (occur_touches _ _)
    dsimp only
    split
    · exact (h1.step (appendFault_touches _ _ _)).step (takeLevel_touches _ _)
    · exact h1.step (takeLevel_touches _ _)

theorem takeWorse_touches (k : Class) (x : Figures) (leg : Bool) (s : State) :
    Touches levelBlocks s (takeWorse k x leg s) := by
  unfold takeWorse
  have h1 (f : Insulation → Insulation) : Touches levelBlocks s (s.onIm f) := (onIm_touches s f).mono
  dsimp only
  split
  · split
    · exact ((h1 _).step (onIm_touches _ _)).step (localiseLeg_touches _)
    · exact (h1 _).step (setLevel_touches _ _ _)
  · exact h1 _

theorem takeBetter_touches (k : Class) (x : Figures) (s : State) : Touches levelBlocks s (takeBetter k x s) := by
  unfold takeBetter
  dsimp only
  split
  · exact ((onIm_touches s _).mono).step (setLevel_touches _ _ _)
  · exact (onIm_touches s _).mono

theorem takeClass_touches (k : Class) (x : Figures) (leg : Bool) (s : State) :
    Touches levelBlocks s (takeClass k x leg s) := by
  have he : Touches levelBlocks s (emptyRuns s) := (onIm_touches s _).mono
  unfold takeClass
  split <;> (repeat' split) <;>
    first
    | exact he
    | exact takeWorse_touches _ _ _ _
    | exact takeBetter_touches _ _ _
    | exact setLevel_touches _ _ _

theorem takeLocalisation_touches (r : ResultRecord) (s : State) : Touches levelBlocks s (takeLocalisation r s) := by
  unfold takeLocalisation
  have h1 : Touches levelBlocks s (s.onIm fun m => { m with locRecord := none }) := (onIm_touches s _).mono
  dsimp only
  split
  · exact (((h1.step (isolateLeg_touches _)).step (appendFault_touches _ _ _)).step (setLevel_touches _ _ _)).step
      (onIm_touches _ _)
  · exact (h1.step (releaseLeg_touches _)).step (setLevel_touches _ _ _)

theorem applyResult_touches (r : ResultRecord) (s : State) : Touches levelBlocks s (applyResult r s) := by
  unfold applyResult
  split
  · exact takeLocalisation_touches _ s
  · split
    · exact takeClass_touches _ _ _ s
    · exact .refl _ s

theorem resultEvent_touches (r : ResultRecord) (s : State) : Touches levelBlocks s (resultEvent r s) :=
  ((((offer_touches _ _ s).mono).step (onIm_touches _ _)).step (applyResult_touches _ _)).step (seekVerdict_touches _ _ _)

theorem endInvalid_touches (why : InvalidReason) (u : Nat) (s : State) : Touches workBlocks s (endInvalid why u s) :=
  (((endMeasurement_touches s).mono).step (stamped_touches _)).step (resultEvent_touches _ _)

theorem settleB_touches (x : ChassisSample) (s : State) : Touches workBlocks s (settleB x s) :=
  (((endMeasurement_touches s).mono).step (stamped_touches _)).step (resultEvent_touches _ _)

theorem settleA_touches (x : ChassisSample) (s : State) : Touches [.fe, .im] s (settleA x s) :=
  ((onFe_touches s _).mono).step (onIm_touches _ _)

theorem takeChassis_touches (x : ChassisSample) (s : State) : Touches workBlocks s (takeChassis x s) := by
  unfold takeChassis
  dsimp only
  split <;> (repeat' split) <;>
    first
    | exact .refl _ _
    | exact (onIm_touches s _).mono
    | exact (settleA_touches _ _).mono
    | exact settleB_touches _ _

theorem disturb_touches (s : State) : Touches workBlocks s (disturb s) := by
  unfold disturb
  split
  · split
    · exact (((openSwitches_touches s).mono).step (onIm_touches _ _)).step (startAttempt_touches _)
    · exact endInvalid_touches _ _ _
  · exact .refl _ _

theorem takeReports_touches (before after : State) : Touches workBlocks after (takeReports before after) := by
  unfold takeReports
  split
  · dsimp only
    split
    · split
      · exact (disturb_touches _).trans (disturb_touches _)
      · exact disturb_touches _
    · split
      · exact disturb_touches _
      · exact .refl _ _
  · exact .refl _ _

theorem runningBegins_touches (s : State) : Touches [.fe, .im] s (runningBegins s) := by
  unfold runningBegins
  dsimp only
  split
  · exact ((onIm_touches s _).mono).step (startMeasurement_touches _ _)
  · exact (onIm_touches s _).mono

theorem runningEnds_touches (u : Nat) (s : State) : Touches workBlocks s (runningEnds u s) := by
  unfold runningEnds
  dsimp only
  split
  · exact ((onIm_touches s _).mono).step (endInvalid_touches _ _ _)
  · exact (onIm_touches s _).mono

theorem imTake_touches (x : SampleSet) (s : State) : Touches workBlocks s (imTake x s) := by
  unfold imTake
  dsimp only
  split
  · exact (runningBegins_touches s).mono
  · split
    · exact runningEnds_touches _ _
    · exact .refl _ _

theorem forcedStop_touches (s : State) : Touches [.fe, .hc, .im] s (forcedStop s) := by
  unfold forcedStop
  dsimp only
  split
  · exact ((((endMeasurement_touches s).mono).step (onIm_touches _ _)).step (onIm_touches _ _)).step
      (releaseLeg_touches _)
  · exact ((endMeasurement_touches s).mono).step (onIm_touches _ _)

end Sys2Proof.Machine
end

