-- ==== Sys2Proof/Laws/Heater.lean ====
section
/-! SUPPORT. The laws of the heater operations: which of them leave no element on that was off, and which leave none on
(R57, R59, R65, R74). -/

namespace Sys2Proof.Machine

set_option Elab.async false

/-- The second heater has on only elements that the first has on. -/
def Heater.OnlyOff (h h' : Heater) : Prop := (h'.e1.isOn = true → h.e1.isOn = true) ∧ (h'.e2.isOn = true → h.e2.isOn = true)

theorem Heater.OnlyOff.refl (h : Heater) : h.OnlyOff h := ⟨id, id⟩

theorem Heater.OnlyOff.trans {a b c : Heater} (h : a.OnlyOff b) (h' : b.OnlyOff c) : a.OnlyOff c :=
  ⟨fun x => h.1 (h'.1 x), fun x => h.2 (h'.2 x)⟩

/-- Nothing on stays nothing on. -/
theorem Heater.OnlyOff.none {a b : Heater} (h : a.OnlyOff b) (h1 : a.e1.isOn = false) (h2 : a.e2.isOn = false) :
    b.e1.isOn = false ∧ b.e2.isOn = false := by
  constructor
  · cases hb : b.e1.isOn
    · rfl
    · rw [h.1 hb] at h1; cases h1
  · cases hb : b.e2.isOn
    · rfl
    · rw [h.2 hb] at h2; cases h2

theorem Heater.turnOff_onlyOff (l : ElemState) (k : ElemId) (h : Heater) (hl : l ≠ .on) : h.OnlyOff (h.turnOff l k) := by
  unfold Heater.turnOff
  split
  · cases k <;> simp [Heater.on, Heater.OnlyOff, Element.isOn] <;> intro hx <;> exact absurd hx hl
  · exact .refl h

theorem Heater.allOff_onlyOff (h : Heater) : h.OnlyOff h.allOff :=
  (turnOff_onlyOff .off .e1 h (by simp)).trans (turnOff_onlyOff .off .e2 _ (by simp))

/-- A turn-off leaves the other element as it is. -/
theorem Heater.turnOff_e1_e2 (l : ElemState) (h : Heater) : (h.turnOff l .e1).e2 = h.e2 := by
  unfold turnOff; split <;> rfl

/-- A turn-off leaves the other element as it is. -/
theorem Heater.turnOff_e2_e1 (l : ElemState) (h : Heater) : (h.turnOff l .e2).e1 = h.e1 := by
  unfold turnOff; split <;> rfl

/-- An element turned off is not on. -/
theorem Heater.turnOff_self (l : ElemState) (k : ElemId) (h : Heater) (hl : l ≠ .on) :
    ((h.turnOff l k).get k).isOn = false := by
  unfold turnOff
  split
  · cases k <;> simp [Heater.get, Heater.on, Element.isOn, hl]
  · next hx => simpa using hx

theorem Heater.allOff_e1 (h : Heater) : h.allOff.e1.isOn = false := by
  unfold allOff
  rw [turnOff_e2_e1]
  exact turnOff_self .off .e1 h (by simp)

theorem Heater.allOff_e2 (h : Heater) : h.allOff.e2.isOn = false := turnOff_self .off .e2 _ (by simp)

theorem Heater.openLeg_onlyOff (h : Heater) : h.OnlyOff h.openLeg := by
  unfold openLeg
  split
  · exact h.allOff_onlyOff
  · exact .refl h

theorem Heater.fit_onlyOff (a : Nat) (h : Heater) : h.OnlyOff (h.fit a) := by
  unfold fit
  split
  · exact .refl h
  · split
    · dsimp only
      split <;> split
      · exact .refl h
      · exact turnOff_onlyOff _ _ _ (by simp)
      · exact turnOff_onlyOff _ _ _ (by simp)
      · exact (turnOff_onlyOff _ _ _ (by simp)).trans (turnOff_onlyOff _ _ _ (by simp))
    · exact h.allOff_onlyOff

/-- An update of one element that turns nothing on. -/
theorem Heater.on_onlyOff (k : ElemId) (f : Element → Element) (h : Heater)
    (hf : ∀ e, (f e).isOn = true → e.isOn = true) : h.OnlyOff (h.on k f) := by
  cases k
  · exact ⟨hf _, id⟩
  · exact ⟨id, hf _⟩

theorem Heater.disable_onlyOff (c : ElemCause) (k : ElemId) (h : Heater) : h.OnlyOff (h.disable c k) :=
  (turnOff_onlyOff .disabled k h (by simp)).trans (on_onlyOff _ _ _ fun e x => by simp [Element.isOn] at x)

/-- The diagnosis flag takes no part. -/
theorem Heater.OnlyOff.diagnosis {h h' : Heater} (x : h.OnlyOff h') (b : Bool) : h.OnlyOff { h' with diagnosis := b } :=
  ⟨x.1, x.2⟩

theorem Heater.overcurrent_onlyOff (h : Heater) : h.OnlyOff h.overcurrent := by
  unfold overcurrent
  exact OnlyOff.diagnosis (((h.allOff_onlyOff.trans (openLeg_onlyOff _)).trans (disable_onlyOff _ _ _)).trans
    (disable_onlyOff _ _ _)) false

theorem Heater.beginDiagnosis_onlyOff (h : Heater) : h.OnlyOff h.beginDiagnosis := by
  unfold beginDiagnosis
  exact OnlyOff.diagnosis (turnOff_onlyOff _ _ _ (by simp)) true

theorem Heater.takeTemp_onlyOff (t : TempReading) (k : ElemId) (h : Heater) : h.OnlyOff (h.takeTemp t k) := by
  unfold takeTemp
  have h2 : h.OnlyOff (h.on k fun e => { e with hot := hotAfter t (h.get k).hot }) :=
    on_onlyOff _ _ _ fun e x => x
  dsimp only
  split
  · split
    · exact h2.trans (on_onlyOff _ _ _ fun e x => by simp [Element.isOn] at x)
    · exact h2.trans (turnOff_onlyOff _ _ _ (by simp))
    · exact h2
    · exact h2
  · split
    · exact h2.trans (on_onlyOff _ _ _ fun e x => by simp [Element.isOn] at x)
    · exact h2
    · exact h2
    · exact h2

theorem Heater.takeSelected_barred (a : Nat) (bars : TurnOnBars) (x : Selection) (k : ElemId) (h : Heater)
    (hb : bars.lockedOut = true) : h.takeSelected a bars x k = h := by
  simp [takeSelected, hb]

theorem Heater.dropUnselected_onlyOff (x : Selection) (k : ElemId) (h : Heater) : h.OnlyOff (h.dropUnselected x k) := by
  unfold dropUnselected
  split
  · exact turnOff_onlyOff _ _ _ (by simp)
  · exact .refl h

/-- In LOCKED_OUT the selection only turns elements off (R64). -/
theorem Heater.applySelection_barred (a : Nat) (bars : TurnOnBars) (h : Heater) (hb : bars.lockedOut = true) :
    h.OnlyOff (h.applySelection a bars) := by
  unfold applySelection
  dsimp only
  rw [takeSelected_barred _ _ _ _ _ hb, takeSelected_barred _ _ _ _ _ hb]
  exact (dropUnselected_onlyOff _ _ _).trans (dropUnselected_onlyOff _ _ _)

theorem Heater.startConnection_onlyOff (bars : TurnOnBars) (h : Heater) : h.OnlyOff (h.startConnection bars) := by
  unfold startConnection
  split
  · exact ⟨id, id⟩
  · exact .refl h

theorem Heater.restoreItems_onlyOff (x : RestoreSet) (h : Heater) : h.OnlyOff (h.restoreItems x) := by
  unfold restoreItems Heater.OnlyOff
  dsimp only
  constructor <;> split <;> simp [Element.restore, Element.isOn] <;> split <;> simp

end Sys2Proof.Machine
end

