-- ==== Sys2Proof/Laws/Session.lean ====
section
/-! SUPPORT. What the moves of the session controller leave: the exact session record after each, the command, and that
nothing is turned on (R24, R28 to R32, R45). -/

namespace Sys2Proof.Machine

set_option Elab.async false

/-! ## Blocks read off a frame -/

theorem Touches.sc_eq {bs : List Block} {s t : State} (h : Touches bs s t) (hb : bs.contains .sc = false := by rfl) :
    t.sc = s.sc := h .sc (by simpa using hb)
theorem Touches.pc_eq {bs : List Block} {s t : State} (h : Touches bs s t) (hb : bs.contains .pc = false := by rfl) :
    t.pc = s.pc := h .pc (by simpa using hb)
theorem Touches.hc_eq {bs : List Block} {s t : State} (h : Touches bs s t) (hb : bs.contains .hc = false := by rfl) :
    t.hc = s.hc := h .hc (by simpa using hb)
theorem Touches.im_eq {bs : List Block} {s t : State} (h : Touches bs s t) (hb : bs.contains .im = false := by rfl) :
    t.im = s.im := h .im (by simpa using hb)
theorem Touches.ea_eq {bs : List Block} {s t : State} (h : Touches bs s t) (hb : bs.contains .ea = false := by rfl) :
    t.ea = s.ea := h .ea (by simpa using hb)
theorem Touches.ct_eq {bs : List Block} {s t : State} (h : Touches bs s t) (hb : bs.contains .ct = false := by rfl) :
    t.ct = s.ct := h .ct (by simpa using hb)
theorem Touches.rs_eq {bs : List Block} {s t : State} (h : Touches bs s t) (hb : bs.contains .rs = false := by rfl) :
    t.rs = s.rs := h .rs (by simpa using hb)
theorem Touches.se_eq {bs : List Block} {s t : State} (h : Touches bs s t) (hb : bs.contains .se = false := by rfl) :
    t.se = s.se := h .se (by simpa using hb)
theorem Touches.fe_eq {bs : List Block} {s t : State} (h : Touches bs s t) (hb : bs.contains .fe = false := by rfl) :
    t.fe = s.fe := h .fe (by simpa using hb)
theorem Touches.ports_eq {bs : List Block} {s t : State} (h : Touches bs s t)
    (hb : bs.contains .ports = false := by rfl) : t.ports = s.ports := h .ports (by simpa using hb)
theorem Touches.cfg_eq {bs : List Block} {s t : State} (h : Touches bs s t) (hb : bs.contains .cfg = false := by rfl) :
    t.cfg = s.cfg := h .cfg (by simpa using hb)
theorem Touches.pending_eq {bs : List Block} {s t : State} (h : Touches bs s t)
    (hb : bs.contains .pending = false := by rfl) : t.pending = s.pending := h .pending (by simpa using hb)
theorem Touches.resetLow_eq {bs : List Block} {s t : State} (h : Touches bs s t)
    (hb : bs.contains .resetLow = false := by rfl) : t.resetLow = s.resetLow := h .resetLow (by simpa using hb)

/-! ## The allowance -/

/-- What a recomputation writes in the power command (R43). -/
@[simp] theorem recompute_pc (v : Nat) (s : State) :
    (recompute v s).pc =
      { s.pc with lStation := lStationOf s, lObc := lObcOf s, bReq := bReqOf v s, aH := allowanceOf v s } := by
  unfold recompute
  dsimp only
  split <;> rfl

theorem recompute_hc (v : Nat) (s : State) : s.hc.OnlyOff (recompute v s).hc := by
  unfold recompute
  dsimp only
  split
  · exact .refl _
  · exact Heater.fit_onlyOff _ _

theorem stateChangeCommand_pCmd (s : State) :
    (stateChangeCommand s).pc.pCmd = if keepsCommand s.sc then s.pc.pCmd else 0 := by
  unfold stateChangeCommand recomputeNow
  split <;> simp [setCommand]

theorem stateChangeCommand_derate (s : State) : (stateChangeCommand s).pc.derate = s.pc.derate := by
  unfold stateChangeCommand recomputeNow
  split <;> simp [setCommand]

theorem stateChangeCommand_exhausted (s : State) : (stateChangeCommand s).pc.exhausted = s.pc.exhausted := by
  unfold stateChangeCommand recomputeNow
  split <;> simp [setCommand]

theorem stateChangeCommand_hc (s : State) : s.hc.OnlyOff (stateChangeCommand s).hc := by
  unfold stateChangeCommand recomputeNow
  split
  · exact recompute_hc _ _
  · exact recompute_hc _ (setCommand 0 s)

/-! ## A change of state -/

/-- The state in which `setState` computes its effects on the power command. -/
def moved (x : SessionState) (s : State) : State :=
  occur .stateChanged (raiseAll .session (s.onSc fun c => { c with state := x }))

theorem moved_touches (x : SessionState) (s : State) : Touches (.sc :: signals) s (moved x s) :=
  (((onSc_touches s _).mono).step (raiseAll_touches _ _)).step (occur_touches _ _)

@[simp] theorem moved_sc (x : SessionState) (s : State) : (moved x s).sc = { s.sc with state := x } := by
  have h := ((raiseAll_touches .session (s.onSc fun c => { c with state := x })).mono (cs := signals)).step
    (occur_touches .stateChanged _)
  exact h.sc_eq

/-- A change of state with a staged table applied or not. -/
theorem setState_cases (x : SessionState) (s : State) :
    setState x s = s ∧ s.sc.state = x ∨
      s.sc.state ≠ x ∧ Touches (.ct :: signals) (stateChangeCommand (moved x s)) (setState x s) := by
  unfold setState
  split
  · exact .inl ⟨rfl, by assumption⟩
  · refine .inr ⟨by assumption, ?_⟩
    dsimp only
    split
    · exact applyStaged_touches _ _
    · exact .refl _ _

/-- The session controller after a change of state: the state alone (R15). -/
@[simp] theorem setState_sc (x : SessionState) (s : State) : (setState x s).sc = { s.sc with state := x } := by
  rcases setState_cases x s with ⟨h, h'⟩ | ⟨h, h'⟩
  · rw [h, ← h']
  · rw [h'.sc_eq, (stateChangeCommand_touches _).sc_eq, moved_sc]

theorem setState_hc (x : SessionState) (s : State) : s.hc.OnlyOff (setState x s).hc := by
  rcases setState_cases x s with ⟨h, -⟩ | ⟨-, h'⟩
  · rw [h]; exact .refl _
  · rw [h'.hc_eq]
    have := stateChangeCommand_hc (moved x s)
    rwa [(moved_touches x s).hc_eq] at this

/-- P_cmd after a change of state (R45). -/
theorem setState_pCmd (x : SessionState) (s : State) :
    (setState x s).pc.pCmd =
      if s.sc.state = x then s.pc.pCmd else if keepsCommand { s.sc with state := x } then s.pc.pCmd else 0 := by
  rcases setState_cases x s with ⟨h, h'⟩ | ⟨h, h'⟩
  · rw [h, if_pos h']
  · rw [h'.pc_eq, stateChangeCommand_pCmd, moved_sc, (moved_touches x s).pc_eq, if_neg h]

theorem setState_derate (x : SessionState) (s : State) : (setState x s).pc.derate = s.pc.derate := by
  rcases setState_cases x s with ⟨h, -⟩ | ⟨-, h'⟩
  · rw [h]
  · rw [h'.pc_eq, stateChangeCommand_derate, (moved_touches x s).pc_eq]

theorem setState_exhausted (x : SessionState) (s : State) : (setState x s).pc.exhausted = s.pc.exhausted := by
  rcases setState_cases x s with ⟨h, -⟩ | ⟨-, h'⟩
  · rw [h]
  · rw [h'.pc_eq, stateChangeCommand_exhausted, (moved_touches x s).pc_eq]

/-! ## The end of a session -/

/-- The session controller after the end of a session (R29). -/
theorem sessionEnd_sc (s : State) :
    (sessionEnd s).sc =
      { s.sc with
        state := if s.sc.state = .closing then restingState s.sc else s.sc.state
        hold := .empty
        gate := false
        commandZero := false
        finalPending := false
        record := { s.sc.record with pause := false } } := by
  unfold sessionEnd
  have h (u : State) : (occur .sessionClosed (raiseAll .session u)).sc = u.sc :=
    (((raiseAll_touches .session u).mono (cs := signals)).step (occur_touches .sessionClosed _)).sc_eq
  dsimp only
  rw [h]
  split <;> simp

end Sys2Proof.Machine
end

