-- ==== Sys2Proof/Laws/Settled.lean ====
section
/-! SUPPORT. The part of the command and lockout invariants that every shared operation keeps on its own, and the proof that
each does (R24, R30, R33, R38 to R46, R64, R74). -/

namespace Sys2Proof.Machine

set_option Elab.async false

/-- Both invariants but for the clause on level FAULT, which the entry into LOCKED_OUT restores last. -/
structure Settled (s : State) : Prop where
  tens : s.pc.pCmd % 10 = 0
  station : s.pc.pCmd ≤ lStationOf s
  charger : s.pc.pCmd ≤ lObcOf s
  zero : powered s.sc.state = false → s.pc.pCmd = 0
  reasons : s.sc.state ≠ .lockedOut → s.sc.lockout = .empty
  heater : s.sc.state = .lockedOut → heaterOff s
  hold : s.sc.state.isOpen = false → s.sc.hold = .empty

theorem settled_iff (s : State) :
    CommandOk s ∧ LockoutOk s ↔ Settled s ∧ (s.im.level = .fault → s.sc.state = .lockedOut) := by
  constructor
  · rintro ⟨c, l⟩
    exact ⟨⟨c.tens, c.station, c.charger, c.zero, l.reasons, l.heater, l.hold⟩, l.fault⟩
  · rintro ⟨x, f⟩
    exact ⟨⟨x.tens, x.station, x.charger, x.zero⟩,
      ⟨f, x.reasons, x.heater, fun h => x.zero (by rw [h]; rfl), x.hold⟩⟩

/-! ## Operations that touch nothing of it -/

/-- What the clauses read, unchanged, but for elements turned off. -/
structure Calm (s t : State) : Prop where
  state : t.sc.state = s.sc.state
  lockout : t.sc.lockout = s.sc.lockout
  hold : t.sc.hold = s.sc.hold
  offer : t.sc.record.offer = s.sc.record.offer
  heater : s.hc.OnlyOff t.hc
  command : t.pc.pCmd = s.pc.pCmd
  derate : t.pc.derate = s.pc.derate
  exhausted : t.pc.exhausted = s.pc.exhausted
  cfg : t.cfg = s.cfg

theorem Calm.refl (s : State) : Calm s s := ⟨rfl, rfl, rfl, rfl, .refl _, rfl, rfl, rfl, rfl⟩

theorem Calm.trans {s t u : State} (h : Calm s t) (h' : Calm t u) : Calm s u :=
  ⟨h'.state.trans h.state, h'.lockout.trans h.lockout, h'.hold.trans h.hold, h'.offer.trans h.offer,
    h.heater.trans h'.heater, h'.command.trans h.command, h'.derate.trans h.derate, h'.exhausted.trans h.exhausted,
    h'.cfg.trans h.cfg⟩

theorem lStationOf_congr {s t : State} (h1 : t.sc.record.offer = s.sc.record.offer) (h2 : t.cfg = s.cfg) :
    lStationOf t = lStationOf s := by simp only [lStationOf, h1, h2]

theorem lObcOf_congr {s t : State} (h1 : t.pc.derate = s.pc.derate) (h2 : t.pc.exhausted = s.pc.exhausted)
    (h3 : t.cfg = s.cfg) : lObcOf t = lObcOf s := by simp only [lObcOf, h1, h2, h3]

theorem Settled.calm {s t : State} (x : Settled s) (h : Calm s t) : Settled t where
  tens := by rw [h.command]; exact x.tens
  station := by rw [h.command, lStationOf_congr h.offer h.cfg]; exact x.station
  charger := by rw [h.command, lObcOf_congr h.derate h.exhausted h.cfg]; exact x.charger
  zero := by rw [h.command, h.state]; exact x.zero
  reasons := by rw [h.lockout, h.state]; exact x.reasons
  heater := by
    rw [h.state]
    intro hs
    exact h.heater.none (x.heater hs).1 (x.heater hs).2
  hold := by rw [h.hold, h.state]; exact x.hold

/-- An operation outside the session controller, the power command, the heater and the items. -/
theorem Touches.calm {bs : List Block} {s t : State} (h : Touches bs s t) (h1 : bs.contains .sc = false := by rfl)
    (h2 : bs.contains .pc = false := by rfl) (h3 : bs.contains .hc = false := by rfl)
    (h4 : bs.contains .cfg = false := by rfl) : Calm s t := by
  have e1 := h.sc_eq h1; have e2 := h.pc_eq h2; have e3 := h.hc_eq h3; have e4 := h.cfg_eq h4
  exact ⟨by rw [e1], by rw [e1], by rw [e1], by rw [e1], by rw [e3]; exact .refl _, by rw [e2], by rw [e2], by rw [e2], e4⟩

/-- An update of the heater that turns nothing on. -/
theorem onHc_calm (s : State) (f : Heater → Heater) (h : s.hc.OnlyOff (f s.hc)) : Calm s (s.onHc f) :=
  ⟨rfl, rfl, rfl, rfl, h, rfl, rfl, rfl, rfl⟩

theorem recompute_calm (v : Nat) (s : State) : Calm s (recompute v s) := by
  have h := recompute_touches v s
  exact ⟨by rw [h.sc_eq], by rw [h.sc_eq], by rw [h.sc_eq], by rw [h.sc_eq], recompute_hc v s, by simp, by simp, by simp,
    h.cfg_eq⟩

theorem recomputeNow_calm (s : State) : Calm s (recomputeNow s) := recompute_calm _ s

theorem heaterEvent_calm (s : State) : Calm s (heaterEvent s) := (heaterEvent_touches s).calm

/-! ## The command -/

theorem Settled.setCommand {s : State} (x : Settled s) (p : Nat) (h1 : p % 10 = 0) (h2 : p ≤ lStationOf s)
    (h3 : p ≤ lObcOf s) (h4 : powered s.sc.state = false → p = 0) : Settled (setCommand p s) :=
  ⟨h1, h2, h3, h4, x.reasons, x.heater, x.hold⟩

theorem Settled.setCommand_zero {s : State} (x : Settled s) : Settled (Machine.setCommand 0 s) :=
  x.setCommand 0 rfl (Nat.zero_le _) (Nat.zero_le _) fun _ => rfl

theorem quantise_tens (p : Nat) : quantise p % 10 = 0 := by unfold quantise; omega
theorem quantise_le (p : Nat) : quantise p ≤ p := by unfold quantise; omega

/-! ## Moves -/

theorem keepsCommand_powered (c : Session) (h : keepsCommand c = true) : powered c.state = true := by
  unfold keepsCommand at h
  unfold powered
  split <;> simp_all

theorem setState_calmExcept (x : SessionState) (s : State) :
    (setState x s).cfg = s.cfg ∧ (setState x s).im = s.im ∧ (setState x s).pc.pCmd ≤ s.pc.pCmd := by
  refine ⟨(setState_touches x s).cfg_eq, (setState_touches x s).im_eq, ?_⟩
  rw [setState_pCmd]
  split <;> (try split) <;> omega

theorem Settled.setState {s : State} (a : Settled s) (x : SessionState) (h1 : x ≠ .lockedOut)
    (h2 : s.sc.state = .lockedOut → s.sc.lockout = .empty) (h3 : x.isOpen = false → s.sc.hold = .empty) :
    Settled (setState x s) := by
  have hc := (setState_calmExcept x s).1
  have hp := setState_pCmd x s
  have hle := (setState_calmExcept x s).2.2
  have hst : lStationOf (Machine.setState x s) = lStationOf s := lStationOf_congr (by simp) hc
  have hob : lObcOf (Machine.setState x s) = lObcOf s :=
    lObcOf_congr (setState_derate x s) (setState_exhausted x s) hc
  refine ⟨?_, ?_, ?_, ?_, ?_, ?_, ?_⟩
  · rw [hp]
    have := a.tens
    split <;> (try split) <;> simp_all
  · rw [hst]; exact hle.trans a.station
  · rw [hob]; exact hle.trans a.charger
  · rw [setState_sc, hp]
    intro hx
    split
    · next he => exact a.zero (by rw [he]; exact hx)
    · split
      · next hk => rw [keepsCommand_powered _ hk] at hx; cases hx
      · rfl
  · intro _
    rw [setState_sc]
    by_cases hl : s.sc.state = .lockedOut
    · exact h2 hl
    · exact a.reasons hl
  · rw [setState_sc]; intro hx; exact absurd hx h1
  · rw [setState_sc]; exact h3

/-- An update of the session controller outside what the clauses read. -/
theorem onSc_calm (s : State) (f : Session → Session) (h1 : (f s.sc).state = s.sc.state)
    (h2 : (f s.sc).lockout = s.sc.lockout) (h3 : (f s.sc).hold = s.sc.hold)
    (h4 : (f s.sc).record.offer = s.sc.record.offer) : Calm s (s.onSc f) :=
  ⟨h1, h2, h3, h4, .refl _, rfl, rfl, rfl, rfl⟩

theorem Settled.sessionEnd {s : State} (a : Settled s) : Settled (Machine.sessionEnd s) := by
  have hr : restingState s.sc ≠ .lockedOut ∧ (restingState s.sc).isOpen = false := by
    unfold restingState; split <;> simp [SessionState.isOpen]
  have key (u : State) (hu : Settled { u with sc := { u.sc with hold := HoldSet.empty } }) :
      Settled (occur .sessionClosed (raiseAll .session (u.onSc fun c =>
        { c with hold := .empty, gate := false, commandZero := false, finalPending := false
                 record := { c.record with pause := false } }))) := by
    have h1 : Settled (u.onSc fun c =>
        { c with hold := .empty, gate := false, commandZero := false, finalPending := false
                 record := { c.record with pause := false } }) :=
      hu.calm ⟨rfl, rfl, rfl, rfl, .refl _, rfl, rfl, rfl, rfl⟩
    exact (h1.calm (raiseAll_touches _ _).calm).calm (occur_touches _ _).calm
  unfold Machine.sessionEnd
  dsimp only
  split
  · next hs =>
    apply key
    have h0 : Settled { s with sc := { s.sc with hold := HoldSet.empty } } :=
      ⟨a.tens, a.station, a.charger, a.zero, a.reasons, a.heater, fun _ => rfl⟩
    have hc := (setState_calmExcept (restingState s.sc) s).1
    have hp : (Machine.setState (restingState s.sc) s).pc.pCmd = 0 := by
      rw [setState_pCmd]
      rw [if_neg (by rw [hs]; intro e; rw [← e] at hr; simp [SessionState.isOpen] at hr)]
      rw [if_neg]
      intro hk
      have := keepsCommand_powered _ hk
      unfold restingState at this
      revert this
      cases s.sc.plug <;> simp [powered]
    refine ⟨?_, ?_, ?_, ?_, ?_, ?_, ?_⟩
    · show (Machine.setState _ s).pc.pCmd % 10 = 0
      rw [hp]
    · show (Machine.setState _ s).pc.pCmd ≤ _
      rw [hp]; exact Nat.zero_le _
    · show (Machine.setState _ s).pc.pCmd ≤ _
      rw [hp]; exact Nat.zero_le _
    · intro _; exact hp
    · intro _
      show (Machine.setState _ s).sc.lockout = _
      rw [setState_sc]
      exact a.reasons (by rw [hs]; simp)
    · intro hx
      rw [setState_sc] at hx
      exact absurd hx hr.1
    · intro _; rfl
  · next hs =>
    apply key
    exact ⟨a.tens, a.station, a.charger, a.zero, a.reasons, a.heater, fun _ => rfl⟩

theorem Settled.answerClose {s : State} (a : Settled s) : Settled (Machine.answerClose s) := by
  unfold Machine.answerClose
  split
  · exact a.sessionEnd
  · exact (a.calm (onSc_calm s _ rfl rfl rfl rfl)).calm (raiseAll_touches _ _).calm

theorem finalClose_calm (r : BillingReason) (l : Bool) (s : State) : Calm s (finalClose r l s) :=
  (finalClose_touches r l s).calm

theorem Settled.placeFinal {s : State} (a : Settled s) : Settled (Machine.placeFinal s) := by
  unfold Machine.placeFinal
  split
  · exact a
  · split
    · exact ((a.calm (placeRecord_touches _ _).calm).calm (onCt_touches _ _).calm).sessionEnd
    · exact a

theorem Settled.billingGainsRoom {s : State} (a : Settled s) : Settled (Machine.billingGainsRoom s) :=
  (a.calm (appendHeld_touches s).calm).placeFinal

theorem Settled.commandZeroReached {s : State} (a : Settled s) : Settled (Machine.commandZeroReached s) := by
  unfold Machine.commandZeroReached
  split
  · exact ((a.calm (onSc_calm s _ rfl rfl rfl rfl)).calm (finalClose_calm _ _ _)).answerClose
  · exact a

theorem Settled.enterClosing {s : State} (a : Settled s) (h : s.sc.state ≠ .lockedOut) (r : CloseReason) :
    Settled (Machine.enterClosing r s) := by
  have h1 := a.calm (onSc_calm s (fun c => { c with verify := none, record := { c.record with closeReason := r } })
    rfl rfl rfl rfl)
  exact (h1.setState .closing (by simp) (fun hx => absurd hx h) (by simp [SessionState.isOpen])).commandZeroReached

theorem Settled.closeOnLoss {s : State} (a : Settled s) (h : s.sc.state ≠ .lockedOut) :
    Settled (Machine.closeOnLoss s) :=
  Settled.enterClosing (a.calm (onSc_calm s (fun c => { c with lossNow := true }) rfl rfl rfl rfl)) h _

theorem poweredState_ne (c : Session) : poweredState c ≠ .lockedOut ∧ (poweredState c).isOpen = true := by
  unfold poweredState; split <;> simp [SessionState.isOpen]

theorem Settled.holdMove {s : State} (a : Settled s) : Settled (Machine.holdMove s) := by
  unfold Machine.holdMove
  split
  · next hs =>
    split
    · exact a.setState _ (by simp) (by rw [hs]; simp) (by simp [SessionState.isOpen])
    · exact a
  · next hs =>
    split
    · exact a.setState _ (by simp) (by rw [hs]; simp) (by simp [SessionState.isOpen])
    · exact a
  · next hs =>
    split
    · exact a
    · exact a.setState _ (poweredState_ne _).1 (by rw [hs]; simp) (by rw [(poweredState_ne _).2]; simp)
  all_goals exact a

theorem Settled.sampleMove {s : State} (a : Settled s) : Settled (Machine.sampleMove s) := by
  have h (hs : s.sc.state ≠ .lockedOut) :
      Settled (Machine.setState (if s.sc.hold.any then .hold else poweredState s.sc) s) := by
    refine a.setState _ ?_ (fun hx => absurd hx hs) ?_
    · split
      · simp
      · exact (poweredState_ne _).1
    · split
      · simp [SessionState.isOpen]
      · rw [(poweredState_ne _).2]; simp
  unfold Machine.sampleMove
  split <;> first | exact a | (next hs => exact h (by rw [hs]; simp))

theorem Settled.plugTransition {s : State} (a : Settled s) (l : Plug) : Settled (Machine.plugTransition l s) := by
  unfold Machine.plugTransition
  split
  · split
    · next hs =>
      exact a.setState _ (by simp) (by rw [hs]; simp) (fun _ => a.hold (by rw [hs]; rfl))
    all_goals exact a
  · split
    · next hs =>
      exact a.setState _ (by simp) (by rw [hs]; simp) (fun _ => a.hold (by rw [hs]; rfl))
    · next hs => exact a.closeOnLoss (by rw [hs]; simp)
    · next hs => exact a.closeOnLoss (by rw [hs]; simp)
    · next hs => exact a.closeOnLoss (by rw [hs]; simp)
    · next hs => exact a.closeOnLoss (by rw [hs]; simp)
    · exact a.setCommand_zero
    all_goals exact a

/-- An update of the session controller that writes hold reasons while a session is open only. -/
theorem Settled.onSc_hold {s : State} (a : Settled s) (f : Session → Session) (h1 : (f s.sc).state = s.sc.state)
    (h2 : (f s.sc).lockout = s.sc.lockout) (h3 : s.sc.state.isOpen = false → (f s.sc).hold = s.sc.hold)
    (h4 : (f s.sc).record.offer = s.sc.record.offer) : Settled (s.onSc f) := by
  have hst : lStationOf (s.onSc f) = lStationOf s := lStationOf_congr h4 rfl
  refine ⟨a.tens, by rw [hst]; exact a.station, a.charger, ?_, ?_, ?_, ?_⟩
  · show powered (f s.sc).state = false → _
    rw [h1]; exact a.zero
  · show (f s.sc).state ≠ _ → (f s.sc).lockout = _
    rw [h1, h2]; exact a.reasons
  · show (f s.sc).state = _ → _
    rw [h1]; exact a.heater
  · show (f s.sc).state.isOpen = false → (f s.sc).hold = _
    rw [h1]
    intro h
    rw [h3 h]; exact a.hold h

theorem Settled.scTake {s : State} (a : Settled s) (x : SampleSet) : Settled (Machine.scTake x s) := by
  have hd (c : Session) : (c.debounce x.plug).state = c.state ∧ (c.debounce x.plug).lockout = c.lockout ∧
      (c.debounce x.plug).hold = c.hold ∧ (c.debounce x.plug).record = c.record := by
    unfold Session.debounce; split <;> (try split) <;> simp
  have h1 : Settled (s.onSc fun c => (c.debounce x.plug).takeSet x) := by
    obtain ⟨e1, e2, e3, e4⟩ := hd s.sc
    apply a.onSc_hold
    · unfold Session.takeSet; split <;> simp [e1]
    · unfold Session.takeSet; split <;> simp [e2]
    · intro h; unfold Session.takeSet; rw [e1, if_neg (by rw [h]; simp)]; exact e3
    · unfold Session.takeSet; split <;> simp [e4]
  unfold Machine.scTake
  dsimp only
  split
  · exact h1.plugTransition _
  · exact h1.sampleMove

/-! ## Lockout -/

theorem openLeg_off (h : Heater) (h1 : h.hldClosed = true) : h.openLeg.e1.isOn = false ∧ h.openLeg.e2.isOn = false := by
  unfold Heater.openLeg
  rw [if_pos h1]
  exact ⟨h.allOff_e1, h.allOff_e2⟩

theorem heaterLockout_off (s : State) : heaterOff (heaterLockout s) := by
  have h := (s.hc.allOff).openLeg_onlyOff.none s.hc.allOff_e1 s.hc.allOff_e2
  exact ⟨h.1, h.2⟩

/-- Entry into LOCKED_OUT from another state settles everything, whatever stood before. -/
theorem enterLockout_settled (r : LockoutReason) (s : State) (hs : s.sc.state ≠ .lockedOut) :
    Settled (Machine.enterLockout r s) ∧ (Machine.enterLockout r s).sc.state = .lockedOut := by
  have hstate (u : State) : (Machine.answerClose u).sc.state = u.sc.state ∨ u.sc.state = .closing := by
    unfold Machine.answerClose
    split
    · rw [sessionEnd_sc]
      by_cases h : u.sc.state = .closing
      · exact .inr h
      · exact .inl (by simp [h])
    · exact .inl rfl
  have key (u : State) (e1 : u.sc.state ≠ .lockedOut) (e2 : u.sc.hold = .empty) :
      Settled (heaterLockout (Machine.setState .lockedOut u)) ∧
        (heaterLockout (Machine.setState .lockedOut u)).sc.state = .lockedOut := by
    have hp : (Machine.setState .lockedOut u).pc.pCmd = 0 := by
      rw [setState_pCmd, if_neg e1]; simp [keepsCommand]
    refine ⟨⟨?_, ?_, ?_, ?_, ?_, ?_, ?_⟩, ?_⟩
    · show (Machine.setState .lockedOut u).pc.pCmd % 10 = 0
      rw [hp]
    · show (Machine.setState .lockedOut u).pc.pCmd ≤ _
      rw [hp]; exact Nat.zero_le _
    · show (Machine.setState .lockedOut u).pc.pCmd ≤ _
      rw [hp]; exact Nat.zero_le _
    · intro _; exact hp
    · intro h
      exact absurd (show (Machine.setState .lockedOut u).sc.state = .lockedOut by simp) h
    · intro _; exact heaterLockout_off _
    · intro _
      show (Machine.setState .lockedOut u).sc.hold = _
      rw [setState_sc]; exact e2
    · show (Machine.setState .lockedOut u).sc.state = _
      simp
  unfold Machine.enterLockout
  rw [if_neg hs]
  dsimp only
  split
  · set u := finalClose .final true ((s.onSc (Session.lockOut r)).onSc fun c =>
      { c with record := { c.record with closeReason := .lockout } }) with hu
    have hsc : u.sc = { s.sc.lockOut r with record := { (s.sc.lockOut r).record with closeReason := .lockout } } := by
      rw [hu, (finalClose_touches _ _ _).sc_eq]; rfl
    obtain ⟨k1, k2⟩ := key u (by rw [hsc]; exact hs) (by rw [hsc]; rfl)
    refine ⟨k1.answerClose, ?_⟩
    rcases hstate (heaterLockout (Machine.setState .lockedOut u)) with h | h
    · rw [h]; exact k2
    · rw [k2] at h; cases h
  · exact key (markFinal (fun f => { f with lockout := true }) (s.onSc (Session.lockOut r))) hs rfl

theorem Settled.enterLockout {s : State} (a : Settled s) (r : LockoutReason) :
    Settled (Machine.enterLockout r s) ∧ (Machine.enterLockout r s).sc.state = .lockedOut := by
  by_cases hs : s.sc.state = .lockedOut
  · unfold Machine.enterLockout
    rw [if_pos hs]
    unfold addLockoutReason
    split
    · exact ⟨a, hs⟩
    · have h1 : Settled (s.onSc fun c => { c with lockout := c.lockout.add r }) :=
        ⟨a.tens, a.station, a.charger, a.zero, fun h => absurd hs h, a.heater, a.hold⟩
      exact ⟨h1.calm (raiseAll_touches _ _).calm, hs⟩
  · exact enterLockout_settled r s hs

theorem Settled.takeLevel {s : State} (a : Settled s) (l : Level) : Settled (Machine.takeLevel l s) := by
  unfold Machine.takeLevel
  split
  · exact (a.enterLockout _).1
  · refine Settled.holdMove (a.onSc_hold _ ?_ ?_ ?_ ?_)
    · split <;> rfl
    · split <;> rfl
    · intro h; rw [if_neg (by rw [h]; simp)]
    · split <;> rfl

theorem Settled.seekVerdict {s : State} (a : Settled s) (v : Bool) (k : Class) : Settled (Machine.seekVerdict v k s) := by
  unfold Machine.seekVerdict
  split
  · next h =>
    have h1 := a.calm (onSc_calm s (fun c => { c with verify := none }) rfl rfl rfl rfl)
    refine h1.setState _ ?_ (fun hx => ?_) ?_
    · split
      · simp
      · exact (poweredState_ne _).1
    · have h2 : s.sc.state = .lockedOut := hx
      rw [h.1] at h2; cases h2
    · split
      · simp [SessionState.isOpen]
      · rw [(poweredState_ne _).2]; simp
  · exact a

/-! ## The level machine -/

theorem Settled.setLevel {s : State} (a : Settled s) (l : Level) (x : Figures) : Settled (Machine.setLevel l x s) := by
  unfold Machine.setLevel
  split
  · exact a
  · have h1 := ((a.calm (onIm_touches s fun m => { m with level := l, worse := .empty, better := .empty }).calm).calm
      (raiseAll_touches .insulation _).calm).calm (occur_touches .levelChanged _).calm
    dsimp only
    split
    · exact (h1.calm (appendFault_touches _ _ _).calm).takeLevel _
    · exact h1.takeLevel _

theorem localiseLeg_calm (s : State) : Calm s (localiseLeg s) :=
  onHc_calm s _ ⟨((s.hc.allOff_onlyOff).trans (Heater.openLeg_onlyOff _)).1, ((s.hc.allOff_onlyOff).trans (Heater.openLeg_onlyOff _)).2⟩

theorem releaseLeg_calm (s : State) : Calm s (releaseLeg s) := onHc_calm s _ ⟨id, id⟩

theorem isolateLeg_calm (s : State) : Calm s (isolateLeg s) := (onHc_calm s _ ⟨id, id⟩).trans (heaterEvent_calm _)

theorem Settled.takeWorse {s : State} (a : Settled s) (k : Class) (x : Figures) (leg : Bool) :
    Settled (Machine.takeWorse k x leg s) := by
  unfold Machine.takeWorse
  have h1 (f : Insulation → Insulation) : Settled (s.onIm f) := a.calm (onIm_touches s f).calm
  dsimp only
  split
  · split
    · exact ((h1 _).calm (onIm_touches _ _).calm).calm (localiseLeg_calm _)
    · exact (h1 _).setLevel _ _
  · exact h1 _

theorem Settled.takeBetter {s : State} (a : Settled s) (k : Class) (x : Figures) :
    Settled (Machine.takeBetter k x s) := by
  unfold Machine.takeBetter
  dsimp only
  split
  · exact (a.calm (onIm_touches s _).calm).setLevel _ _
  · exact a.calm (onIm_touches s _).calm

theorem Settled.takeClass {s : State} (a : Settled s) (k : Class) (x : Figures) (leg : Bool) :
    Settled (Machine.takeClass k x leg s) := by
  have he : Settled (emptyRuns s) := a.calm (onIm_touches s _).calm
  unfold Machine.takeClass
  split <;> (repeat' split) <;>
    first
    | exact he
    | exact a.takeWorse _ _ _
    | exact a.takeBetter _ _
    | exact a.setLevel _ _

theorem Settled.takeLocalisation {s : State} (a : Settled s) (r : ResultRecord) :
    Settled (Machine.takeLocalisation r s) := by
  unfold Machine.takeLocalisation
  have h1 : Settled (s.onIm fun m => { m with locRecord := none }) := a.calm (onIm_touches s _).calm
  dsimp only
  split
  · exact (((h1.calm (isolateLeg_calm _)).calm (appendFault_touches _ _ _).calm).setLevel _ _).calm
      (onIm_touches _ _).calm
  · exact (h1.calm (releaseLeg_calm _)).setLevel _ _

theorem Settled.applyResult {s : State} (a : Settled s) (r : ResultRecord) : Settled (Machine.applyResult r s) := by
  unfold Machine.applyResult
  split
  · exact a.takeLocalisation _
  · split
    · exact a.takeClass _ _ _
    · exact a

theorem Settled.resultEvent {s : State} (a : Settled s) (r : ResultRecord) : Settled (Machine.resultEvent r s) :=
  (((a.calm (offer_touches _ _ s).calm).calm (onIm_touches _ _).calm).applyResult r).seekVerdict _ _

theorem Settled.endInvalid {s : State} (a : Settled s) (why : InvalidReason) (u : Nat) :
    Settled (Machine.endInvalid why u s) :=
  ((a.calm (endMeasurement_touches s).calm).calm (stamped_touches _).calm).resultEvent _

theorem Settled.settleB {s : State} (a : Settled s) (x : ChassisSample) : Settled (Machine.settleB x s) :=
  ((a.calm (endMeasurement_touches s).calm).calm (stamped_touches _).calm).resultEvent _

theorem Settled.takeChassis {s : State} (a : Settled s) (x : ChassisSample) : Settled (Machine.takeChassis x s) := by
  unfold Machine.takeChassis
  dsimp only
  split <;> (repeat' split) <;>
    first
    | exact a
    | exact a.calm (onIm_touches s _).calm
    | exact a.calm (settleA_touches _ _).calm
    | exact a.settleB _

theorem Settled.disturb {s : State} (a : Settled s) : Settled (Machine.disturb s) := by
  unfold Machine.disturb
  split
  · split
    · exact ((a.calm (openSwitches_touches s).calm).calm (onIm_touches _ _).calm).calm (startAttempt_touches _).calm
    · exact a.endInvalid _ _
  · exact a

theorem Settled.takeReports {t : State} (a : Settled t) (s : State) : Settled (Machine.takeReports s t) := by
  unfold Machine.takeReports
  split
  · dsimp only
    split <;> split
    · exact a.disturb.disturb
    · exact a.disturb
    · exact a.disturb
    · exact a
  · exact a

theorem Settled.imTake {s : State} (a : Settled s) (x : SampleSet) : Settled (Machine.imTake x s) := by
  unfold Machine.imTake Machine.runningEnds
  dsimp only
  split
  · exact a.calm (runningBegins_touches s).calm
  · split
    · split
      · exact (a.calm (onIm_touches s _).calm).endInvalid _ _
      · exact a.calm (onIm_touches s _).calm
    · exact a

theorem forcedStop_calm (s : State) : Calm s (forcedStop s) := by
  unfold forcedStop
  have h1 := (endMeasurement_touches s).calm
  dsimp only
  split
  · exact ((h1.trans (onIm_touches _ _).calm).trans (onIm_touches _ _).calm).trans (releaseLeg_calm _)
  · exact h1.trans (onIm_touches _ _).calm

/-! ## The power command -/

/-- The clauses that do not compare P_cmd with the limits. -/
structure Loose (s : State) : Prop where
  tens : s.pc.pCmd % 10 = 0
  zero : powered s.sc.state = false → s.pc.pCmd = 0
  reasons : s.sc.state ≠ .lockedOut → s.sc.lockout = .empty
  heater : s.sc.state = .lockedOut → heaterOff s
  hold : s.sc.state.isOpen = false → s.sc.hold = .empty

theorem Settled.loose {s : State} (a : Settled s) : Loose s := ⟨a.tens, a.zero, a.reasons, a.heater, a.hold⟩

theorem Loose.commandAt {s : State} (a : Loose s) (p v : Nat) (h2 : p ≤ lStationOf s) (h3 : p ≤ lObcOf s)
    (h4 : powered s.sc.state = true) : Settled (Machine.setCommand (quantise p) (recompute v s)) := by
  have hc := recompute_calm v s
  refine ⟨quantise_tens p, ?_, ?_, ?_, ?_, ?_, ?_⟩
  · show quantise p ≤ lStationOf (recompute v s)
    rw [lStationOf_congr hc.offer hc.cfg]; exact (quantise_le p).trans h2
  · show quantise p ≤ lObcOf (recompute v s)
    rw [lObcOf_congr hc.derate hc.exhausted hc.cfg]; exact (quantise_le p).trans h3
  · show powered (recompute v s).sc.state = false → _
    rw [hc.state, h4]; simp
  · show (recompute v s).sc.state ≠ _ → (recompute v s).sc.lockout = _
    rw [hc.state, hc.lockout]; exact a.reasons
  · show (recompute v s).sc.state = _ → _
    rw [hc.state]; intro h; rw [h] at h4; cases h4
  · show (recompute v s).sc.state.isOpen = false → (recompute v s).sc.hold = _
    rw [hc.state, hc.hold]; exact a.hold

theorem Loose.atZero {s : State} (a : Loose s) : Settled (Machine.setCommand 0 s) :=
  ⟨rfl, Nat.zero_le _, Nat.zero_le _, fun _ => rfl, a.reasons, a.heater, a.hold⟩

theorem rampFrozen_le (b : Bool) (st prev t : Nat) : rampFrozen b st prev t ≤ t := by
  have h : rampTo st prev t ≤ t := by unfold rampTo; split <;> omega
  unfold rampFrozen
  split <;> omega

/-- The setpoint brings the command within both limits (R39 to R42, R46). -/
theorem Loose.takeSetpoint {s : State} (a : Loose s) (x : SampleSet) : Settled (Machine.takeSetpoint x s) := by
  have hl (h : powered s.sc.state = true) : Settled (Machine.setCommand
      (quantise (rampFrozen s.im.inPhase s.cfg.rampStep s.pc.pCmd (targetOf x.vBus s))) (recompute x.vBus s)) := by
    have := rampFrozen_le s.im.inPhase s.cfg.rampStep s.pc.pCmd (targetOf x.vBus s)
    have ht : targetOf x.vBus s ≤ lStationOf s ∧ targetOf x.vBus s ≤ lObcOf s := by unfold targetOf; omega
    exact a.commandAt _ _ (this.trans ht.1) (this.trans ht.2) h
  have hn : Settled (recompute x.vBus (Machine.setCommand 0 s)) := a.atZero.calm (recompute_calm _ _)
  unfold Machine.takeSetpoint
  split
  · next hs => exact hl (by rw [hs]; rfl)
  · next hs => exact hl (by rw [hs]; rfl)
  · next hs =>
    refine (a.commandAt _ _ ?_ ?_ (by rw [hs]; rfl)).commandZeroReached <;> (unfold closingStep; omega)
  all_goals exact hn

/-- A limit update brings the command within both limits (R44). -/
theorem Loose.limitUpdate {s : State} (a : Loose s) : Settled (Machine.limitUpdate s) := by
  have hc := recomputeNow_calm s
  have hn (hp : powered s.sc.state = false) : Settled (recomputeNow s) := by
    have h0 : s.pc.pCmd = 0 := a.zero hp
    have a : Settled s := ⟨a.tens, by omega, by omega, a.zero, a.reasons, a.heater, a.hold⟩
    exact a.calm hc
  have hl (hp : powered s.sc.state = true) : Settled (Machine.commandZeroReached (Machine.setCommand
      (quantise (min (recomputeNow s).pc.pCmd (min (recomputeNow s).pc.lStation (recomputeNow s).pc.lObc)))
      (recomputeNow s))) := by
    have e1 : (recomputeNow s).pc.lStation = lStationOf s := by simp [recomputeNow]
    have e2 : (recomputeNow s).pc.lObc = lObcOf s := by simp [recomputeNow]
    rw [e1, e2]
    exact (a.commandAt _ _ (by omega) (by omega) hp).commandZeroReached
  unfold Machine.limitUpdate
  dsimp only
  rw [hc.state]
  split <;> first | (next hs => exact hl (by rw [hs]; rfl)) | (next hs => exact hn (by rw [hs]; rfl))

/-- The derate state may rise past the command's limit; in TRIP the lockout has zeroed the command (R48 to R50). -/
theorem Loose.takeDerate {s : State} (a : Loose s) (x : SampleSet) : Loose (Machine.takeDerate x s) := by
  unfold Machine.takeDerate
  dsimp only
  split
  · exact a
  · set u := occur .derateChanged (raiseAll .derate (s.onPc fun p =>
      { p with derate := derateAfter s.cfg x.tObc s.pc.derate })) with hu
    have ht : Touches signals (s.onPc fun p => { p with derate := derateAfter s.cfg x.tObc s.pc.derate }) u :=
      ((raiseAll_touches _ _).mono).step (occur_touches _ _)
    have h1 : Loose u :=
      ⟨by rw [ht.pc_eq]; exact a.tens, by rw [ht.pc_eq, ht.sc_eq]; exact a.zero, by rw [ht.sc_eq]; exact a.reasons,
        by rw [ht.sc_eq]; unfold heaterOff; rw [ht.hc_eq]; exact a.heater, by rw [ht.sc_eq]; exact a.hold⟩
    split
    · by_cases hs : u.sc.state = .lockedOut
      · have h0 : u.pc.pCmd = 0 := h1.zero (by rw [hs]; rfl)
        exact ((Settled.mk h1.tens (by omega) (by omega) h1.zero h1.reasons h1.heater h1.hold).enterLockout _).1.loose
      · exact (enterLockout_settled _ _ hs).1.loose
    · exact h1

/-- An update of the power command that leaves P_cmd. -/
theorem Loose.onPc {s : State} (a : Loose s) (f : Power → Power) (h : (f s.pc).pCmd = s.pc.pCmd) : Loose (s.onPc f) := by
  refine ⟨?_, ?_, a.reasons, a.heater, a.hold⟩
  · show (f s.pc).pCmd % 10 = 0
    rw [h]; exact a.tens
  · show _ → (f s.pc).pCmd = 0
    rw [h]; exact a.zero

/-- The update (R38). -/
theorem Loose.pcTake {s : State} (a : Loose s) (x : SampleSet) : Settled (Machine.pcTake x s) := by
  unfold Machine.pcTake
  refine Loose.takeSetpoint ?_ x
  unfold takeExhaustion
  refine Loose.onPc ?_ _ rfl
  unfold takeWindow
  refine Loose.onPc (a.takeDerate x) _ ?_
  dsimp only
  split <;> split <;> rfl

/-! ## The heater -/

theorem evalThermostat_calm (t : TempReading) (s : State) : Calm s (evalThermostat t s) := by
  unfold evalThermostat
  have h0 : s.hc.OnlyOff (Heater.allOff { s.hc with
      thermostat := s.hc.thermostatAfter s.cfg.heatBand t, sensor := true }) := Heater.allOff_onlyOff
        { s.hc with thermostat := s.hc.thermostatAfter s.cfg.heatBand t, sensor := true }
  dsimp only
  split
  · split
    · exact onHc_calm s (fun h => { h with
        thermostat := s.hc.thermostatAfter s.cfg.heatBand t, sensor := true }.allOff) h0
    · exact (onHc_calm s (fun h => { h with
        thermostat := s.hc.thermostatAfter s.cfg.heatBand t, sensor := true }.allOff) h0).trans (heaterEvent_calm _)
  · exact onHc_calm s _ ⟨id, id⟩

theorem takeCheck_calm (v i : Nat) (s : State) : Calm s (takeCheck v i s) := by
  unfold takeCheck
  split
  · exact .refl s
  · exact (onHc_calm s _ (Heater.overcurrent_onlyOff _)).trans (heaterEvent_calm _)
  · split
    · exact onHc_calm s _ (Heater.beginDiagnosis_onlyOff _)
    · split
      · exact (onHc_calm s (fun h => { h.disable .openCircuit .e1 with diagnosis := false })
          (Heater.OnlyOff.diagnosis (Heater.disable_onlyOff _ _ _) false)).trans (heaterEvent_calm _)
      · exact (onHc_calm s _ (Heater.disable_onlyOff _ _ _)).trans (heaterEvent_calm _)
  · split
    · exact (onHc_calm s (fun h => { h.disable .openCircuit .e2 with diagnosis := false })
          (Heater.OnlyOff.diagnosis (Heater.disable_onlyOff _ _ _) false)).trans (heaterEvent_calm _)
    · exact .refl s

theorem idleLimit_calm (s : State) : Calm s (idleLimit s) := by
  unfold idleLimit
  split
  · exact onHc_calm s _ ⟨id, id⟩
  · exact onHc_calm s _ (Heater.openLeg_onlyOff _)

/-- An update of the heater that turns nothing on in LOCKED_OUT. -/
theorem Settled.onHc {s : State} (a : Settled s) (f : Heater → Heater)
    (h : s.sc.state = .lockedOut → s.hc.OnlyOff (f s.hc)) : Settled (s.onHc f) :=
  ⟨a.tens, a.station, a.charger, a.zero, a.reasons,
    fun hs => (h hs).none (a.heater hs).1 (a.heater hs).2, a.hold⟩

end Sys2Proof.Machine
end

