-- ==== Sys2Proof/Laws/Lockout.lean ====
section
/-! SUPPORT. Level FAULT stands only in LOCKED_OUT: no shared operation leaves LOCKED_OUT, and the one that sets level FAULT
enters it (R30, R97). -/

namespace Sys2Proof.Machine

set_option Elab.async false

/-- The level unchanged, and LOCKED_OUT not left. -/
structure Stays (s t : State) : Prop where
  level : t.im.level = s.im.level
  locked : s.sc.state = .lockedOut → t.sc.state = .lockedOut

theorem Stays.refl (s : State) : Stays s s := ⟨rfl, id⟩
theorem Stays.trans {s t u : State} (h : Stays s t) (h' : Stays t u) : Stays s u :=
  ⟨h'.level.trans h.level, fun x => h'.locked (h.locked x)⟩

/-- Level FAULT stands only in LOCKED_OUT. -/
def FaultLocks (s : State) : Prop := s.im.level = .fault → s.sc.state = .lockedOut

theorem FaultLocks.stays {s t : State} (h : FaultLocks s) (h' : Stays s t) : FaultLocks t := fun x =>
  h'.locked (h (h'.level ▸ x))

theorem Touches.stays {bs : List Block} {s t : State} (h : Touches bs s t) (h1 : bs.contains .sc = false := by rfl)
    (h2 : bs.contains .im = false := by rfl) : Stays s t := ⟨by rw [h.im_eq h2], by rw [h.sc_eq h1]; exact id⟩

/-- An update of the monitor that leaves the level. -/
theorem onIm_stays (s : State) (f : Insulation → Insulation) (h : (f s.im).level = s.im.level) : Stays s (s.onIm f) :=
  ⟨h, id⟩

theorem onSc_stays (s : State) (f : Session → Session) (h : (f s.sc).state = s.sc.state) : Stays s (s.onSc f) :=
  ⟨rfl, fun x => h.trans x⟩

/-- A change of state from a state other than LOCKED_OUT, or into it. -/
theorem setState_stays (x : SessionState) (s : State) (h : s.sc.state ≠ .lockedOut ∨ x = .lockedOut) :
    Stays s (setState x s) := by
  refine ⟨by rw [(setState_touches x s).im_eq], fun hs => ?_⟩
  rcases h with h | h
  · exact absurd hs h
  · rw [setState_sc]; exact h

theorem sessionEnd_stays (s : State) : Stays s (sessionEnd s) := by
  refine ⟨by rw [(sessionEnd_touches s).im_eq], fun hs => ?_⟩
  rw [sessionEnd_sc]
  simp [hs]

theorem answerClose_stays (s : State) : Stays s (answerClose s) := by
  unfold answerClose
  split
  · exact sessionEnd_stays s
  · exact (onSc_stays s _ rfl).trans (raiseAll_touches _ _).stays

theorem placeFinal_stays (s : State) : Stays s (placeFinal s) := by
  unfold placeFinal
  split
  · exact .refl s
  · split
    · exact ((placeRecord_touches _ s).stays.trans (onCt_touches _ _).stays).trans (sessionEnd_stays _)
    · exact .refl s

theorem billingGainsRoom_stays (s : State) : Stays s (billingGainsRoom s) :=
  (appendHeld_touches s).stays.trans (placeFinal_stays _)

theorem commandZeroReached_stays (s : State) : Stays s (commandZeroReached s) := by
  unfold commandZeroReached
  split
  · exact ((onSc_stays s _ rfl).trans (finalClose_touches _ _ _).stays).trans (answerClose_stays _)
  · exact .refl s

theorem enterClosing_stays (r : CloseReason) (s : State) (h : s.sc.state ≠ .lockedOut) : Stays s (enterClosing r s) :=
  ((onSc_stays s _ rfl).trans (setState_stays .closing _ (.inl (by exact h)))).trans (commandZeroReached_stays _)

theorem holdMove_stays (s : State) : Stays s (holdMove s) := by
  unfold holdMove
  split <;> (try split) <;>
    first
    | exact .refl s
    | (rename_i hs _; exact setState_stays _ s (.inl (by rw [hs]; simp)))

theorem sampleMove_stays (s : State) : Stays s (sampleMove s) := by
  unfold sampleMove
  split <;> first | exact .refl s | (next hs => exact setState_stays _ s (.inl (by rw [hs]; simp)))

theorem closeOnLoss_stays (s : State) (h : s.sc.state ≠ .lockedOut) : Stays s (closeOnLoss s) :=
  (onSc_stays s _ rfl).trans (enterClosing_stays _ _ h)

theorem plugTransition_stays (l : Plug) (s : State) : Stays s (plugTransition l s) := by
  unfold plugTransition
  split <;> split <;>
    first
    | exact .refl s
    | exact (setCommand_touches 0 s).stays
    | (next hs => exact setState_stays _ s (.inl (by rw [hs]; simp)))
    | (next hs => exact closeOnLoss_stays s (by rw [hs]; simp))

theorem scTake_stays (x : SampleSet) (s : State) : Stays s (scTake x s) := by
  have h1 : Stays s (s.onSc fun c => (c.debounce x.plug).takeSet x) := by
    apply onSc_stays
    have hd : (s.sc.debounce x.plug).state = s.sc.state := by unfold Session.debounce; split <;> (try split) <;> rfl
    unfold Session.takeSet
    split <;> exact hd
  unfold scTake
  dsimp only
  split
  · exact h1.trans (plugTransition_stays _ _)
  · exact h1.trans (sampleMove_stays _)

theorem seekVerdict_stays (v : Bool) (k : Class) (s : State) : Stays s (seekVerdict v k s) := by
  unfold seekVerdict
  split
  · next h => exact (onSc_stays s _ rfl).trans (setState_stays _ _ (.inl (by simp [h.1])))
  · exact .refl s

theorem enterLockout_level (r : LockoutReason) (s : State) : (enterLockout r s).im.level = s.im.level := by
  rw [(enterLockout_touches r s).im_eq]

/-- A change of level, with the lockout that level FAULT brings (R97). -/
theorem setLevel_faultLocks {s : State} (a : Settled s) (f : FaultLocks s) (l : Level) (x : Figures) :
    FaultLocks (setLevel l x s) := by
  unfold setLevel
  split
  · exact f
  · have h1 := ((a.calm (onIm_touches s fun m => { m with level := l, worse := .empty, better := .empty }).calm).calm
      (raiseAll_touches .insulation _).calm).calm (occur_touches .levelChanged _).calm
    have e1 : (occur .levelChanged (raiseAll .insulation
        (s.onIm fun m => { m with level := l, worse := .empty, better := .empty }))).im.level = l := by
      rw [(occur_touches _ _).im_eq, (raiseAll_touches _ _).im_eq]; rfl
    have h2 (k : FaultKind) (u : State) : (appendFault k x u).im.level = u.im.level := by
      unfold appendFault
      split
      · dsimp only
        split <;> rfl
      · show (stamped u).im.level = _
        rw [(stamped_touches u).im_eq]
    have key (u : State) (hu : Settled u) (hl : u.im.level = l) : FaultLocks (takeLevel l u) := by
      intro hf
      rw [(takeLevel_touches l u).im_eq, hl] at hf
      unfold takeLevel
      rw [if_pos hf]
      exact (hu.enterLockout _).2
    dsimp only
    split
    · exact key _ (h1.calm (appendFault_touches _ _ _).calm) (by rw [h2]; exact e1)
    · exact key _ h1 e1

/-- Both parts, as the level machine keeps them. -/
def Sound (s : State) : Prop := Settled s ∧ FaultLocks s

theorem Sound.calm {s t : State} (a : Sound s) (h : Calm s t) (h' : Stays s t) : Sound t := ⟨a.1.calm h, a.2.stays h'⟩

theorem Sound.touches {bs : List Block} {s t : State} (a : Sound s) (h : Touches bs s t)
    (h1 : bs.contains .sc = false := by rfl) (h2 : bs.contains .pc = false := by rfl)
    (h3 : bs.contains .hc = false := by rfl) (h4 : bs.contains .cfg = false := by rfl)
    (h5 : bs.contains .im = false := by rfl) : Sound t := a.calm (h.calm h1 h2 h3 h4) (h.stays h1 h5)

theorem Sound.onIm {s : State} (a : Sound s) (f : Insulation → Insulation) (h : (f s.im).level = s.im.level) :
    Sound (s.onIm f) := a.calm (onIm_touches s f).calm (onIm_stays s f h)

theorem Sound.setLevel {s : State} (a : Sound s) (l : Level) (x : Figures) : Sound (Machine.setLevel l x s) :=
  ⟨a.1.setLevel l x, setLevel_faultLocks a.1 a.2 l x⟩

theorem Sound.takeWorse {s : State} (a : Sound s) (k : Class) (x : Figures) (leg : Bool) :
    Sound (Machine.takeWorse k x leg s) := by
  unfold Machine.takeWorse
  dsimp only
  split
  · split
    · unfold beginLocalisation
      exact ((a.onIm _ rfl).onIm _ rfl).calm (localiseLeg_calm _) (localiseLeg_touches _).stays
    · exact (a.onIm _ rfl).setLevel _ _
  · exact a.onIm _ rfl

theorem Sound.takeBetter {s : State} (a : Sound s) (k : Class) (x : Figures) : Sound (Machine.takeBetter k x s) := by
  unfold Machine.takeBetter
  dsimp only
  split
  · exact (a.onIm _ rfl).setLevel _ _
  · exact a.onIm _ rfl

theorem Sound.takeClass {s : State} (a : Sound s) (k : Class) (x : Figures) (leg : Bool) :
    Sound (Machine.takeClass k x leg s) := by
  have he : Sound (emptyRuns s) := a.onIm _ rfl
  unfold Machine.takeClass
  split <;> (repeat' split) <;>
    first
    | exact he
    | exact a.takeWorse _ _ _
    | exact a.takeBetter _ _
    | exact a.setLevel _ _

theorem appendFault_level (k : FaultKind) (x : Figures) (s : State) : (appendFault k x s).im.level = s.im.level := by
  unfold appendFault
  split
  · dsimp only
    split <;> rfl
  · show (stamped s).im.level = _
    rw [(stamped_touches s).im_eq]

theorem Sound.takeLocalisation {s : State} (a : Sound s) (r : ResultRecord) : Sound (Machine.takeLocalisation r s) := by
  unfold Machine.takeLocalisation
  have h1 : Sound (s.onIm fun m => { m with locRecord := none }) := a.onIm _ rfl
  dsimp only
  split
  · have h2 := h1.calm (isolateLeg_calm _) (isolateLeg_touches _).stays
    have h3 := h2.calm (appendFault_touches .heaterLeg (s.im.locRecord.getD ⟨0, 0, 0⟩) _).calm
      ⟨appendFault_level _ _ _, by rw [(appendFault_touches _ _ _).sc_eq]; exact id⟩
    exact (h3.setLevel _ _).onIm _ rfl
  · exact (h1.calm (releaseLeg_calm _) (releaseLeg_touches _).stays).setLevel _ _

theorem Sound.applyResult {s : State} (a : Sound s) (r : ResultRecord) : Sound (Machine.applyResult r s) := by
  unfold Machine.applyResult
  split
  · exact a.takeLocalisation _
  · split
    · exact a.takeClass _ _ _
    · exact a

theorem Sound.resultEvent {s : State} (a : Sound s) (r : ResultRecord) : Sound (Machine.resultEvent r s) := by
  have h : Sound (Machine.applyResult r (keepResult r (offer .insulation (.result r) s))) :=
    ((a.touches (offer_touches _ _ s)).onIm _ rfl).applyResult r
  exact ⟨h.1.seekVerdict _ _, h.2.stays (seekVerdict_stays _ _ _)⟩

theorem endMeasurement_level (s : State) : (endMeasurement s).im.level = s.im.level := rfl

theorem Sound.endMeasurement {s : State} (a : Sound s) : Sound (Machine.endMeasurement s) :=
  a.calm (endMeasurement_touches s).calm ⟨rfl, id⟩

theorem Sound.endInvalid {s : State} (a : Sound s) (why : InvalidReason) (u : Nat) : Sound (Machine.endInvalid why u s) :=
  (a.endMeasurement.touches (stamped_touches _)).resultEvent _

theorem Sound.settleB {s : State} (a : Sound s) (x : ChassisSample) : Sound (Machine.settleB x s) :=
  (a.endMeasurement.touches (stamped_touches _)).resultEvent _

theorem Sound.startAttempt {s : State} (a : Sound s) : Sound (Machine.startAttempt s) :=
  a.calm (startAttempt_touches s).calm ⟨rfl, id⟩

theorem Sound.startMeasurement {s : State} (a : Sound s) (l : Bool) : Sound (Machine.startMeasurement l s) :=
  a.calm (startMeasurement_touches l s).calm ⟨rfl, id⟩

theorem Sound.requestMeasurement {s : State} (a : Sound s) : Sound (Machine.requestMeasurement s) := by
  unfold Machine.requestMeasurement
  split
  · exact a.startMeasurement _
  · exact a.onIm _ rfl

theorem Sound.priorityRequest {s : State} (a : Sound s) : Sound (Machine.priorityRequest s) := by
  unfold Machine.priorityRequest
  split
  · exact a.requestMeasurement
  · exact a

theorem Sound.runningBegins {s : State} (a : Sound s) : Sound (Machine.runningBegins s) := by
  unfold Machine.runningBegins
  dsimp only
  split
  · exact (a.onIm _ rfl).startMeasurement _
  · exact a.onIm _ rfl

theorem Sound.imTake {s : State} (a : Sound s) (x : SampleSet) : Sound (Machine.imTake x s) := by
  unfold Machine.imTake Machine.runningEnds
  dsimp only
  split
  · exact a.runningBegins
  · split
    · split
      · exact (a.onIm _ rfl).endInvalid _ _
      · exact a.onIm _ rfl
    · exact a

theorem Sound.takeChassis {s : State} (a : Sound s) (x : ChassisSample) : Sound (Machine.takeChassis x s) := by
  have hA : Sound (Machine.settleA x s) := a.calm (settleA_touches x s).calm ⟨rfl, id⟩
  unfold Machine.takeChassis
  dsimp only
  split <;> (repeat' split) <;>
    first
    | exact a
    | exact a.onIm _ rfl
    | exact hA
    | exact a.settleB _

theorem Sound.disturb {s : State} (a : Sound s) : Sound (Machine.disturb s) := by
  unfold Machine.disturb
  split
  · split
    · have h1 : Sound ((openSwitches s).onIm fun m => { m with abandoned := 1 }) :=
        (a.touches (openSwitches_touches s)).onIm _ rfl
      exact h1.startAttempt
    · exact a.endInvalid _ _
  · exact a

/-- The disturbance reports keep both invariants. -/
theorem Sound.takeReports {t : State} (a : Sound t) (s : State) : Sound (Machine.takeReports s t) := by
  unfold Machine.takeReports
  split
  · dsimp only
    split <;> split
    · exact a.disturb.disturb
    · exact a.disturb
    · exact a.disturb
    · exact a
  · exact a

theorem Sound.forcedStop {s : State} (a : Sound s) : Sound (Machine.forcedStop s) := by
  refine a.calm (forcedStop_calm s) ⟨?_, by rw [(forcedStop_touches s).sc_eq]; exact id⟩
  unfold Machine.forcedStop
  dsimp only
  split <;> rfl

/-! ## The power command and the heater -/

theorem enterLockout_stays (r : LockoutReason) (s : State) : Stays s (enterLockout r s) := by
  refine ⟨enterLockout_level r s, fun hs => ?_⟩
  unfold enterLockout
  rw [if_pos hs]
  unfold addLockoutReason
  split <;> exact hs

theorem takeDerate_stays (x : SampleSet) (s : State) : Stays s (takeDerate x s) := by
  unfold takeDerate
  have h1 (f : Power → Power) : Stays s (occur .derateChanged (raiseAll .derate (s.onPc f))) :=
    ((onPc_touches s f).stays.trans (raiseAll_touches _ _).stays).trans (occur_touches _ _).stays
  dsimp only
  split
  · exact .refl s
  · split
    · exact (h1 _).trans (enterLockout_stays _ _)
    · exact h1 _

theorem setCommand_recompute_stays (p v : Nat) (s : State) : Stays s (setCommand p (recompute v s)) :=
  (recompute_touches v s).stays.trans (setCommand_touches _ _).stays

theorem takeSetpoint_stays (x : SampleSet) (s : State) : Stays s (takeSetpoint x s) := by
  unfold takeSetpoint
  split <;>
    first
    | exact setCommand_recompute_stays _ _ s
    | exact (setCommand_recompute_stays _ _ s).trans (commandZeroReached_stays _)
    | exact (setCommand_touches 0 s).stays.trans (recompute_touches _ _).stays

theorem limitUpdate_stays (s : State) : Stays s (limitUpdate s) := by
  unfold limitUpdate
  dsimp only
  have h1 : Stays s (recomputeNow s) := (recomputeNow_touches s).stays
  split <;>
    first
    | exact h1
    | exact (h1.trans (setCommand_touches _ _).stays).trans (commandZeroReached_stays _)

theorem pcTake_stays (x : SampleSet) (s : State) : Stays s (pcTake x s) := by
  unfold pcTake takeExhaustion takeWindow
  exact (((takeDerate_stays x s).trans (onPc_touches _ _).stays).trans (onPc_touches _ _).stays).trans
    (takeSetpoint_stays x _)

/-- The update keeps both invariants. -/
theorem Sound.pcTake {s : State} (a : Sound s) (x : SampleSet) : Sound (Machine.pcTake x s) :=
  ⟨a.1.loose.pcTake x, a.2.stays (pcTake_stays x s)⟩

/-- The heater controller's taking of a set keeps both invariants. -/
theorem Sound.hcTake {s : State} (a : Sound s) (x : SampleSet) : Sound (Machine.hcTake x s) := by
  unfold Machine.hcTake
  have h1 : Sound (s.onHc (Heater.takeSet s.cfg x)) := by
    refine a.calm (onHc_calm s _ ?_) (onHc_touches _ _).stays
    have h0 : s.hc.OnlyOff { s.hc with
        e1 := s.hc.e1.rate x.vBus s.cfg.resE1, e2 := s.hc.e2.rate x.vBus s.cfg.resE2 } := ⟨id, id⟩
    exact (h0.trans (Heater.takeTemp_onlyOff _ _ _)).trans (Heater.takeTemp_onlyOff _ _ _)
  have h2 := h1.calm (evalThermostat_calm x.tPack _) (evalThermostat_touches _ _).stays
  set u := evalThermostat x.tPack (s.onHc (Heater.takeSet s.cfg x)) with hu
  have h3 : Sound (u.onHc (Heater.fit u.pc.aH)) :=
    h2.calm (onHc_calm u _ (Heater.fit_onlyOff _ _)) (onHc_touches _ _).stays
  have h4 := h3.calm (takeCheck_calm x.vBus x.iHeat _) (takeCheck_touches _ _ _).stays
  set w := takeCheck x.vBus x.iHeat (u.onHc (Heater.fit u.pc.aH)) with hw
  refine ⟨h4.1.onHc _ fun hs => ?_, h4.2.stays (onHc_touches _ _).stays⟩
  refine (Heater.applySelection_barred _ _ _ ?_).trans (Heater.startConnection_onlyOff _ _)
  exact decide_eq_true hs

end Sys2Proof.Machine
end

