-- ==== Sys2Proof/Laws/Commands.lean ====
section
/-! SUPPORT. The shape of every command: how a property passes through an event, the end of a timer, a taking and a request,
and the frames of the commands' own operations. -/

namespace Sys2Proof.Machine

set_option Elab.async false

/-- A property that notices, the passing of time and the disturbance reports keep. -/
structure Kept (P : State → Prop) : Prop where
  ports : ∀ s t, Touches [.ports, .free] s t → P s → P t
  elapse : ∀ dt s, P s → P (elapse dt s)
  reports : ∀ s t, P t → P (takeReports s t)

/-- An event keeps a property that its own work keeps. -/
theorem Kept.event {P : State → Prop} (k : Kept P) (f : State → State) (s : State) (hs : P s) (h : P s → P (f s)) :
    P (event f s) := by
  unfold Machine.event
  split
  · exact hs
  · exact k.reports s _ (h hs)

/-- The end of a timer keeps a property that its event keeps. -/
theorem Kept.atEnd {P : State → Prop} (k : Kept P) (left : Option Nat) (f : State → State) (s : State) (hs : P s)
    (h : ∀ dt, left = some dt → P (Machine.elapse dt s) → P (f (Machine.elapse dt s))) : P (atEnd left f s) := by
  unfold Machine.atEnd
  split
  · exact hs
  · split
    · exact hs
    · exact k.event f _ (k.elapse _ s hs) (h _ rfl)

/-- A taking of a sample set keeps a property that its event keeps. -/
theorem Kept.taking {P : State → Prop} (k : Kept P) (due : Bool) (f : SampleSet → State → State) (s : State) (hs : P s)
    (h : ∀ x, P s → P (f x s)) : P (taking due f s) := by
  unfold Machine.taking
  split
  · exact hs
  · split
    · exact k.event _ s hs (h _)
    · exact hs

/-- What a request finds differs in the port unit only. -/
theorem found_touches (p : Port) (s : State) : Touches [.ports] s (overrun p (newExchange p s)) := by
  unfold overrun
  split
  · exact onPort_touches _ _ _
  · exact ((onPort_touches s _ _).trans (onPort_touches _ _ _)).trans (recordError_touches _ _ _)

/-- A refusal by the port unit draws at most one free value. -/
theorem refuseTaken_touches (k : Kind) (x : Status) (s : State) : Touches [.free] s (refuseTaken k x s).state := by
  unfold refuseTaken
  split
  · exact draw_touches s
  · exact .refl _ _

/-- A request keeps a property that the owning block's answer keeps. -/
theorem Kept.request {P : State → Prop} (k : Kept P) (p : Port) (n : Kind) (b : List Byte) (act : State → Answer)
    (s : State) (hs : P s) (h : ∀ u, Touches [.ports] s u → P u → P (act u).state) : P (request p n b act s) := by
  unfold Machine.request
  split
  · exact hs
  · have h0 : P (overrun p (newExchange p s)) := k.ports _ _ (found_touches p s).mono hs
    have h1 : P (answer p n b act (overrun p (newExchange p s))).state := by
      unfold answer
      split
      · exact k.ports _ _ (refuseTaken_touches n _ _).mono h0
      · split
        · exact k.ports _ _ (refuseTaken_touches n _ _).mono h0
        · exact h _ (found_touches p s) h0
    exact k.ports _ _ (onPort_touches _ _ _).mono (k.reports _ _ h1)

/-! ## Frames of the commands' operations -/

/-- The blocks the passing of time reaches. -/
def timeBlocks : List Block := [.fe, .sc, .pc, .hc, .im, .ea, .ct, .se]

theorem Touches.ite {c : Prop} [Decidable c] {bs : List Block} {s t u : State} (h : Touches bs s t)
    (h' : Touches bs s u) : Touches bs s (if c then t else u) := by
  split
  · exact h
  · exact h'

theorem elapse_touches (dt : Nat) (s : State) : Touches timeBlocks s (elapse dt s) := by
  intro b hb
  unfold elapse
  dsimp only
  split <;> cases b <;> first | rfl | simp [timeBlocks] at hb

theorem countSecond_touches (s : State) : Touches [.ct, .im, .se] s (countSecond s) := by
  unfold countSecond
  have h1 (f : ClockTariff → ClockTariff) : Touches [.ct, .im, .se] s (s.onCt f) := (onCt_touches s f).mono
  dsimp only
  exact Touches.ite (h1 _) (((h1 _).step (onIm_touches _ _)).step (onSe_touches _ _))

theorem closeAtTick_touches (s : State) : Touches billingBlocks s (closeAtTick s) := by
  unfold closeAtTick
  dsimp only
  split <;> split <;>
    first
    | exact (tickClose_touches _ _ s).step (lookUpPrice_touches _)
    | exact tickClose_touches _ _ s
    | exact (lookUpPrice_touches s).mono
    | exact .refl _ s

theorem countPeriodic_touches (s : State) : Touches signals s (countPeriodic s) := by
  unfold countPeriodic
  split
  · exact ((onSe_touches s _).mono).step (occur_touches _ _)
  · exact (onSe_touches s _).mono

theorem tick_touches (s : State) : Touches (.im :: billingBlocks) s (tick s) := by
  unfold tick
  have h1 := (countSecond_touches s).mono (cs := .im :: billingBlocks)
  dsimp only
  split
  · exact h1
  · exact (h1.step (closeAtTick_touches _)).step (countPeriodic_touches _)

theorem setTime_touches (d n : Nat) (s : State) : Touches billingBlocks s (setTime d n s) := by
  unfold setTime
  split
  · exact ((onCt_touches s _).mono).step (lookUpPrice_touches _)
  · split
    · exact ((realClose_touches _ _ _ s).step (onCt_touches _ _)).step (openInterval_touches _ _)
    · exact (((mergedClose_touches _ s).mono).step (onCt_touches _ _)).step (lookUpPrice_touches _)

theorem loadTable_touches (k : Payer) (t : List Period) (s : State) : Touches (.ct :: signals) s (loadTable k t s) := by
  unfold loadTable
  have h1 (f : ClockTariff → ClockTariff) : Touches (.ct :: signals) s (s.onCt f) := (onCt_touches s f).mono
  dsimp only
  split
  · exact h1 _
  · exact (h1 _).step (applyStaged_touches _ _)

theorem comeUp_touches (src : Fin 12) (m : Member) (ch : List Nat) (l : List Nat) (s : State) :
    Touches [.se, .free] s (comeUp src m ch l s) := by
  induction l with
  | nil => exact (onSe_touches s _).mono
  | cons i rest ih =>
    unfold comeUp
    split
    · exact ih
    · unfold beginComposition
      dsimp only
      split
      · exact ((draw_touches s).mono).step (onSe_touches _ _)
      · exact (onSe_touches s _).mono

theorem select_touches (s : State) : Touches [.se, .free] s (select s) := by
  unfold select
  split
  · split
    · exact .refl _ s
    · exact ((onSe_touches s _).mono).step (comeUp_touches _ _ _ _ _)
  · exact .refl _ s

theorem countUse_touches (src : Fin 12) (i : Nat) (s : State) : Touches [.se, .ports] s (countUse src i s) := by
  unfold countUse
  have h1 (f : SnapshotEngine → SnapshotEngine) : Touches [.se, .ports] s (s.onSe f) := (onSe_touches s f).mono
  dsimp only
  split
  · exact h1 _
  · split
    · split
      · exact (h1 _).step (raiseAll_touches _ _)
      · exact h1 _
    · exact ((h1 _).step (onSe_touches _ _)).step (raiseAll_touches _ _)

theorem complete_touches (s : State) : Touches [.rs, .ports, .se, .free] s (complete s) := by
  unfold complete
  split
  · exact .refl _ s
  · exact ((((offer_touches _ _ s).mono).step (countUse_touches _ _ _)).step (onSe_touches _ _)).step
      (comeUp_touches _ _ _ _ _)

theorem joinStream_touches (st : Stream) (i : Nat) (a : Area) (q : Port) (s : State) :
    Touches (.rs :: moveBlocks) s (joinStream st i a q s) := by
  unfold joinStream
  have h1 (f : Store → Store) : Touches (.rs :: moveBlocks) s (refreshStream (s.onRs f)) :=
    ((onRs_touches s f).mono).step (refreshStream_touches _)
  dsimp only
  split
  · exact (h1 _).step (billingGainsRoom_touches _)
  · exact h1 _

theorem unjoinStream_touches (st : Stream) (j : Join) (s : State) : Touches [.rs, .ports] s (unjoinStream st j s) :=
  ((onRs_touches s _).mono).step (refreshStream_touches _)

theorem ackStream_touches (n : Nat) (st : Stream) (j : Join) (s : State) :
    Touches (.rs :: moveBlocks) s (ackStream n st j s).state := by
  unfold ackStream
  dsimp only
  split
  · exact ((takeOldest_touches _ _ _ s).mono).step (billingGainsRoom_touches _)
  · exact (takeOldest_touches _ _ _ s).mono

theorem limitUpdate_touches (s : State) : Touches closeBlocks s (limitUpdate s) := by
  unfold limitUpdate
  have h1 : Touches closeBlocks s (recomputeNow s) := (recomputeNow_touches s).mono
  dsimp only
  split <;> first | exact h1 | exact (h1.step (setCommand_touches _ _)).step (commandZeroReached_touches _)

theorem idleChanged_touches (s : State) : Touches [.hc] s (idleChanged s) := by
  unfold idleChanged
  split
  · exact idleLimit_touches s
  · exact onHc_touches s _

theorem itemEffect_touches (k : Item) (c : Bool) (s : State) : Touches closeBlocks s (itemEffect k c s) := by
  unfold itemEffect
  cases k <;> dsimp only <;> (try split) <;>
    first
    | exact .refl _ s
    | exact limitUpdate_touches s
    | exact (idleChanged_touches s).mono
    | exact (onEa_touches s _).mono
    | exact (onSe_touches s _).mono
    | exact (refreshStream_touches s).mono

/-- An answer of the consumer requests, stream by stream (R157). -/
theorem consume_keeps {P : State → Prop} (p : Port) (n : Nat) (act : Stream → Join → State → Answer) (s : State) (hs : P s)
    (hp : ∀ t, Touches [.ports] s t → P t) (h : ∀ st j, (s.rs.stream st).join = some j → P (act st j s).state) :
    P (consume p n act s).state := by
  unfold consume
  split
  · exact hs
  · split
    · exact hp _ ((onPort_touches s _ _).trans (raiseAt_touches _ _ _))
    · next j hj =>
      split
      · exact h _ _ hj
      · exact hs

end Sys2Proof.Machine
end

