-- ==== Sys2Proof/Laws/Quiet.lean ====
section
/-! SUPPORT. Every shared operation of the session controller, the insulation monitor, the record store and the notices leaves
the background alone (Safety.lean). -/

namespace Sys2Proof.Machine

set_option Elab.async false

theorem Quiet.refl (s : State) : Quiet s s := rfl
theorem Quiet.trans {s t u : State} (h : Quiet s t) (h' : Quiet t u) : Quiet s u := Eq.trans h' h

/-! ## Notices, stamps, occurrences -/

theorem raiseAll_quiet (n : Notice) (s : State) : Quiet s (raiseAll n s) := rfl

theorem draw_quiet (s : State) : Quiet s s.draw := rfl

theorem stamped_quiet (s : State) : Quiet s (stamped s) := by
  unfold stamped
  split
  · exact .refl s
  · exact draw_quiet s

/-- An update of the pending set and the missed counts. -/
theorem onSe_quiet (s : State) (f : SnapshotEngine → SnapshotEngine)
    (h : { f s.se with waiting := Vector.replicate 12 none, missed := Vector.replicate 12 0 } =
      { s.se with waiting := Vector.replicate 12 none, missed := Vector.replicate 12 0 }) : Quiet s (s.onSe f) := by
  unfold Quiet background
  dsimp only [State.onSe]
  rw [h]

theorem occurFrom_quiet (p : Option Port) (src : Source) (s : State) : Quiet s (occurFrom p src s) := by
  unfold occurFrom
  split
  · exact .refl s
  · exact (stamped_quiet s).trans (onSe_quiet _ _ rfl)
  · exact (onSe_quiet s _ rfl).trans (raiseAll_quiet _ _)

theorem occur_quiet (src : Source) (s : State) : Quiet s (occur src s) := occurFrom_quiet none src s

theorem writeFlags_quiet (s : State) (f g h : BitVec 12 → BitVec 12) :
    Quiet s (s.onPorts fun u =>
      { v := { u.v with flags := f u.v.flags }, c := { u.c with flags := g u.c.flags }
        t := { u.t with flags := h u.t.flags } }) := rfl

theorem refreshStream_quiet (s : State) : Quiet s (refreshStream s) := by
  unfold refreshStream
  exact writeFlags_quiet s (writeFlag .stream (streamCondition .v s)) (writeFlag .stream (streamCondition .c s))
    (writeFlag .stream (streamCondition .t s))

/-! ## The record store -/

/-- The store without its queues, slots and counts. -/
def Store.background (r : Store) : Store :=
  { slots := []
    areas := r.areas
    billing := r.billing.background
    insulation := r.insulation.background
    events := r.events.background
    readings := r.readings.background }

theorem onRs_quiet (s : State) (f : Store → Store) (h : (f s.rs).background = s.rs.background) : Quiet s (s.onRs f) := by
  have : background (s.onRs f) = { background s with rs := (f s.rs).background } := rfl
  unfold Quiet
  rw [this, h]
  rfl

/-- A stream whose join keeps its area and port. -/
theorem putStream_background (r : Store) (st : Stream) (x : StreamState) (m : List (Nat × Record))
    (h : x.background = (r.stream st).background) :
    ({ r.putStream st x with slots := m } : Store).background = r.background := by
  cases st <;> simp only [Store.background, Store.putStream, Store.stream] at * <;> rw [h]

theorem dropRecord_quiet (st : Stream) (s : State) : Quiet s (dropRecord st s) :=
  onRs_quiet s _ (putStream_background s.rs st _ s.rs.slots rfl |>.symm ▸ by
    cases st <;> rfl)

theorem appendRecord_quiet (st : Stream) (r : Record) (j : Join) (s : State) (h : (s.rs.stream st).join = some j) :
    Quiet s (appendRecord st r j s) :=
  (onRs_quiet s _ (by
    refine putStream_background _ _ _ _ ?_
    simp [StreamState.background, h])).trans (refreshStream_quiet _)

theorem offer_quiet (st : Stream) (r : Record) (s : State) : Quiet s (offer st r s) := by
  unfold offer
  split
  · unfold offerUnjoined
    cases st
    · exact .refl s
    all_goals exact dropRecord_quiet _ s
  · next j hj =>
    split
    · exact appendRecord_quiet _ _ _ _ hj
    · unfold offerFull
      cases st
      · exact .refl s
      · exact dropRecord_quiet _ s
      · exact dropRecord_quiet _ s
      · refine onRs_quiet s _ (putStream_background _ _ _ _ ?_)
        simp [StreamState.background, hj]

theorem takeOldest_quiet (st : Stream) (j : Join) (n : Nat) (s : State) (h : (s.rs.stream st).join = some j) :
    Quiet s (takeOldest st j n s) :=
  (onRs_quiet s _ (by
    refine putStream_background _ _ _ _ ?_
    simp [StreamState.background, h])).trans (refreshStream_quiet _)

/-! ## Clock and tariffs -/

theorem onCt_quiet (s : State) (f : ClockTariff → ClockTariff)
    (h : { f s.ct with station := ⟨none, none, 0⟩, fleet := ⟨none, none, 0⟩, interval := none, reported := 0, held := none
                       finalRecord := none } =
      { s.ct with station := ⟨none, none, 0⟩, fleet := ⟨none, none, 0⟩, interval := none, reported := 0, held := none
                  finalRecord := none }) : Quiet s (s.onCt f) := by
  unfold Quiet background
  dsimp only [State.onCt]
  rw [h]

theorem applyStaged_quiet (k : Payer) (s : State) : Quiet s (applyStaged k s) := by
  unfold applyStaged
  split
  · exact .refl s
  · refine ((onCt_quiet s _ ?_).trans (raiseAll_quiet _ _)).trans (occur_quiet _ _)
    cases k <;> rfl

theorem placeRecord_quiet (r : BillingRecord) (s : State) : Quiet s (placeRecord r s) := by
  unfold placeRecord
  split
  · exact offer_quiet _ _ s
  · split
    · exact (onCt_quiet s _ rfl).trans (raiseAll_quiet _ _)
    · exact .refl s

theorem appendHeld_quiet (s : State) : Quiet s (appendHeld s) := by
  unfold appendHeld
  split
  · exact .refl s
  · split
    · exact (offer_quiet _ _ s).trans (onCt_quiet _ _ rfl)
    · exact .refl s

theorem realClose_quiet (r : BillingReason) (l : Bool) (i : Interval) (s : State) : Quiet s (realClose r l i s) := by
  unfold realClose
  have h1 : Quiet s (s.onCt fun c => { c with reported := roundedCost c.cost }) := onCt_quiet s _ rfl
  dsimp only
  split
  · exact ((h1.trans (placeRecord_quiet _ _)).trans (occur_quiet _ _)).trans (applyStaged_quiet _ _)
  · exact (((h1.trans (onCt_quiet _ _ rfl)).trans (raiseAll_quiet _ _)).trans (occur_quiet _ _)).trans
      (applyStaged_quiet _ _)

theorem mergedClose_quiet (i : Interval) (s : State) : Quiet s (mergedClose i s) :=
  (onCt_quiet s _ rfl).trans (raiseAll_quiet _ _)

theorem finalClose_quiet (r : BillingReason) (l : Bool) (s : State) : Quiet s (finalClose r l s) := by
  unfold finalClose
  have h1 : Quiet s (s.onEa fun a => { a with accruing := false }) := rfl
  dsimp only
  split
  · exact h1
  · exact (h1.trans (realClose_quiet _ _ _ _)).trans (onCt_quiet _ _ rfl)

theorem markFinal_quiet (f : BillingRecord → BillingRecord) (s : State) : Quiet s (markFinal f s) := onCt_quiet s _ rfl

/-! ## Heater -/

theorem onHc_quiet (s : State) (f : Heater → Heater) (h : (f s.hc).background = s.hc.background) : Quiet s (s.onHc f) := by
  have : background (s.onHc f) = { background s with hc := (f s.hc).background } := rfl
  unfold Quiet
  rw [this, h]
  rfl

theorem Heater.turnOff_background (l : ElemState) (k : ElemId) (h : Heater) :
    (h.turnOff l k).background = h.background := by
  unfold turnOff
  split
  · cases k <;> rfl
  · rfl

theorem Heater.allOff_background (h : Heater) : h.allOff.background = h.background := by
  unfold allOff
  rw [turnOff_background, turnOff_background]

theorem Heater.openLeg_background (h : Heater) : h.openLeg.background = h.background := by
  unfold openLeg
  split
  · exact h.allOff_background
  · rfl

theorem Heater.fit_background (a : Nat) (h : Heater) : (h.fit a).background = h.background := by
  unfold fit
  split
  · rfl
  · split
    · dsimp only
      split <;> split <;> simp only [turnOff_background]
    · exact h.allOff_background

theorem heaterLockout_quiet (s : State) : Quiet s (heaterLockout s) := by
  refine onHc_quiet s _ ?_
  show (s.hc.allOff.openLeg).background = _
  rw [Heater.openLeg_background, Heater.allOff_background]

theorem localiseLeg_quiet (s : State) : Quiet s (localiseLeg s) := by
  refine onHc_quiet s _ ?_
  show (s.hc.allOff.openLeg).background = _
  rw [Heater.openLeg_background, Heater.allOff_background]

theorem heaterEvent_quiet (s : State) : Quiet s (heaterEvent s) := (raiseAll_quiet _ s).trans (occur_quiet _ _)
theorem releaseLeg_quiet (s : State) : Quiet s (releaseLeg s) := onHc_quiet s _ rfl
theorem isolateLeg_quiet (s : State) : Quiet s (isolateLeg s) := (onHc_quiet s _ rfl).trans (heaterEvent_quiet _)

/-! ## Power command and session controller -/

theorem setCommand_quiet (p : Nat) (s : State) : Quiet s (setCommand p s) := rfl

/-- An update of the command and its limits. -/
theorem onPc_quiet (s : State) (f : Power → Power)
    (h : { f s.pc with pCmd := 0, aH := 0, lStation := 0, lObc := 0, bReq := 0 } =
      { s.pc with pCmd := 0, aH := 0, lStation := 0, lObc := 0, bReq := 0 }) : Quiet s (s.onPc f) := by
  unfold Quiet background
  dsimp only [State.onPc]
  rw [h]

theorem recompute_quiet (v : Nat) (s : State) : Quiet s (recompute v s) := by
  unfold recompute
  dsimp only
  split
  · rfl
  · exact (onPc_quiet s _ rfl).trans (onHc_quiet _ _ (Heater.fit_background _ _))

theorem recomputeNow_quiet (s : State) : Quiet s (recomputeNow s) := recompute_quiet _ s

theorem stateChangeCommand_quiet (s : State) : Quiet s (stateChangeCommand s) := by
  unfold stateChangeCommand
  split
  · exact recomputeNow_quiet s
  · exact (setCommand_quiet 0 s).trans (recomputeNow_quiet _)

/-- An update of the session controller outside the background. -/
theorem onSc_quiet (s : State) (f : Session → Session) (h1 : (f s.sc).plug = s.sc.plug)
    (h2 : (f s.sc).plugCount = s.sc.plugCount)
    (h3 : { (f s.sc).record with pause := false, closeReason := CloseReason.noReason } =
      { s.sc.record with pause := false, closeReason := CloseReason.noReason })
    (h4 : (f s.sc).limits = s.sc.limits) (h5 : (f s.sc).validity = s.sc.validity)
    (h6 : (f s.sc).lossNow = s.sc.lossNow := by first | rfl | (dsimp only; split <;> rfl)) : Quiet s (s.onSc f) := by
  unfold Quiet background
  dsimp only [State.onSc]
  rw [h1, h2, h3, h4, h5, h6]

theorem setState_quiet (x : SessionState) (s : State) : Quiet s (setState x s) := by
  unfold setState
  split
  · exact .refl s
  · have h1 : Quiet s
        (stateChangeCommand (occur .stateChanged (raiseAll .session (s.onSc fun c => { c with state := x })))) :=
      (((onSc_quiet s _ rfl rfl rfl rfl rfl).trans (raiseAll_quiet _ _)).trans (occur_quiet _ _)).trans
        (stateChangeCommand_quiet _)
    dsimp only
    split
    · exact h1.trans (applyStaged_quiet _ _)
    · exact h1

theorem sessionEnd_quiet (s : State) : Quiet s (sessionEnd s) := by
  have h1 (u : State) : Quiet u (occur .sessionClosed (raiseAll .session (u.onSc fun c =>
      { c with hold := .empty, gate := false, commandZero := false, finalPending := false
               record := { c.record with pause := false } }))) :=
    ((onSc_quiet u _ rfl rfl rfl rfl rfl).trans (raiseAll_quiet _ _)).trans (occur_quiet _ _)
  unfold sessionEnd
  dsimp only
  split
  · exact (setState_quiet _ s).trans (h1 _)
  · exact h1 s

theorem answerClose_quiet (s : State) : Quiet s (answerClose s) := by
  unfold answerClose
  split
  · exact sessionEnd_quiet s
  · exact (onSc_quiet s _ rfl rfl rfl rfl rfl).trans (raiseAll_quiet _ _)

theorem placeFinal_quiet (s : State) : Quiet s (placeFinal s) := by
  unfold placeFinal
  split
  · exact .refl s
  · split
    · exact ((placeRecord_quiet _ s).trans (onCt_quiet _ _ rfl)).trans (sessionEnd_quiet _)
    · exact .refl s

theorem billingGainsRoom_quiet (s : State) : Quiet s (billingGainsRoom s) :=
  (appendHeld_quiet s).trans (placeFinal_quiet _)

theorem commandZeroReached_quiet (s : State) : Quiet s (commandZeroReached s) := by
  unfold commandZeroReached
  split
  · exact ((onSc_quiet s _ rfl rfl rfl rfl rfl).trans (finalClose_quiet _ _ _)).trans (answerClose_quiet _)
  · exact .refl s

theorem enterClosing_quiet (r : CloseReason) (s : State) : Quiet s (enterClosing r s) :=
  ((onSc_quiet s _ rfl rfl rfl rfl rfl).trans (setState_quiet _ _)).trans (commandZeroReached_quiet _)

theorem holdMove_quiet (s : State) : Quiet s (holdMove s) := by
  unfold holdMove
  split <;> (try split) <;> first | exact .refl s | exact setState_quiet _ s

theorem sampleMove_quiet (s : State) : Quiet s (sampleMove s) := by
  unfold sampleMove
  split <;> first | exact .refl s | exact setState_quiet _ s

theorem closeOnLoss_quiet (s : State) : Quiet (s.onSc fun c => { c with lossNow := true }) (closeOnLoss s) :=
  enterClosing_quiet _ _

/-- A plug transition leaves the background, but for the mark of a loss of this instant. -/
theorem plugTransition_quiet (l : Plug) (s : State) :
    ∃ b, Quiet (s.onSc fun c => { c with lossNow := b }) (plugTransition l s) := by
  unfold plugTransition
  split <;> split <;>
    first
    | exact ⟨s.sc.lossNow, .refl s⟩
    | exact ⟨s.sc.lossNow, setState_quiet _ s⟩
    | exact ⟨true, closeOnLoss_quiet s⟩

theorem enterLockout_quiet (r : LockoutReason) (s : State) : Quiet s (enterLockout r s) := by
  unfold enterLockout
  have h0 : Quiet s (s.onSc (Session.lockOut r)) := by
    refine onSc_quiet s _ rfl rfl ?_ rfl rfl
    unfold Session.lockOut
    dsimp only
    split <;> rfl
  split
  · unfold addLockoutReason
    split
    · exact .refl s
    · exact (onSc_quiet s _ rfl rfl rfl rfl rfl).trans (raiseAll_quiet _ _)
  · dsimp only
    split
    · exact ((((h0.trans (onSc_quiet _ _ rfl rfl rfl rfl rfl)).trans (finalClose_quiet _ _ _)).trans
        (setState_quiet _ _)).trans (heaterLockout_quiet _)).trans (answerClose_quiet _)
    · exact ((h0.trans (markFinal_quiet _ _)).trans (setState_quiet _ _)).trans (heaterLockout_quiet _)

theorem takeLevel_quiet (l : Level) (s : State) : Quiet s (takeLevel l s) := by
  unfold takeLevel
  split
  · exact enterLockout_quiet _ s
  · refine Quiet.trans (onSc_quiet s _ ?_ ?_ ?_ ?_ ?_) (holdMove_quiet _) <;> split <;> rfl

theorem seekVerdict_quiet (v : Bool) (k : Class) (s : State) : Quiet s (seekVerdict v k s) := by
  unfold seekVerdict
  split
  · exact (onSc_quiet s _ rfl rfl rfl rfl rfl).trans (setState_quiet _ _)
  · exact .refl s

/-! ## Insulation monitor -/

theorem onIm_quiet (s : State) (f : Insulation → Insulation) (h1 : (f s.im).runRequested = s.im.runRequested)
    (h2 : (f s.im).running = s.im.running) (h3 : (f s.im).uptime = s.im.uptime) : Quiet s (s.onIm f) := by
  unfold Quiet background
  dsimp only [State.onIm]
  rw [h1, h2, h3]

theorem setSwitches_quiet (a b : Bool) (s : State) : Quiet s (s.onFe (FrontEnd.setSwitches a b)) := by
  unfold Quiet background FrontEnd.setSwitches
  dsimp only [State.onFe]
  split <;> rfl

theorem openSwitches_quiet (s : State) : Quiet s (openSwitches s) := setSwitches_quiet _ _ s

theorem startAttempt_quiet (s : State) : Quiet s (startAttempt s) :=
  (setSwitches_quiet _ _ s).trans (onIm_quiet _ _ rfl rfl rfl)

theorem startMeasurement_quiet (l : Bool) (s : State) : Quiet s (startMeasurement l s) :=
  (onIm_quiet s _ rfl rfl rfl).trans (startAttempt_quiet _)

theorem requestMeasurement_quiet (s : State) : Quiet s (requestMeasurement s) := by
  unfold requestMeasurement
  split
  · exact startMeasurement_quiet _ s
  · exact onIm_quiet s _ rfl rfl rfl

theorem priorityRequest_quiet (s : State) : Quiet s (priorityRequest s) := by
  unfold priorityRequest
  split
  · exact requestMeasurement_quiet s
  · exact .refl s

theorem endMeasurement_quiet (s : State) : Quiet s (endMeasurement s) :=
  (openSwitches_quiet s).trans (onIm_quiet _ _ rfl rfl rfl)

theorem appendFault_quiet (k : FaultKind) (x : Figures) (s : State) : Quiet s (appendFault k x s) := by
  unfold appendFault
  split
  · dsimp only
    split
    · exact onIm_quiet s _ rfl rfl rfl
    · exact (onIm_quiet s _ rfl rfl rfl).trans (raiseAll_quiet _ _)
  · exact ((stamped_quiet s).trans (onIm_quiet _ _ rfl rfl rfl)).trans (raiseAll_quiet _ _)

theorem setLevel_quiet (l : Level) (x : Figures) (s : State) : Quiet s (setLevel l x s) := by
  unfold setLevel
  split
  · exact .refl s
  · have h1 : Quiet s (occur .levelChanged (raiseAll .insulation
        (s.onIm fun m => { m with level := l, worse := .empty, better := .empty }))) :=
      ((onIm_quiet s _ rfl rfl rfl).trans (raiseAll_quiet _ _)).trans (occur_quiet _ _)
    dsimp only
    split
    · exact (h1.trans (appendFault_quiet _ _ _)).trans (takeLevel_quiet _ _)
    · exact h1.trans (takeLevel_quiet _ _)

theorem takeWorse_quiet (k : Class) (x : Figures) (leg : Bool) (s : State) : Quiet s (takeWorse k x leg s) := by
  unfold takeWorse
  dsimp only
  split
  · split
    · exact ((onIm_quiet s _ rfl rfl rfl).trans (onIm_quiet _ _ rfl rfl rfl)).trans (localiseLeg_quiet _)
    · exact (onIm_quiet s _ rfl rfl rfl).trans (setLevel_quiet _ _ _)
  · exact onIm_quiet s _ rfl rfl rfl

theorem takeBetter_quiet (k : Class) (x : Figures) (s : State) : Quiet s (takeBetter k x s) := by
  unfold takeBetter
  dsimp only
  split
  · exact (onIm_quiet s _ rfl rfl rfl).trans (setLevel_quiet _ _ _)
  · exact onIm_quiet s _ rfl rfl rfl

theorem takeClass_quiet (k : Class) (x : Figures) (leg : Bool) (s : State) : Quiet s (takeClass k x leg s) := by
  have he : Quiet s (emptyRuns s) := onIm_quiet s _ rfl rfl rfl
  unfold takeClass
  split <;> (repeat' split) <;>
    first
    | exact he
    | exact takeWorse_quiet _ _ _ s
    | exact takeBetter_quiet _ _ s
    | exact setLevel_quiet _ _ s

theorem takeLocalisation_quiet (r : ResultRecord) (s : State) : Quiet s (takeLocalisation r s) := by
  unfold takeLocalisation
  have h1 : Quiet s (s.onIm fun m => { m with locRecord := none }) := onIm_quiet s _ rfl rfl rfl
  dsimp only
  split
  · exact (((h1.trans (isolateLeg_quiet _)).trans (appendFault_quiet _ _ _)).trans (setLevel_quiet _ _ _)).trans
      (onIm_quiet _ _ rfl rfl rfl)
  · exact (h1.trans (releaseLeg_quiet _)).trans (setLevel_quiet _ _ _)

theorem keepResult_quiet (r : ResultRecord) (s : State) : Quiet s (keepResult r s) := by
  apply onIm_quiet <;> rfl

theorem applyResult_quiet (r : ResultRecord) (s : State) : Quiet s (applyResult r s) := by
  unfold applyResult
  split
  · exact takeLocalisation_quiet _ s
  · split
    · exact takeClass_quiet _ _ _ s
    · exact .refl s

theorem resultEvent_quiet (r : ResultRecord) (s : State) : Quiet s (resultEvent r s) :=
  (((offer_quiet _ _ s).trans (keepResult_quiet r _)).trans (applyResult_quiet r _)).trans (seekVerdict_quiet _ _ _)

theorem endInvalid_quiet (why : InvalidReason) (u : Nat) (s : State) : Quiet s (endInvalid why u s) :=
  ((endMeasurement_quiet s).trans (stamped_quiet _)).trans (resultEvent_quiet _ _)

theorem settleB_quiet (x : ChassisSample) (s : State) : Quiet s (settleB x s) :=
  ((endMeasurement_quiet s).trans (stamped_quiet _)).trans (resultEvent_quiet _ _)

theorem settleA_quiet (x : ChassisSample) (s : State) : Quiet s (settleA x s) :=
  (setSwitches_quiet _ _ s).trans (onIm_quiet _ _ rfl rfl rfl)

theorem takeChassis_quiet (x : ChassisSample) (s : State) : Quiet s (takeChassis x s) := by
  unfold takeChassis
  dsimp only
  split <;> (repeat' split) <;>
    first
    | exact .refl s
    | exact onIm_quiet s _ rfl rfl rfl
    | exact settleA_quiet _ s
    | exact settleB_quiet _ s

theorem disturb_quiet (s : State) : Quiet s (disturb s) := by
  unfold disturb
  split
  · split
    · exact ((openSwitches_quiet s).trans (onIm_quiet _ _ rfl rfl rfl)).trans (startAttempt_quiet _)
    · exact endInvalid_quiet _ _ s
  · exact .refl s

/-- The disturbance reports leave the background alone. -/
theorem takeReports_quiet (before after : State) : Quiet after (takeReports before after) := by
  unfold takeReports
  split
  · dsimp only
    split
    · split
      · exact (disturb_quiet _).trans (disturb_quiet _)
      · exact disturb_quiet _
    · split
      · exact disturb_quiet _
      · exact .refl after
  · exact .refl after

end Sys2Proof.Machine
end

