-- ==== Sys2Proof/Laws/Slots.lean ====
section
/-! SUPPORT. The laws of the slots of the record store (R148): a read after a write, the slots a write leaves alone, and the
canonical form, which every slot operation keeps. -/

namespace Sys2Proof.Machine

set_option Elab.async false

/-- A slot read after a write: the record written, and every other slot as before. -/
theorem slotGet_slotPut (m : List (Nat × Record)) (a b : Nat) (r : Record) :
    slotGet (slotPut m a r) b = if b = a then some r else slotGet m b := by
  induction m with
  | nil => simp [slotPut, slotGet, eq_comm]
  | cons x m ih =>
    obtain ⟨k, y⟩ := x
    simp only [slotPut]
    split_ifs <;> simp only [slotGet, ih] <;> split_ifs <;> first | rfl | (exfalso; omega)

/-- A slot read after one is emptied. -/
theorem slotGet_slotClear (m : List (Nat × Record)) (a b : Nat) :
    slotGet (slotClear m a) b = if b = a then none else slotGet m b := by
  induction m with
  | nil => simp [slotClear, slotGet]
  | cons x m ih =>
    obtain ⟨k, y⟩ := x
    simp only [slotClear, slotGet]
    split_ifs <;> simp_all [slotGet]

/-- A slot read after a list of slots is emptied. -/
theorem slotGet_slotClearAll (m : List (Nat × Record)) (as : List Nat) (b : Nat) :
    slotGet (slotClearAll m as) b = if b ∈ as then none else slotGet m b := by
  induction as generalizing m with
  | nil => simp [slotClearAll]
  | cons a as ih =>
    simp only [slotClearAll, ih, slotGet_slotClear, List.mem_cons]
    split_ifs <;> simp_all

/-- The canonical form from a lower slot on. -/
theorem slotsWfFrom_le {lo lo' : Nat} {m : List (Nat × Record)} (h : lo' ≤ lo) (w : slotsWfFrom lo m = true) :
    slotsWfFrom lo' m = true := by
  cases m with
  | nil => rfl
  | cons x m =>
    simp only [slotsWfFrom, Bool.and_eq_true, decide_eq_true_eq] at w ⊢
    exact ⟨⟨h.trans w.1.1, w.1.2⟩, w.2⟩

theorem slotsWfFrom_slotPut {lo a : Nat} {m : List (Nat × Record)} (r : Record) (hlo : lo ≤ a) (ha : a ≤ 255)
    (w : slotsWfFrom lo m = true) : slotsWfFrom lo (slotPut m a r) = true := by
  induction m generalizing lo with
  | nil => simp [slotPut, slotsWfFrom, hlo, ha]
  | cons x m ih =>
    obtain ⟨k, y⟩ := x
    simp only [slotsWfFrom, Bool.and_eq_true, decide_eq_true_eq] at w
    obtain ⟨⟨h1, h2⟩, h3⟩ := w
    simp only [slotPut]
    split_ifs with h4 h5
    · simp only [slotsWfFrom, Bool.and_eq_true, decide_eq_true_eq]
      exact ⟨⟨hlo, ha⟩, ⟨h4, h2⟩, h3⟩
    · subst h5
      simp only [slotsWfFrom, Bool.and_eq_true, decide_eq_true_eq]
      exact ⟨⟨hlo, ha⟩, h3⟩
    · simp only [slotsWfFrom, Bool.and_eq_true, decide_eq_true_eq]
      exact ⟨⟨h1, h2⟩, ih (by omega) h3⟩

/-- A write to a slot of the store keeps the canonical form. -/
theorem slotsWf_slotPut {a : Nat} {m : List (Nat × Record)} (r : Record) (ha : a ≤ 255) (w : slotsWf m = true) :
    slotsWf (slotPut m a r) = true := slotsWfFrom_slotPut r (Nat.zero_le a) ha w

theorem slotsWfFrom_slotClear {lo : Nat} {m : List (Nat × Record)} (a : Nat) (w : slotsWfFrom lo m = true) :
    slotsWfFrom lo (slotClear m a) = true := by
  induction m generalizing lo with
  | nil => rfl
  | cons x m ih =>
    obtain ⟨k, y⟩ := x
    simp only [slotsWfFrom, Bool.and_eq_true, decide_eq_true_eq] at w
    simp only [slotClear]
    split_ifs with h
    · exact ih (slotsWfFrom_le (by omega) w.2)
    · simp only [slotsWfFrom, Bool.and_eq_true, decide_eq_true_eq]
      exact ⟨w.1, ih w.2⟩

/-- Emptying a slot keeps the canonical form. -/
theorem slotsWf_slotClear {m : List (Nat × Record)} (a : Nat) (w : slotsWf m = true) : slotsWf (slotClear m a) = true :=
  slotsWfFrom_slotClear a w

/-- Emptying a list of slots keeps the canonical form. -/
theorem slotsWf_slotClearAll {m : List (Nat × Record)} (as : List Nat) (w : slotsWf m = true) :
    slotsWf (slotClearAll m as) = true := by
  induction as generalizing m with
  | nil => exact w
  | cons a as ih => exact ih (slotsWf_slotClear a w)

end Sys2Proof.Machine
end

