-- ==== Sys2Proof/Tests/Slice0.lean ====
section
/-! SUPPORT. Tests: ill-formed commands, the worked cases of spec/ one step at a time, and for each statement of
Certificates/Slice0/Obligations.lean that has hypotheses a witness that meets them. Expected figures are the spec's, or
worked by hand from its rules. -/

namespace Sys2Proof.Tests

set_option Elab.async false

open Sys2Proof.Machine

/-! ## Helpers -/

/-- The state a command leaves. -/
def ran (c : Instr) (s : State) : State :=
  match exec c s with
  | .next t => t
  | .fault _ => s
  | .refused _ => s

/-- A body from its figures. -/
def b8 (l : List Nat) : List Byte := l.map (BitVec.ofNat 8)

/-- A whole figure as a mean. -/
def whole (n : Int) : Mean := ⟨n, 1⟩

/-- The status and body of the reply pending on a port. -/
def answer (p : Port) (s : State) : Option (Status × List Nat) :=
  (s.ports.get p).reply.map fun r => (r.status, r.body.map BitVec.toNat)

/-- The status of the reply pending on a port. -/
def status (p : Port) (s : State) : Option Status := (s.ports.get p).reply.map Reply.status

/-- A notice flag of port T. -/
def noticeT (n : Notice) (s : State) : Bool := flagSet n s.ports.t.flags

/-- The bus at 385.2 V, cool, with the pack at -25.1 °C. -/
def calm : SampleSet :=
  { seq := 200, pIn := 7700, vBus := 3852, iBat := 142, iHeat := 0
    satPIn := false, satVBus := false, satIBat := false, satIHeat := false
    tPack := ⟨-251, .unmarked⟩, tEl1 := ⟨200, .unmarked⟩, tEl2 := ⟨200, .unmarked⟩, tObc := ⟨400, .unmarked⟩
    plug := .present }

/-- A window whose means are `calm`'s figures. -/
def calmWindow : Window :=
  { pIn := whole 7700, vBus := whole 3852, iBat := whole 142, iHeat := whole 0
    tPack := some (whole (-251)), tEl1 := some (whole 200), tEl2 := some (whole 200), tObc := some (whole 400)
    plug := .present }

/-- A set has just been delivered: every consumer has it to take. -/
def due (x : SampleSet) (s : State) : State :=
  { s with fe := { s.fe with
    latest := some x, nextSeq := 201, dueSc := true, duePc := true, dueHc := true, dueIm := true, dueEa := true } }

/-- The van at the depot: plugged in, LIMITS valid, the level OK and the monitor running. -/
def depot : State :=
  { due calm .reset with
    sc := { Session.reset with
      state := .connected, plug := .present
      record := { Session.reset.record with number := 41 }
      limits := some ⟨200, 4100, 0, 0⟩, validity := some 2000 }
    im := { Insulation.reset with level := .ok, running := true, cycleRun := true, cycleLeft := 9000 } }

/-- A session of the fleet, offer 11000 W, in session state `x`. -/
def inSession (x : SessionState) : State :=
  { depot with
    sc := { depot.sc with
      state := x
      record := { depot.sc.record with number := 42, payer := .fleet, offer := 11000 }
      verify := if x = .verifying then some 30000 else none }
    ea := { EnergyAccount.reset with accruing := true }
    ct := { ClockTariff.reset with interval := some ⟨0, 0, 0, 0, ⟨0, 0, 0, 0, 0⟩, 15, ⟨true, true, false, false, false, false⟩⟩ } }

/-- CHARGING at 9500 W. -/
def charging : State := { inSession .charging with pc := { Power.reset with pCmd := 9500 } }

/-- CLOSING at 3750 W. -/
def closing : State := { inSession .closing with pc := { Power.reset with pCmd := 3750 } }

/-- LOCKED_OUT by an insulation fault that has passed. -/
def locked : State := { depot with sc := { depot.sc with state := .lockedOut, lockout := ⟨true, false⟩ } }

/-- Element 2 at 100 Ω, the leg CONNECTED, the pack asking for heat, `a` W allowed. -/
def heating (a : Nat) : State :=
  { depot with
    cfg := { depot.cfg with resE2 := 1000 }
    pc := { Power.reset with aH := a }
    hc := { Heater.reset with leg := .connected, idle := some 0, mode := true, target := 100, thermostat := true } }

/-- Both elements on. -/
def bothOn (a : Nat) : State :=
  { heating a with hc := { (heating a).hc with
    idle := none
    e1 := { Element.reset with state := .on, rated := 1854, current := 481 }
    e2 := { Element.reset with state := .on, rated := 1483, current := 385 } } }

/-- Phase A of measurement 119 with INS_A closed. -/
def phaseA : State :=
  { charging with
    fe := { charging.fe with insA := true }
    im := { charging.im with meas := .phaseA, number := 119, counter := 119, phase := some 2800, window := [305, 316, 318] } }

/-- Phase B with INS_B closed, Va taken and two values in the window. -/
def phaseB (va : Nat) (w : List Nat) : State :=
  { charging with
    fe := { charging.fe with insB := true, chassisIndex := 3 }
    im := { charging.im with meas := .phaseB, number := 119, counter := 119, phase := some 2800, window := w, va := some (va, 200) } }

/-- A record. -/
def someRecord : BillingRecord :=
  { number := 42, index := 8, payer := .fleet, generation := 4, startDay := 20, startSec := 55800, duration := 900
    price := 31, wh := ⟨1800, 1700, 0, 100, 0⟩, cost := 56, reason := .boundary, clockUnset := false, noTariff := false
    merged := false, mixedPrice := false, reverse := false, saturatedInput := false, saturatedAccount := false
    lockout := false, final := false, aborted := false }

/-- A captured record. -/
def someCapture : CapturedRecord :=
  { source := 10, port := none, desc := 10, repeating := true, fieldSet := .power, time := ⟨false, 20, 55800⟩
    seq := some 7, missed := 0, countAfter := 3, body := List.replicate 30 0 }

/-- A small plan: BILLING full in slots 0 to 3, INSULATION unjoined, EVENTS with one record in 8 to 11, READINGS full in 12
to 15 with its oldest record in 14. -/
def small : Store :=
  { slots := [(0, .billing someRecord), (1, .billing someRecord), (2, .billing someRecord), (3, .billing someRecord),
      (8, .captured someCapture), (12, .captured someCapture), (13, .captured someCapture),
      (14, .captured { someCapture with seq := some 6 }), (15, .captured someCapture)]
    areas := #v[some ⟨0, 4⟩, some ⟨4, 4⟩, some ⟨8, 4⟩, some ⟨12, 4⟩, none, none]
    billing := ⟨some ⟨0, .t, 0, 4⟩, 0, 0⟩
    insulation := ⟨none, 0, 0⟩
    events := ⟨some ⟨2, .t, 8, 1⟩, 0, 0⟩
    readings := ⟨some ⟨3, .c, 14, 4⟩, 0, 0⟩ }

/-- The fleet table of the worked afternoon. -/
def afternoon : List Period := [⟨0, 22⟩, ⟨420, 31⟩, ⟨960, 45⟩, ⟨1260, 22⟩]

/-- Session 57 of the worked afternoon, one second before second of day `sec`, with `wh` Wh and cost `cost` reached. -/
def afternoonAt (sec wh cost reported : Nat) (i : Interval) : State :=
  { inSession .charging with
    sc := { (inSession .charging).sc with record := { (inSession .charging).sc.record with number := 57 } }
    ea := { EnergyAccount.reset with
      accruing := true
      session := { Account.zero with g := ⟨wh, 0⟩ } }
    ct := { ClockTariff.reset with
      day := 20, sec := sec - 1, valid := true, timebase := 0
      fleet := ⟨some afternoon, none, 4⟩
      price := 31, elapsed := sec - 49212 - 1, cost := cost, reported := reported, interval := some i } }

/-- The interval with index `n` of the worked afternoon, opened at `sec` with `wh` Wh. -/
def quarter (n sec wh : Nat) : Interval :=
  ⟨n, 20, sec, sec - 49212, ⟨wh, 0, 0, 0, 0⟩, 15, ⟨false, false, false, false, false, false⟩⟩

/-! ## Ill-formed commands (R3, R178) -/

/-- Sixty-one bytes. -/
def tooLong : List Byte := List.replicate 61 0

theorem test_wellFormed_window : WellFormed (.sampleSetDelivery calmWindow) = true := by decide

theorem test_wellFormed_refuses_pIn : WellFormed (.sampleSetDelivery { calmWindow with pIn := ⟨7700, 0⟩ }) = false := by
  decide

theorem test_wellFormed_refuses_vBus : WellFormed (.sampleSetDelivery { calmWindow with vBus := ⟨3852, 0⟩ }) = false := by
  decide

theorem test_wellFormed_refuses_iBat : WellFormed (.sampleSetDelivery { calmWindow with iBat := ⟨142, 0⟩ }) = false := by
  decide

theorem test_wellFormed_refuses_iHeat : WellFormed (.tempHoldExpiry { calmWindow with iHeat := ⟨0, 0⟩ }) = false := by
  decide

theorem test_wellFormed_refuses_tPack :
    WellFormed (.tempHoldExpiry { calmWindow with tPack := some ⟨1, 0⟩ }) = false := by decide

theorem test_wellFormed_refuses_tEl1 : WellFormed (.tempHoldExpiry { calmWindow with tEl1 := some ⟨1, 0⟩ }) = false := by
  decide

theorem test_wellFormed_refuses_tEl2 : WellFormed (.tempHoldExpiry { calmWindow with tEl2 := some ⟨1, 0⟩ }) = false := by
  decide

theorem test_wellFormed_refuses_tObc : WellFormed (.tempHoldExpiry { calmWindow with tObc := some ⟨1, 0⟩ }) = false := by
  decide

theorem test_wellFormed_refuses_chassis : WellFormed (.chassisSample ⟨5, 0⟩) = false := by decide

theorem test_wellFormed_refuses_partial_byte : WellFormed (.framingError .v [] 8) = false := by decide

theorem test_wellFormed_refuses_partial_frame : WellFormed (.framingError .v (List.replicate 63 0) 0) = false := by decide

theorem test_wellFormed_refuses_short_overlong : WellFormed (.overlongFrame .v 0x20 60) = false := by decide

theorem test_wellFormed_refuses_crc_body : WellFormed (.crcError .v 0x20 tooLong 0) = false := by decide

theorem test_wellFormed_refuses_unknown_body : WellFormed (.unknownKindRequest .v 0x40 tooLong) = false := by decide

/-- Every request command refuses a body of 61 bytes. -/
theorem test_wellFormed_refuses_request_bodies :
    ([.fetch .v tooLong, .limits .v tooLong, .heatRequest .v tooLong, .insStart .v tooLong, .insStop .v tooLong,
      .faultAck .v tooLong, .lockoutRelease .v tooLong, .heaterRestore .v tooLong, .measureNow .v tooLong,
      .sessionOpen .c tooLong, .offerUpdate .c tooLong, .stationPause .c tooLong, .sessionClose .c tooLong,
      .tariffLoad .t tooLong, .statusGet .t tooLong, .readingGet .t tooLong, .faultList .t tooLong, .tariffGet .t tooLong,
      .configGet .t tooLong, .configSet .t tooLong, .snapshotNow .t tooLong, .noticeGet .t tooLong, .noticeClear .t tooLong,
      .noticeEnable .t tooLong, .errClear .t tooLong, .timeSet .t tooLong, .areaSet .t tooLong, .areaClear .t tooLong,
      .join .t tooLong, .unjoin .t tooLong, .descSet .t tooLong, .vectorSet .t tooLong, .streamRead .t tooLong,
      .streamAck .t tooLong] : List Instr).all (fun c => !WellFormed c) = true := by decide

/-! ## The queue -/

theorem test_no_word_spells_a_command : decodeTableWord 8 0x20 = none ∧ State.reset.withFetchWord 8 0x20 = State.reset := by
  decide

theorem test_reset_queue_empty : State.reset.pending = [] := by decide

/-! ## Resets -/

/-- After COLD the default plan stands and nothing is known of the plug (R163, R37). -/
theorem test_coldReset :
    (ran .coldReset charging).rs.area 0 = ⟨0, 96⟩ ∧ (ran .coldReset charging).sc.plug = .absent := by decide

/-- The worked pulse case: 4 pending pulses become lost at the fall (R123). -/
theorem test_resetNFall_moves_pulses :
    (ran .resetNFall { charging with ea := { charging.ea with pulses := 4, pulse := .high, pulseMs := 2 } }).ea.lost = 4 ∧
      pulseOut (ran .resetNFall { charging with ea := { charging.ea with pulse := .high } }) = false := by decide

/-- The switches open and the sampler stops at the fall (R12). -/
theorem test_resetNFall_opens_the_switches :
    let t := ran .resetNFall { phaseA with fe := { phaseA.fe with chassisMs := 20, chassisIndex := 2 } }
    phaseA.fe.insA = true ∧ t.fe.insA = false ∧ t.fe.chassisMs = 0 ∧ t.fe.chassisIndex = 0 := by decide

/-- The worked warm reset: ABORTED finds the stream full and the hold slot occupied, FINAL_PENDING is set (R36, R145). -/
theorem test_resetNRise_aborts :
    let t := ran .resetNRise { charging with
      resetLow := true, rs := small, ct := { charging.ct with held := some someRecord } }
    t.sc.state = .unplugged ∧ t.sc.record.closeReason = .aborted ∧ t.sc.finalPending = true ∧
      t.ct.finalRecord.map BillingRecord.aborted = some true := by decide

/-! ## The front end -/

/-- The window of the worked clamping case. -/
def overshoot : Window :=
  { calmWindow with pIn := ⟨77003, 10⟩, vBus := ⟨65324, 10⟩, iBat := ⟨1415, 10⟩, iHeat := ⟨-6, 10⟩ }

/-- The worked clamping case (R3, R4). -/
theorem test_sampleSetDelivery_clamps :
    let x := (ran (.sampleSetDelivery overshoot) depot).fe.latest
    x.map SampleSet.pIn = some 7700 ∧ x.map SampleSet.vBus = some 6500 ∧ x.map SampleSet.iBat = some 142 ∧
      x.map SampleSet.iHeat = some 0 ∧ x.map SampleSet.satVBus = some true ∧ x.map SampleSet.satIHeat = some true ∧
      x.map SampleSet.satPIn = some false ∧ x.map SampleSet.saturated = some true := by decide

/-- Set 201 of the worked hold case: open, HELD at the last valid value (R6). -/
theorem test_sampleSetDelivery_holds :
    ((ran (.sampleSetDelivery { calmWindow with tEl1 := none })
      { depot with fe := { depot.fe with tEl1 := ⟨some 1184, 0⟩ } }).fe.latest.map SampleSet.tEl1) =
      some ⟨1184, .held⟩ := by decide

/-- Set 211 of the worked hold case: MISSING with value 0 (R6). -/
theorem test_tempHoldExpiry :
    let t := ran (.tempHoldExpiry { calmWindow with tEl1 := none }) { depot with fe := { depot.fe with tEl1 := ⟨some 1184, 10⟩ } }
    t.fe.latest.map SampleSet.tEl1 = some ⟨0, .missing⟩ ∧ t.fe.tEl1 = ⟨none, 11⟩ := by decide

/-! ## Session controller -/

/-- The worked night: t_pack at T_accept sets the gate and takes PREHEAT to CHARGING (R22). -/
theorem test_scSampleTaking_gate :
    let t := ran .scSampleTaking (due { calm with tPack := ⟨0, .unmarked⟩ } (inSession .preheat))
    t.sc.state = .charging ∧ t.sc.gate = true := by decide

/-- A bus below 50 V adds BUS_LOW and enters HOLD with P_cmd 0 (R24, R45). -/
theorem test_scSampleTaking_busLow :
    let t := ran .scSampleTaking (due { calm with vBus := 499 } charging)
    t.sc.state = .hold ∧ t.sc.hold.busLow = true ∧ t.pc.pCmd = 0 := by decide

/-- The worked night: the third set PRESENT gives CONNECTED (R14, R15). -/
theorem test_plugDebounceChange :
    let t := ran .plugDebounceChange (due calm { State.reset with sc := { Session.reset with plugCount := 2 } })
    t.sc.state = .connected ∧ t.sc.plug = .present ∧ noticeT .session t = true := by decide

/-- Two sets PRESENT are not enough (R14). -/
theorem test_plugDebounceChange_waits :
    ran .plugDebounceChange (due calm { State.reset with sc := { Session.reset with plugCount := 1 } }) =
      due calm { State.reset with sc := { Session.reset with plugCount := 1 } } := by decide

/-- LIMITS of the worked night, I_bmax 140 in the worked phase: A_h 10312 - 5392 = 4920, P_cmd kept (R43). -/
theorem test_limits :
    let t := ran (.limits .v (b8 [0, 140, 0x10, 0x04, 0, 0, 0, 0])) charging
    t.pc.aH = 4920 ∧ t.pc.pCmd = 9500 ∧ status .v t = some .ok := by decide +kernel

/-- T_accept 451 is clamped to 450 (R17). -/
theorem test_limits_clamped :
    let t := ran (.limits .v (b8 [0, 140, 0x10, 0x04, 0x01, 0xC3, 0, 0])) charging
    t.sc.limits.map LimitsRecord.tAccept = some 450 ∧ status .v t = some .clamped := by decide +kernel

/-- The worked night at 02:15:41.6: STATION_PAUSE and LIMITS_STALE stand, the gate stays (R18). -/
theorem test_limitsValidityExpiry :
    let s := inSession .hold
    let t := ran .limitsValidityExpiry { s with
      sc := { s.sc with validity := some 2, hold := { HoldSet.empty with stationPause := true }, gate := true } }
    t.sc.state = .hold ∧ t.sc.hold = ⟨true, false, false, false, true⟩ ∧ t.sc.gate = true ∧
      noticeT .limitsStale t = true := by decide

/-- The verification time ends without a verdict: the session closes and ends (R23, R29). -/
theorem test_verificationTimerExpiry :
    let t := ran .verificationTimerExpiry (inSession .verifying)
    t.sc.state = .connected ∧ t.sc.record.closeReason = .verifyTimeout ∧ t.ea.accruing = false ∧
      t.rs.billing.join.map Join.count = some 1 := by decide

/-- SESSION_OPEN of the worked night: session 42, VERIFYING (R20). -/
theorem test_sessionOpen :
    let t := ran (.sessionOpen .c (b8 [1, 0, 0, 0x2A, 0xF8, 2, 0x41, 0x42])) depot
    t.sc.state = .verifying ∧ t.sc.record.number = 42 ∧ t.sc.record.offer = 11000 ∧ t.sc.verify = some 30000 ∧
      t.im.meas = .phaseA := by decide

/-- SESSION_OPEN with FINAL_PENDING is refused BUSY (R19). -/
theorem test_sessionOpen_busy :
    status .c (ran (.sessionOpen .c (b8 [1, 0, 0, 0x2A, 0xF8, 0])) { depot with sc := { depot.sc with finalPending := true } }) =
      some .busy := by decide

/-- The worked night at 01:30: the offer of 4000 W bounds the command at 3750 W at once (R26, R44). -/
theorem test_offerUpdate :
    let t := ran (.offerUpdate .c (b8 [0, 0, 0x0F, 0xA0])) charging
    t.sc.record.offer = 4000 ∧ t.pc.pCmd = 3750 := by decide

/-- The fall of 870 W in the worked phase restarts the measurement (R47, R88). -/
theorem test_offerUpdate_disturbs :
    let t := ran (.offerUpdate .c (b8 [0, 0, 0x0F, 0xA0])) { phaseA with pc := { phaseA.pc with pCmd := 4620 } }
    t.pc.pCmd = 3750 ∧ t.im.abandoned = 1 ∧ t.im.number = 119 ∧ t.im.phase = some 3000 := by decide

/-- The worked night at 02:15:20 and 02:16:00 (R25). -/
theorem test_stationPause :
    (ran (.stationPause .c [1]) charging).sc.state = .hold ∧ (ran (.stationPause .c [1]) charging).pc.pCmd = 0 := by decide

theorem test_stationPause_clear :
    let s := inSession .hold
    (ran (.stationPause .c [0]) { s with sc := { s.sc with
      record := { s.sc.record with pause := true }, hold := ⟨true, false, false, false, true⟩ } }).sc.hold =
      ⟨false, false, false, false, true⟩ := by decide

/-- The worked night at 05:45: CLOSING at 3750 W (R27, R28). -/
theorem test_sessionClose :
    let t := ran (.sessionClose .c []) { charging with pc := { charging.pc with pCmd := 3750 } }
    t.sc.state = .closing ∧ t.sc.record.closeReason = .requested ∧ t.pc.pCmd = 3750 ∧ t.sc.commandZero = false := by decide

/-- A plug loss places the final record and ends the session: a SESSION_CLOSE at that instant is answered OK and starts no
close, 1 ms later it is refused (R27). -/
theorem test_sessionClose_with_the_plug_loss :
    let s := due { calm with plug := .absent } { charging with sc := { charging.sc with plugCount := 2 } }
    let t := ran .scSampleTaking s
    let u := ran (.sessionClose .c []) t
    t.sc.state = .unplugged ∧ t.sc.record.closeReason = .unplugged ∧ status .c u = some .ok ∧ u.sc = t.sc ∧
      status .c (ran (.sessionClose .c []) (elapse 1 t)) = some .state := by decide +kernel

theorem test_sessionClose_refused : status .c (ran (.sessionClose .c []) depot) = some .state := by decide

/-- An unblocked release (R33). -/
theorem test_lockoutRelease :
    (ran (.lockoutRelease .v []) locked).sc.state = .connected ∧
      (ran (.lockoutRelease .v []) locked).sc.lockout = .empty := by decide

/-- LEVEL and TEMPERATURE block the release: 2 + 8 (R33, R194). -/
theorem test_lockoutRelease_blocked :
    answer .v (ran (.lockoutRelease .v []) (due { calm with tObc := ⟨900, .unmarked⟩ }
      { locked with im := { locked.im with level := .unknown } })) = some (.state, [10]) := by decide

/-! ## Power command -/

/-- The worked setpoint case (R38 to R42). -/
theorem test_pcUpdate_setpoint :
    let t := ran .pcUpdate { charging with hc := { Heater.reset with
      leg := .connected, e1 := { Element.reset with state := .on, rated := 1854 } } }
    t.pc.lStation = 10312 ∧ t.pc.lObc = 11000 ∧ t.pc.bReq = 7704 ∧ t.pc.aH = 2608 ∧ t.pc.pCmd = 9550 := by decide

/-- The set that ends the worked window (R51, R52). -/
theorem test_derateWindowEnd :
    let t := ran .derateWindowEnd (due { calm with iBat := 234, tObc := ⟨760, .unmarked⟩ }
      { charging with pc := { charging.pc with derate := .warm, windowCount := 599, used := 3686500000 } })
    t.pc.used = 0 ∧ t.pc.windowCount = 0 ∧ t.pc.exhausted = false := by decide

/-- The worked close at 05:45: 3750 to 2750 (R46). Set 265 of the worked window: the HOT allowance of 60 Wh is reached and
the command falls to 0 (R53). -/
theorem test_pcUpdate_lowers :
    let t := ran .pcUpdate (due { calm with pIn := 5500, vBus := 4000, iBat := 200, tObc := ⟨851, .unmarked⟩ }
      { charging with pc := { charging.pc with pCmd := 5500, derate := .hot, windowCount := 264, used := 2155500000 } })
    (ran .pcUpdate closing).pc.pCmd = 2750 ∧ t.pc.used = 2161000000 ∧ t.pc.exhausted = true ∧ t.pc.pCmd = 0 := by decide

/-- The duty of the worked setpoint case: 434 per mille (R42). -/
theorem test_pwmPeriodStart :
    obcCmd (ran .pwmPeriodStart { charging with pc := { charging.pc with pCmd := 9550 } }) = 434 := by decide

/-! ## Heater controller -/

/-- The worked selection at 2608 W: E1 alone (R62). -/
theorem test_hcSampleTaking_selects :
    let t := ran .hcSampleTaking (heating 2608)
    t.hc.e1.isOn = true ∧ t.hc.e2.isOn = false ∧ t.hc.e1.rated = 1854 ∧ t.hc.e2.rated = 1483 ∧ t.hc.e1.current = 481 := by
  decide

/-- The worked diagnosis at 300 ms: E2 goes off and is held out (R70). -/
theorem test_hcSampleTaking_diagnoses :
    let t := ran .hcSampleTaking (due { calm with iHeat := 478 } (bothOn 4000))
    t.hc.e1.isOn = true ∧ t.hc.e2.state = .off ∧ t.hc.diagnosis = true ∧ t.hc.blanking = some 300 := by decide

/-- The connect timer of the worked preheating (R66). -/
theorem test_connectTimerExpiry :
    let s := heating 4000
    (ran .connectTimerExpiry { s with hc := { s.hc with leg := .connecting, connect := some 200, idle := none } }).hc.leg =
      .connected := by decide

/-- Thirty seconds idle open the leg (R68). -/
theorem test_idleTimerExpiry :
    let t := ran .idleTimerExpiry (heating 4000)
    t.hc.leg = .disconnected ∧ t.hc.settle = some 200 := by decide

/-- A disconnect deferred by a phase follows when the phase is over (R68). -/
theorem test_deferredIdleDisconnect :
    let s := heating 4000
    (ran .deferredIdleDisconnect { s with hc := { s.hc with idleDeferred := true } }).hc.leg = .disconnected := by decide

theorem test_blankingTimerExpiry :
    let s := bothOn 4000
    (ran .blankingTimerExpiry { s with hc := { s.hc with blanking := some 100 } }).hc.blanking = none := by decide

/-- HEAT_REQUEST of the worked preheating: target 100 with t_pack at -251 sets the flag (R60, R61). -/
theorem test_heatRequest : (ran (.heatRequest .v (b8 [1, 0, 100])) depot).hc.thermostat = true := by decide

/-- A target of 451 is clamped to 450 (R60). -/
theorem test_heatRequest_clamped :
    let t := ran (.heatRequest .v (b8 [1, 0x01, 0xC3])) depot
    t.hc.target = 450 ∧ status .v t = some .clamped := by decide

/-- E2 DISABLED with cause OPEN is restored; the reply names it (R75). -/
theorem test_heaterRestore :
    let s := depot
    let t := ran (.heaterRestore .v [3]) { s with hc := { s.hc with
      e2 := { Element.reset with state := .disabled, cause := .openCircuit } } }
    t.hc.e2.state = .off ∧ t.hc.e2.cause = .noCause ∧ answer .v t = some (.ok, [2]) := by decide

/-! ## Insulation monitor -/

/-- A bus below 50 V ends RUNNING and the measurement with it (R80). -/
theorem test_imSampleTaking_ends :
    let t := ran .imSampleTaking (due { calm with vBus := 499 } phaseA)
    t.im.running = false ∧ t.im.meas = .idle ∧ t.fe.insA = false ∧
      t.im.last.map ResultRecord.reason = some .busLow := by decide

/-- At 50 V RUNNING begins, the countdown at a full period (R78, R80). -/
theorem test_imSampleTaking_begins :
    let t := ran .imSampleTaking (due { calm with vBus := 500 } { depot with im := { depot.im with running := false } })
    t.im.running = true ∧ t.im.cycleLeft = 10000 := by decide

/-- The worked localisation at 0 ms: measurement 119 starts (R81, R84). -/
theorem test_cycleCountdownExpiry :
    let t := ran .cycleCountdownExpiry { depot with im := { depot.im with counter := 118 } }
    t.im.meas = .phaseA ∧ t.im.number = 119 ∧ t.fe.insA = true ∧ t.im.phase = some 3000 := by decide

/-- The worked localisation at 600 ms: the leg is reported disconnected and measurement 120 starts (R99). -/
theorem test_settleTimerExpiry :
    let t := ran .settleTimerExpiry { depot with
      hc := { depot.hc with settle := some 200, localiseHold := true }
      im := { depot.im with meas := .localising, counter := 119, request := true } }
    t.im.meas = .phaseA ∧ t.im.number = 120 ∧ t.im.localise = true ∧ t.im.request = false := by decide

theorem test_pendingMeasurementStart :
    let t := ran .pendingMeasurementStart { depot with im := { depot.im with request := true } }
    t.im.meas = .phaseA ∧ t.im.request = false := by decide

/-- The worked localisation at 200 ms: 316, 318, 318 settle phase A (R86). -/
theorem test_chassisSample_settles :
    let t := ran (.chassisSample (whole 318)) { phaseA with fe := { phaseA.fe with chassisIndex := 3 } }
    t.im.meas = .phaseB ∧ t.im.va = some (318, 200) ∧ t.im.window = [] ∧ t.fe.insA = false ∧ t.fe.insB = true := by decide

/-- The worked computation: Rp 1001, Rn 150, WARNING (R89, R90). -/
theorem test_chassisSample_result :
    let t := ran (.chassisSample (whole 393)) (due { calm with vBus := 4000 } (phaseB 1377 [393, 393]))
    t.im.last.map ResultRecord.figures = some ⟨1001, 150, 4000⟩ ∧ t.im.last.map ResultRecord.cls = some .warning := by decide

/-- Three seconds without settling: SETTLE_TIMEOUT (R87). -/
theorem test_phaseTimerExpiry :
    let t := ran .phaseTimerExpiry phaseA
    t.im.meas = .idle ∧ t.im.last.map ResultRecord.reason = some .settleTimeout := by decide

/-- Thirty seconds without a valid result: UNKNOWN, with an entry (R96, R102). -/
theorem test_levelAgeExpiry :
    let t := ran .levelAgeExpiry { depot with im := { depot.im with age := some 0 } }
    t.im.level = .unknown ∧ t.im.faults.map FaultEntry.figures = [⟨65535, 65535, 0⟩] := by decide

/-- INS_START at a live bus begins RUNNING (R79). -/
theorem test_insStart :
    (ran (.insStart .v []) { depot with im := { depot.im with runRequested := false, running := false } }).im.running =
      true := by decide

/-- INS_STOP ends a measurement without a result (R79). -/
theorem test_insStop :
    let t := ran (.insStop .v []) phaseA
    t.im.meas = .idle ∧ t.im.last = none ∧ t.fe.insA = false ∧ t.im.runRequested = false := by decide

/-- The worked localisation at 500 ms: MEASURE_NOW is kept pending (R83). -/
theorem test_measureNow :
    let t := ran (.measureNow .c []) { depot with im := { depot.im with meas := .localising } }
    status .c t = some .ok ∧ t.im.request = true ∧ t.im.meas = .localising := by decide

/-- A fault table with entries 6 and 7. -/
def twoFaults : State :=
  { depot with im := { depot.im with
    entrySeq := 7
    faults := [⟨6, .warning, ⟨false, 20, 100⟩, ⟨1001, 150, 4000⟩⟩, ⟨7, .heaterLeg, ⟨false, 20, 200⟩, ⟨2000, 29, 3852⟩⟩] } }

/-- FAULT_ACK of 6 leaves entry 7; the reply counts it (R104). -/
theorem test_faultAck :
    let t := ran (.faultAck .v (b8 [0, 0, 0, 6])) twoFaults
    t.im.faults.map FaultEntry.seq = [7] ∧ answer .v t = some (.ok, [1]) := by decide

/-- FAULT_LIST of position 1: entry 7 of kind HEATER_LEG (R105, R194). -/
theorem test_faultList :
    answer .t (ran (.faultList .t [1]) twoFaults) =
      some (.ok, [0, 0, 0, 7, 3, 0, 20, 0, 0, 0, 200, 0, 0x07, 0xD0, 0, 29, 0x0F, 0x0C, 2, 0, 0]) := by decide

/-! ## Energy account -/

/-- Worked allocations A, B, C and E (R109). -/
theorem test_sharesOf_worked :
    sharesOf { calm with iHeat := 480 } = ⟨7700000, 5469840, 1848960, 381200, 0⟩ ∧
      sharesOf { calm with pIn := 500, iBat := -80, iHeat := 962 } = ⟨500000, 0, 500000, 0, 3205624⟩ ∧
      sharesOf { calm with pIn := -120, iBat := -3 } = ⟨0, 0, 0, 0, 0⟩ ∧
      sharesOf { calm with pIn := 4000 } = ⟨4000000, 4000000, 0, 0, 0⟩ := by decide +kernel

/-- Sample n of the worked end of a session: one Wh is carried and priced at 31 (R110, R116). -/
theorem test_eaAllocation_carries :
    let s := closing
    let t := ran .eaAllocation (due { calm with pIn := 900, iBat := 19 } { s with
      ea := { s.ea with session := { Account.zero with g := ⟨40118, 35400000⟩ } }
      ct := { s.ct with price := 31, cost := 1000 } })
    t.ea.session.g = ⟨40119, 300000⟩ ∧ t.ct.cost = 1031 := by decide

/-- The worked pulse case at q = 1: sample 1 crosses six quanta, the first is emitted at once (R121, R122). -/
def bench : State :=
  due { calm with pIn := 30000 } { depot with cfg := { depot.cfg with pulseWhInt := 0, pulseWhEighths := 1 } }

theorem test_eaAllocation_pulses :
    let t := ran .eaAllocation bench
    t.ea.acc = 3000000 ∧ t.ea.pulses = 5 ∧ t.ea.pulse = .high ∧ t.ea.pulseMs = 5 ∧ t.ea.lost = 0 := by decide

theorem test_pulseHighEnd :
    let t := ran .pulseHighEnd { depot with ea := { depot.ea with pulse := .high, pulseMs := 5, pulses := 3 } }
    t.ea.pulse = .low ∧ t.ea.pulseMs = 5 ∧ pulseOut t = false ∧ t.ea.pulses = 3 := by decide

theorem test_pulseLowEnd :
    let t := ran .pulseLowEnd { depot with ea := { depot.ea with pulse := .low, pulseMs := 5, pulses := 3 } }
    t.ea.pulse = .high ∧ t.ea.pulses = 2 ∧ pulseOut t = true := by decide

/-- READING_GET: the session number first, the lost count last, 73 bytes in all (R119, R194). -/
theorem test_readingGet :
    let b := (answer .v (ran (.readingGet .v []) charging)).map Prod.snd
    b.map (List.take 4) = some [0, 0, 0, 42] ∧ b.map List.length = some 73 := by decide

/-! ## Clock, tariffs and intervals -/

/-- The last second of day 65535 (R126). -/
theorem test_clockTick_wraps :
    let t := ran .clockTick { depot with ct := { depot.ct with day := 65535, sec := 86399, valid := true } }
    t.ct.day = 0 ∧ t.ct.sec = 0 ∧ t.ct.valid = true ∧ t.ct.elapsed = 0 := by decide

/-- 15:15 of the worked afternoon: record 6 and the reported cost 412 (R138, R139). -/
theorem test_boundaryClose :
    let t := ran .boundaryClose (afternoonAt 54900 13306 412486 357 (quarter 6 54000 11506))
    recordAt ⟨0, .t, 0, 1⟩ 0 t.rs = some (.billing
      { number := 57, index := 6, payer := .fleet, generation := 4, startDay := 20, startSec := 54000, duration := 900
        price := 31, wh := ⟨1800, 0, 0, 0, 0⟩, cost := 55, reason := .boundary, clockUnset := false, noTariff := false
        merged := false, mixedPrice := false, reverse := false, saturatedInput := false, saturatedAccount := false
        lockout := false, final := false, aborted := false }) ∧
      t.ct.reported = 412 ∧ t.ct.interval.map Interval.index = some 7 := by decide +kernel

/-- 15:45 of the worked afternoon: the stream is full, record 8 goes to the hold slot (R141). -/
theorem test_boundaryClose_holds :
    let t := ran .boundaryClose { afternoonAt 56700 16906 524086 468 (quarter 8 55800 15106) with rs := small }
    t.ct.held.map BillingRecord.cost = some 56 ∧ t.ct.reported = 524 ∧ noticeT .billing t = true := by decide +kernel

/-- 16:00 of the worked afternoon: a PERIOD close is merged and the price changes from 31 to 45 (R135, R143). -/
theorem test_periodClose_merges :
    let s := afternoonAt 57600 18706 579886 524 (quarter 9 56700 16906)
    let t := ran .periodClose { s with rs := small, ct := { s.ct with held := some someRecord } }
    t.ct.price = 45 ∧ t.ct.reported = 524 ∧ t.ct.interval = some
      ⟨9, 20, 56700, 7488, ⟨16906, 0, 0, 0, 0⟩, 15, ⟨false, false, true, true, false, false⟩⟩ := by decide +kernel

/-- 16:00 is not a BOUNDARY close by cause (R135). -/
theorem test_periodClose_cause :
    let s := afternoonAt 57600 18706 579886 524 (quarter 9 56700 16906)
    ran .boundaryClose s = s ∧ (ran .periodClose s).ct.interval.map Interval.index = some 10 := by decide +kernel

/-- A staged table waits for the end of the session (R129). -/
theorem test_tariffApplyAtSessionEnd :
    let s := depot
    let t := ran .tariffApplyAtSessionEnd { s with ct := { s.ct with station := ⟨none, some [⟨0, 22⟩], 65535⟩ } }
    t.ct.station = ⟨some [⟨0, 22⟩], none, 0⟩ ∧ noticeT .tariff t = true := by decide

/-- The table of 15:50 of the worked afternoon is staged: FLEET, not applied (R128, R129, R194). -/
theorem test_tariffLoad_stages :
    let t := ran (.tariffLoad .t (b8 [0, 4, 0, 0, 0, 22, 0x01, 0xA4, 0, 31, 0x03, 0xC0, 0, 52, 0x04, 0xEC, 0, 22]))
      (afternoonAt 57000 17506 542686 524 (quarter 9 56700 16906))
    answer .t t = some (.ok, [1, 0]) ∧
      t.ct.fleet = ⟨some afternoon, some [⟨0, 22⟩, ⟨420, 31⟩, ⟨960, 52⟩, ⟨1260, 22⟩], 4⟩ := by decide +kernel

/-- A table whose first period does not start at minute 0 is INVALID (R128). -/
theorem test_tariffLoad_invalid : status .c (ran (.tariffLoad .c (b8 [0, 1, 0, 1, 0, 22])) depot) = some .invalid := by decide

/-- TARIFF_GET of the staged fleet table: PENDING 1, generation, no period where the table is absent (R131). -/
theorem test_tariffGet :
    let s := { depot with ct := { depot.ct with fleet := ⟨none, some [⟨0, 22⟩], 4⟩ } }
    answer .v (ran (.tariffGet .v (b8 [1, 0])) s) = some (.empty, [1, 0, 4]) ∧
      answer .v (ran (.tariffGet .v (b8 [1, 1])) s) = some (.ok, [1, 0, 4, 0, 0, 0, 22]) := by decide

/-- TIME_SET: day 20, 86399 s; 86400 is INVALID (R127). -/
theorem test_timeSet :
    let t := ran (.timeSet .t (b8 [0, 20, 0, 0x01, 0x51, 0x7F])) depot
    t.ct.day = 20 ∧ t.ct.sec = 86399 ∧ t.ct.valid = true := by decide +kernel

theorem test_timeSet_invalid :
    status .t (ran (.timeSet .t (b8 [0, 20, 0, 0x01, 0x51, 0x80])) depot) = some .invalid := by decide +kernel

/-- Room in BILLING takes the held record (R142). -/
theorem test_heldRecordAppend :
    let t := ran .heldRecordAppend { depot with ct := { depot.ct with held := some someRecord } }
    t.ct.held = none ∧ t.rs.billing.join.map Join.count = some 1 := by decide

/-- A pending final record takes an empty hold slot and the session ends (R142, R29). -/
theorem test_pendingFinalPlaced :
    let s := closing
    let t := ran .pendingFinalPlaced { s with
      rs := small, ct := { s.ct with interval := none, finalRecord := some someRecord }
      sc := { s.sc with finalPending := true, commandZero := true }, pc := Power.reset }
    t.ct.held = some someRecord ∧ t.ct.finalRecord = none ∧ t.sc.state = .connected ∧ t.sc.finalPending = false := by decide

/-! ## Record store -/

/-- Step 8 of the worked re-planning: area 0 cannot grow into area 1 (R150). -/
theorem test_areaSet_overlap :
    let s := { State.reset with rs := { Store.reset with billing := ⟨none, 0, 0⟩ } }
    status .t (ran (.areaSet .t (b8 [0, 0, 0, 128])) s) = some .overlap := by decide

/-- Step 16: area 1 moves onto slots that overlap only its own old place (R150). -/
theorem test_areaSet_moves :
    let s := { State.reset with rs := { Store.reset with
      areas := #v[some ⟨0, 96⟩, some ⟨96, 64⟩, some ⟨176, 48⟩, some ⟨224, 32⟩, none, none]
      insulation := ⟨none, 0, 0⟩, events := ⟨none, 0, 0⟩ } }
    let t := ran (.areaSet .t (b8 [1, 128, 0, 48])) s
    status .t t = some .ok ∧ t.rs.area 1 = ⟨128, 48⟩ := by decide

/-- An unjoined area is cleared; a joined one is BUSY (R151). -/
theorem test_areaClear :
    let s := { State.reset with rs := small }
    (ran (.areaClear .t [1]) s).rs.area 1 = ⟨0, 0⟩ ∧ status .t (ran (.areaClear .t [0]) s) = some .busy := by decide

/-- Steps 19 and 21: EVENTS finds area 0 BUSY, INSULATION joins area 1 for port V (R153). -/
theorem test_join :
    let s := { State.reset with rs := small }
    let t := ran (.join .t (b8 [1, 1, 1])) s
    t.rs.insulation.join = some ⟨1, .v, 4, 0⟩ ∧ status .t (ran (.join .t (b8 [1, 0, 1])) s) = some .busy := by decide

/-- Steps 12 and 13: NOT_EMPTY, and with FORCE the record is discarded and counted lost (R154). -/
theorem test_unjoin :
    let s := { State.reset with rs := small }
    let t := ran (.unjoin .t (b8 [2, 1])) s
    status .t (ran (.unjoin .t (b8 [2, 0])) s) = some .notEmpty ∧ t.rs.events = ⟨none, 1, 0⟩ ∧
      t.rs.slots.map Prod.fst = [0, 1, 2, 3, 12, 13, 14, 15] := by decide

/-- Step 4: NOT_JOINED raises ALARM in port T alone (R158). -/
theorem test_streamRead_alarm :
    let t := ran (.streamRead .t (b8 [1, 0])) { State.reset with rs := small }
    status .t t = some .notJoined ∧ noticeT .alarm t = true ∧ t.ports.t.alarm = ⟨false, true, false, false⟩ ∧
      flagSet .alarm t.ports.v.flags = false := by decide

/-- Step 11: port V cannot acknowledge a stream port T consumes; the body names port T (R159, R160). -/
theorem test_streamAck_notConsumer :
    answer .v (ran (.streamAck .v (b8 [0, 0, 1])) { State.reset with rs := small }) = some (.notConsumer, [3]) := by decide

/-- The worked warm reset at 04:06:12: the held record takes the freed slot, the ABORTED one the hold slot (R142, R160). -/
theorem test_streamAck_gains_room :
    let s := { depot with
      rs := small, ct := { depot.ct with held := some someRecord, finalRecord := some { someRecord with aborted := true } }
      sc := { depot.sc with finalPending := true } }
    let t := ran (.streamAck .t (b8 [0, 0, 1])) s
    t.ct.held = some { someRecord with aborted := true } ∧ t.ct.finalRecord = none ∧ t.sc.finalPending = false ∧
      t.rs.billing.join = some ⟨0, .t, 1, 4⟩ ∧ noticeT .session t = true := by decide +kernel

/-! ## Snapshot engine -/

/-- The configuration of the worked chained capture. -/
def chained : SnapshotEngine :=
  { SnapshotEngine.reset with
    vectors := #v[⟨false, 0⟩, ⟨false, 1⟩, ⟨false, 2⟩, ⟨true, 4⟩, ⟨true, 10⟩, ⟨false, 5⟩, ⟨false, 6⟩, ⟨true, 8⟩, ⟨false, 8⟩,
      ⟨false, 9⟩, ⟨false, 10⟩, ⟨false, 11⟩]
    descs := #v[⟨false, .session, false, 0, 1, false, false⟩, ⟨false, .session, false, 0, 1, false, false⟩,
      ⟨false, .session, false, 0, 1, false, false⟩, ⟨false, .session, false, 0, 1, false, false⟩,
      ⟨true, .session, false, 1, 4, true, true⟩, ⟨false, .energy, true, 1, 1, true, false⟩,
      ⟨true, .power, false, 3, 3, false, false⟩, ⟨false, .session, false, 0, 1, false, false⟩,
      ⟨false, .session, false, 5, 1, false, false⟩, ⟨false, .session, false, 0, 1, false, false⟩,
      ⟨true, .insulation, false, 10, 10, false, false⟩, ⟨false, .session, false, 0, 1, false, false⟩,
      ⟨false, .session, false, 0, 1, false, false⟩, ⟨false, .session, false, 0, 1, false, false⟩,
      ⟨false, .session, false, 0, 1, false, false⟩, ⟨false, .session, false, 0, 1, false, false⟩]
    waiting := #v[none, none, none, some ⟨⟨false, 20, 59400⟩, none⟩, none, none, none, some ⟨⟨false, 20, 59400⟩, none⟩, none,
      none, none, none] }

/-- The chained capture at 16:30:00: sources 3 and 7 are pending. -/
def capturing : State := { charging with rs := small, se := chained }

/-- Selection of source 3: the chain is fixed as 4, 5, 6 (R170). -/
theorem test_snapshotSelection :
    let t := ran .snapshotSelection capturing
    t.se.service.map Service.chain = some [4, 5, 6] ∧ t.se.service.map Service.source = some 3 ∧
      t.se.service.map Service.left = some 2 ∧ t.se.waiting.get 3 = none ∧ (t.se.waiting.get 7).isSome = true := by decide

/-- Completion of 4: EVENTS gains a record, the count reloads to 4 with CAPTURE, 5 comes up (R173). -/
theorem test_compositionComplete :
    let t := ran .compositionComplete (ran .snapshotSelection capturing)
    t.rs.events.join.map Join.count = some 2 ∧ (t.se.desc 4).count = 4 ∧ noticeT .capture t = true ∧
      t.se.service.map (fun v => v.record.desc) = some 5 := by decide +kernel

/-- Completion of 5: READINGS overwrites its oldest, source 3 is disabled, 6 comes up (R156, R173). -/
theorem test_compositionComplete_exhausts :
    let t := ran .compositionComplete (ran .compositionComplete (ran .snapshotSelection capturing))
    t.rs.readings.overwritten = 1 ∧ (t.se.vectors.get 3).enabled = false ∧ (t.se.desc 5).count = 0 ∧
      t.se.service.map (fun v => v.record.desc) = some 6 := by decide +kernel

/-- DESC_SET at 0.8 ms is refused BUSY (R169). -/
theorem test_descSet_busy :
    status .t (ran (.descSet .t (b8 [6, 1, 2, 2, 0, 3, 0, 3, 0])) (ran .snapshotSelection capturing)) = some .busy := by
  decide +kernel

/-- Descriptor 8, the only one of its chain, completes: a DESC_SET at that instant is BUSY, 1 ms later it is taken (R173). -/
theorem test_descSet_with_the_completion :
    let s := { capturing with se := { chained with waiting := vput chained.waiting 3 none } }
    let t := ran .compositionComplete (ran .snapshotSelection s)
    let d : Instr := .descSet .t (b8 [8, 0, 0, 2, 0, 5, 0, 1, 0])
    t.se.service = none ∧ t.se.justServed = [8] ∧ status .t (ran d t) = some .busy ∧
      status .t (ran d (elapse 1 t)) = some .ok := by decide +kernel

/-- A reload of 0 is stored as 1 (R169). -/
theorem test_descSet_clamps :
    let t := ran (.descSet .t (b8 [6, 1, 2, 2, 0, 3, 0, 0, 1])) capturing
    t.se.desc 6 = ⟨true, .power, false, 3, 1, true, false⟩ ∧ status .t t = some .clamped := by decide +kernel

/-- A source disabled by VECTOR_SET loses its pending member (R167, R168). -/
theorem test_vectorSet :
    let t := ran (.vectorSet .t (b8 [7, 0, 8])) capturing
    t.se.vectors.get 7 = ⟨false, 8⟩ ∧ t.se.waiting.get 7 = none ∧ status .t t = some .ok := by decide

/-- A NORMAL descriptor at count 0 cannot be enabled (R168). -/
theorem test_vectorSet_exhausted :
    status .t (ran (.vectorSet .t (b8 [0, 1, 0])) capturing) = some .exhausted := by decide

/-- REQUEST disabled: outcome 2 (R175, R194). -/
theorem test_snapshotNow :
    answer .c (ran (.snapshotNow .c []) capturing) = some (.ok, [2, 0, 0x88, 0]) := by decide

/-- The periodic timer runs out at 10 s (R174). -/
theorem test_periodicTimerExpiry :
    let s := { depot with cfg := { depot.cfg with snapPeriodS := 10 }, se := { depot.se with
      periodic := 9, vectors := vput depot.se.vectors 10 ⟨true, 10⟩ } }
    (ran .periodicTimerExpiry s).se.periodic = 0 ∧ ((ran .periodicTimerExpiry s).se.waiting.get 10).isSome = true := by decide

/-! ## Ports -/

/-- The check bytes of chapter 10 (R179, R181). -/
theorem test_crc8 : crc8 (b8 [0x20, 0x00]) = 0xAE#8 ∧ crc8 (b8 [0x80, 0x02, 0x00]) = 0x21#8 ∧ crc8 [0, 0] = 0#8 := by decide +kernel

theorem test_framingError :
    let t := ran (.framingError .v (b8 [0x20]) 3) depot
    t.ports.v.errors = ⟨true, false, false⟩ ∧ flagSet .portError t.ports.v.flags = true ∧ t.ports.c = depot.ports.c := by
  decide

theorem test_overlongFrame :
    (ran (.overlongFrame .c 0x20 61) depot).ports.c.errors.framing = true ∧
      ran (.overlongFrame .c 0x20 60) depot = depot := by decide

/-- Step 4 of the worked exchange: a corrupted check byte (R179). -/
theorem test_crcError :
    (ran (.crcError .v 0x20 [] 0xAF) depot).ports.v.errors = ⟨false, true, false⟩ ∧
      ran (.crcError .v 0x20 [] 0xAE) depot = depot := by decide +kernel

theorem test_unknownKindRequest :
    status .v (ran (.unknownKindRequest .v 0x37 []) depot) = some .unknownKind ∧
      ran (.unknownKindRequest .v 0x38 []) depot = depot := by decide

/-- WAIT from an empty reply buffer; then a reply is driven (R181). -/
theorem test_fetch :
    (ran (.fetch .v []) depot).ports.v.shift = b8 [0x80, 0x02, 0x00, 0x21] ∧
      ((ran (.fetch .v []) (ran (.errClear .v []) depot)).ports.v.shift.take 4 = b8 [0xAA, 0x00, 0x01, 0x00]) := by
  decide +kernel

/-- Step 3 of the worked exchange: the whole reply has been shifted out (R181). -/
theorem test_replyShiftComplete :
    (ran (.replyShiftComplete .v) (ran (.fetch .v []) (ran (.errClear .v []) depot))).ports.v.reply = none := by decide +kernel

/-- Step 6 of the worked exchange: OVERRUN joins CRC (R180, R182). -/
theorem test_request_overrun :
    (ran (.heatRequest .v (b8 [0, 0, 0])) (ran (.errClear .v []) depot)).ports.v.errors = ⟨false, false, true⟩ := by decide +kernel

/-- Step 8 of the worked exchange: the body is {CRC, OVERRUN}, the set is emptied (R182, R189). -/
theorem test_errClear :
    let s := { depot with ports := { depot.ports with v := { depot.ports.v with errors := ⟨false, true, true⟩ } } }
    answer .v (ran (.errClear .v []) s) = some (.ok, [6]) ∧
      (ran (.errClear .v []) s).ports.v.errors = ⟨false, false, false⟩ := by decide +kernel

/-- STATUS_GET of the connected van: CONNECTED 1, PRESENT 0, empty sets (R187, R194). -/
theorem test_statusGet :
    ((answer .v (ran (.statusGet .v []) depot)).map fun x => (x.1, x.2.take 4)) = some (.ok, [1, 0, 0, 0]) := by decide +kernel

/-- The default enable mask of port C (R184). -/
theorem test_noticeGet : answer .c (ran (.noticeGet .c []) depot) = some (.ok, [0, 0, 0x0E, 0x53, 0]) := by decide

/-- STREAM stays; the other flags named are cleared (R184). -/
theorem test_noticeClear :
    let s := { depot with ports := { depot.ports with v := { depot.ports.v with flags := 0xFFF } } }
    answer .v (ran (.noticeClear .v (b8 [0x0F, 0xFF])) s) = some (.ok, [0x02, 0x00]) := by decide +kernel

theorem test_noticeEnable :
    (ran (.noticeEnable .t (b8 [0x02, 0x00])) depot).ports.t.mask = 0x200 ∧
      status .t (ran (.noticeEnable .t (b8 [0x10, 0x00])) depot) = some .invalid := by decide

/-- With DERATE_T_TRIP at 950, DERATE_T_HOT of 980 is stored as 940 (R185). -/
theorem test_configSet :
    answer .v (ran (.configSet .v (b8 [0x0E, 0x03, 0xD4])) depot) =
      some (.clamped, [0x0E, 0x03, 0x52, 0x03, 0xAC]) := by decide

/-- BILL_INTERVAL_MIN: value 15, range 1..60, default 15, owner T (R186). -/
theorem test_configGet :
    answer .c (ran (.configGet .c [0x20]) depot) = some (.ok, [0x20, 0, 15, 0, 1, 0, 60, 0, 15, 3]) := by decide

/-! ## Witnesses: the hypotheses of each statement are met, each clause at a boundary of its range -/

theorem witness_StepRunsTheFrontCommand :
    { depot with pending := [.clockTick, .coldReset] }.pending = .clockTick :: [.coldReset] ∧ depot.pending = [] := by
  decide

theorem witness_EveryCommandAnswersAndResetLowHoldsThePart :
    let s : State := { charging with resetLow := true, ct := { charging.ct with timebase := 1000, sec := 86399 } }
    s.resetLow = true ∧ s.ct.timebase ≤ 1000 ∧ s.ct.sec = 86399 ∧ s.ea.accruing = true ∧ Instr.pcUpdate ≠ .coldReset ∧
      Instr.pcUpdate ≠ .resetNRise ∧ Instr.pcUpdate ≠ .clockTick := by decide

/-- The lost count takes all 5 pending pulses just below its maximum, and none at it. -/
theorem witness_ResetFallOpensEveryOutput :
    let at_ (n : Nat) : State := { charging with ea := { charging.ea with pulses := 5, lost := n } }
    (at_ 4294967290).resetLow = false ∧ (at_ 4294967290).ea.lost + (at_ 4294967290).ea.pulses ≤ 4294967295 ∧
      (at_ 4294967295).ea.lost ≤ 4294967295 ∧ 4294967295 ≤ (at_ 4294967295).ea.lost + (at_ 4294967295).ea.pulses := by
  decide

/-- A staged table waits for the end of the fleet session. -/
def staged : State := { closing with ct := { closing.ct with fleet := ⟨none, some afternoon, 65535⟩ } }

theorem witness_ResetRiseGivesTheWarmValues :
    let low (s : State) : State := { s with resetLow := true }
    let full : State := { charging with rs := small }
    let i : Interval := ⟨0, 0, 0, 0, ⟨0, 0, 0, 0, 0⟩, 15, ⟨true, true, false, false, false, false⟩⟩
    let held (s : State) : State := { s with ct := { s.ct with held := some someRecord } }
    (low charging).resetLow = true ∧ (low charging).ea.pulses = 0 ∧ charging.ct.interval = some i ∧
      (low locked).sc.state = .lockedOut ∧ locked.ct.interval = none ∧ billingRoom charging = true ∧
      billingRoom full = false ∧ full.ct.held = none ∧ (held full).ct.held ≠ none ∧
      (ran .resetNRise (low charging)).rs.billing.join.map Join.count = some 1 ∧
      (ran .resetNRise (low full)).ct.held = some (formRecord .aborted false i charging) ∧
      (ran .resetNRise (low (held full))).ct.finalRecord = some (formRecord .aborted false i charging) ∧
      (ran .resetNRise (low { locked with ct := { locked.ct with finalRecord := some someRecord } })).ct.finalRecord =
        some { someRecord with aborted := true } ∧
      ((low staged).ct.kind .fleet).staged ≠ none ∧ ((ran .resetNRise (low staged)).ct.kind .fleet).generation = 0 := by
  decide +kernel

/-- The window is over, or just begun; the fourth clause at counter 10. -/
theorem witness_SampleSetIsDeliveredWhole :
    0 < (whole 7700).den ∧ charging.resetLow = false ∧ charging.fe.windowMs ≤ 100 ∧
      { charging.fe with windowMs := 100 }.windowMs ≤ 100 ∧
      ({ calmWindow with tEl1 := none }.tEl1 = none ∧ { charging.fe with tEl1 := ⟨some 1184, 10⟩ }.tEl1.counter = 10) := by
  decide

theorem witness_HoldBridgesTenSetsThenMissing :
    charging.resetLow = false ∧ (11 : Nat) ≤ 11 ∧ (HoldChannel.convert none ⟨none, 11⟩).counter = 11 ∧
      (HoldChannel.convert none ⟨none, 10⟩).counter = 11 := by decide

theorem witness_EachConsumerTakesASetAtMostOnce :
    State.reset.fe.latest = none ∧ { charging.fe with duePc := false }.duePc = false ∧ charging.resetLow = false ∧
      charging.fe.latest.isSome = true := by decide

theorem witness_SessionStateChangeIsOneEvent :
    charging.sc.state = .charging ∧ charging.sc.state ≠ .hold ∧ SessionState.hold.isOpen = true ∧
      staged.sc.state ≠ .connected ∧ staged.sc.state.isOpen = true ∧ SessionState.connected.isOpen = false ∧
      (staged.ct.kind staged.sc.record.payer).staged = some afternoon := by decide

theorem witness_ChargePermissionIsGivenExactlyWhen :
    chgEn charging = true ∧ chgEn { charging with resetLow := true } = false ∧ { charging with resetLow := true }.resetLow = true ∧
      chgEn { closing with sc := { closing.sc with commandZero := true } } = false := by decide

/-- A set that completes the debounce of ABSENT. -/
def unplugging (x : SessionState) : State :=
  let s := due { calm with plug := .absent } (inSession x)
  { s with sc := { s.sc with plugCount := 2 } }

/-- A set that completes the debounce of PRESENT. -/
def plugging (x : SessionState) : State :=
  let s := due calm (inSession x)
  { s with sc := { s.sc with plug := .absent, plugCount := 2 } }

/-- No transition of the plug is due: with a move, and without one. -/
theorem witness_SampleTakingMovesTheSessionOnce :
    charging.resetLow = false ∧ charging.fe.latest = some calm ∧ charging.fe.dueSc = true ∧ calm.plug = charging.sc.plug ∧
      (ran .scSampleTaking charging).sc.state ≠ charging.sc.state ∧
      (ran .scSampleTaking (inSession .preheat)).sc.state = (inSession .preheat).sc.state ∧
      (ran .scSampleTaking (unplugging .charging)).sc.state ≠ .charging := by decide

theorem witness_DebouncedPlugChangeActsByState :
    (plugging .unplugged).resetLow = false ∧ (plugging .unplugged).fe.latest = some calm ∧
      (plugging .unplugged).fe.dueSc = true ∧ calm.plug ≠ (plugging .unplugged).sc.plug ∧
      3 ≤ (plugging .unplugged).sc.plugCount + 1 ∧ calm.plug = .present ∧ (plugging .unplugged).sc.state = .unplugged ∧
      (plugging .lockedOut).sc.state = .lockedOut ∧ (plugging .closing).sc.state = .closing ∧
      (unplugging .charging).fe.latest = some { calm with plug := .absent } ∧
      ({ calm with plug := .absent } : SampleSet).plug ≠ (unplugging .charging).sc.plug ∧
      3 ≤ (unplugging .charging).sc.plugCount + 1 ∧ (unplugging .charging).sc.commandZero = false ∧
      (unplugging .connected).sc.state = .connected ∧ (unplugging .lockedOut).sc.state = .lockedOut ∧
      (unplugging .closing).sc.state = .closing ∧ (unplugging .closing).sc.commandZero = false := by decide

/-- A plug loss in CLOSING takes P_cmd to 0; the next update asks the final close and ends the session (R15, R28, R46). -/
theorem test_plugLoss_in_closing :
    let s : State := { unplugging .closing with pc := closing.pc }
    let t := ran .plugDebounceChange s
    s.pc.pCmd = 3750 ∧ t.pc.pCmd = 0 ∧ t.sc.state = .closing ∧ t.sc.commandZero = false ∧ t.ea.accruing = true ∧
      (ran .pcUpdate t).sc.state = .unplugged ∧ (ran .pcUpdate t).ea.accruing = false := by decide +kernel

/-- LIMITS that differ from the stored ones and that equal them, in HOLD without a reason left and in CHARGING; the validity
timer stopped and at its last ms. -/
theorem witness_LimitsAreStoredValidAndGrowStale :
    charging.resetLow = false ∧ (b8 [0, 200, 0x10, 0x04, 0, 0, 0, 0]).length = 8 ∧
      charging.sc.limits = some ⟨clampNat 0 5000 (u16 (b8 [0, 200, 0x10, 0x04, 0, 0, 0, 0]) 0), 4100, 0, 0⟩ ∧
      charging.sc.limits ≠ some ⟨clampNat 0 5000 (u16 (b8 [0x13, 0x89]) 0), 4100, 0, 0⟩ ∧
      State.reset.sc.validity = none ∧ { charging.sc with validity := some 1 }.validity = some 1 ∧
      (inSession .hold).sc.state = .hold ∧ (inSession .hold).sc.hold.any = false := by decide +kernel

/-- A SESSION_OPEN body with payer code `k` and offer `x`, label empty. -/
def opening (k x : Nat) : List Byte := b8 [k, 0, 0, x / 256, x % 256, 0]

theorem witness_SessionOpenIsRefusedInOrder :
    depot.resetLow = false ∧ lengthOk .sessionOpen (opening 0 11000) = true ∧ State.reset.sc.state = .unplugged ∧
      charging.sc.state = .charging ∧ locked.sc.state = .lockedOut ∧ depot.sc.state = .connected ∧
      depot.sc.finalPending = false ∧ { depot.sc with finalPending := true }.finalPending = true ∧
      { depot.sc with validity := none }.validity = none ∧ depot.sc.validity.isSome = true ∧ 1 < u8 (opening 2 11000) 0 ∧
      ¬ 1 < u8 (opening 1 11000) 0 := by decide +kernel

/-- Payer codes 0 and 1, an offer at 22000 and one above it; the monitor IDLE and RUNNING, in a phase, and not requested. -/
theorem witness_SessionOpenStartsVerification :
    depot.resetLow = false ∧ lengthOk .sessionOpen (opening 1 22001) = true ∧ depot.sc.state = .connected ∧
      depot.sc.finalPending = false ∧ depot.sc.validity.isSome = true ∧ u8 (opening 0 22000) 0 ≤ 1 ∧
      u8 (opening 1 22001) 0 ≤ 1 ∧ 22000 < u32 (opening 1 22001) 1 ∧ ¬ 22000 < u32 (opening 0 22000) 1 ∧
      depot.im.runRequested = true ∧ depot.im.meas = .idle ∧ depot.im.running = true ∧
      { depot.im with running := false }.running = false ∧ { depot.im with runRequested := false }.runRequested = false := by
  decide +kernel

theorem witness_ClosingWaitsForTheCommandToReachZero :
    charging.sc.state ≠ .verifying ∧ (inSession .verifying).resetLow = false ∧
      (inSession .verifying).sc.state = .verifying ∧ (inSession .verifying).sc.verify = some 30000 ∧
      (inSession .verifying).sc.commandZero = false ∧ (inSession .verifying).pc.pCmd = 0 ∧ charging.sc.state = .charging ∧
      0 < charging.pc.pCmd ∧ (inSession .hold).pc.pCmd = 0 ∧ (inSession .hold).sc.commandZero = false ∧
      closing.sc.state = .closing ∧ depot.sc.state = .connected ∧ depot.sc.lossNow = false ∧
      { depot.sc with lossNow := true }.lossNow = true := by decide

/-- Offers at 22000 and 22001; in CLOSING a command that stays above 0 and one of 0. -/
theorem witness_OfferAndPauseActAtOnce :
    charging.resetLow = false ∧ (b8 [0, 0, 0x55, 0xF1]).length = 4 ∧ 22000 < u32 (b8 [0, 0, 0x55, 0xF1]) 0 ∧
      ¬ 22000 < u32 (b8 [0, 0, 0x55, 0xF0]) 0 ∧ depot.sc.state.isOpen = false ∧ charging.sc.state.isOpen = true ∧
      charging.sc.state ≠ .closing ∧ charging.sc.record.offer ≠ 22000 ∧ charging.sc.record.offer = 11000 ∧
      closing.sc.state = .closing ∧ closing.sc.commandZero = false ∧ closing.sc.record.offer ≠ 10 ∧
      { closing.sc.record with offer := 10 }.offer = 10 ∧
      min closing.pc.pCmd (min (10 * closing.cfg.obcEff / 1024) (lObcOf closing)) / 10 * 10 = 0 ∧
      0 < min closing.pc.pCmd (min (11 * closing.cfg.obcEff / 1024) (lObcOf closing)) / 10 * 10 ∧
      ([1] : List Byte).length = 1 ∧ charging.sc.record.pause = decide (u8 [0] 0 ≠ 0) ∧
      charging.sc.record.pause ≠ decide (u8 [1] 0 ≠ 0) := by decide +kernel

/-- t_obc at the limit of 900 blocks, at 899 it does not. -/
theorem witness_LockoutReleaseNamesWhatBlocksIt :
    locked.resetLow = false ∧ charging.sc.state ≠ .lockedOut ∧ locked.sc.state = .lockedOut ∧
      ¬ (locked.im.level ≠ .ok ∧ locked.im.level ≠ .warning) ∧ (¬ ∃ e ∈ locked.im.faults, e.kind = .fault) ∧
      locked.fe.latest = some calm ∧ locked.sc.finalPending = false ∧ calm.tObc.mark ≠ .missing ∧
      ¬ (locked.cfg.derateTTrip : Int) - 50 ≤ 899 ∧ (locked.cfg.derateTTrip : Int) - 50 ≤ 900 ∧
      { locked.sc with finalPending := true }.finalPending = true := by decide

theorem witness_LockoutClosesTheSessionAndStopsPower :
    let full : State := { charging with rs := small, ct := { charging.ct with held := some someRecord } }
    charging.sc.state ≠ .lockedOut ∧ charging.sc.state.isOpen = true ∧ charging.ea.accruing = true ∧
      charging.ct.interval ≠ none ∧ placeable charging = true ∧ placeable full = false ∧ full.ct.interval ≠ none ∧
      (enterLockout .overtemp full).ct.finalRecord.map BillingRecord.lockout = some true ∧
      depot.sc.state ≠ .lockedOut ∧ depot.sc.state.isOpen = false ∧ locked.sc.state = .lockedOut ∧
      locked.sc.lockout.has .insulationFault = true ∧ locked.sc.lockout.has .overtemp = false ∧
      (bothOn 4000).hc.leg = .connected := by decide +kernel

/-- TRIP at 950, held down to 900; the first and the last set of a window. -/
theorem witness_DerateStateAndWindowFollowTheSet :
    let hot : SampleSet := { calm with tObc := ⟨950, .unmarked⟩ }
    let s := due hot charging
    s.resetLow = false ∧ s.fe.latest = some hot ∧ s.fe.duePc = true ∧ s.pc.derate ≠ .trip ∧
      (s.cfg.derateTTrip : Int) ≤ hot.tObc.value ∧ (ran .pcUpdate s).pc.derate = .trip ∧
      (ran .pcUpdate (due { calm with tObc := ⟨900, .unmarked⟩ } { locked with pc := { locked.pc with derate := .trip } })).pc.derate = .trip ∧
      (ran .pcUpdate (due { calm with tObc := ⟨899, .unmarked⟩ } { locked with pc := { locked.pc with derate := .trip } })).pc.derate = .hot ∧
      s.pc.windowCount = 0 ∧ { s.pc with windowCount := 599 }.windowCount + 1 = s.pc.windowLen := by decide

/-- In CHARGING, with v_bus at V_bmax and below it; in HOLD and LOCKED_OUT; without LIMITS. -/
theorem witness_SetpointFollowsTheStages :
    charging.resetLow = false ∧ charging.fe.latest = some calm ∧ charging.fe.duePc = true ∧ charging.sc.state ≠ .closing ∧
      derateAfter charging.cfg calm.tObc charging.pc.derate ≠ .trip ∧ charging.sc.limits = some ⟨200, 4100, 0, 0⟩ ∧
      charging.sc.validity ≠ none ∧ calm.vBus < 4100 ∧ { calm with vBus := 4100 }.vBus = 4100 ∧
      phaseA.im.meas = .phaseA ∧ (inSession .preheat).sc.state = .preheat ∧ (inSession .hold).sc.state ≠ .charging ∧
      locked.sc.state = .lockedOut ∧ State.reset.sc.limits = none := by decide

/-- The step from 3750 W leaves 2750; the one from 1000 W is the last. -/
theorem witness_ClosingStepsDownToTheFinalClose :
    let last : State := { closing with pc := { closing.pc with pCmd := 1000 } }
    closing.resetLow = false ∧ closing.fe.latest = some calm ∧ closing.fe.duePc = true ∧ closing.sc.state = .closing ∧
      derateAfter closing.cfg calm.tObc closing.pc.derate ≠ .trip ∧ (ran .pcUpdate closing).pc.pCmd = 2750 ∧
      closing.sc.commandZero = false ∧ (ran .pcUpdate last).pc.pCmd = 0 ∧ (ran .pcUpdate last).sc.state = .connected := by
  decide

theorem witness_HeaterTakesRatingsHotAndThermostat :
    let s := due { calm with tPack := ⟨0, .missing⟩ } (bothOn 4000)
    (heating 4000).resetLow = false ∧ (heating 4000).fe.latest = some calm ∧ (heating 4000).fe.dueHc = true ∧
      s.fe.dueHc = true ∧ s.fe.latest.map (fun x => x.tPack.mark) = some .missing ∧ s.hc.sensor = false ∧
      (ran .hcSampleTaking (due { calm with tEl1 := ⟨1200, .unmarked⟩ } (heating 4000))).hc.e1.hot = true ∧
      (ran .hcSampleTaking (due { calm with tEl1 := ⟨1199, .unmarked⟩ } (heating 4000))).hc.e1.hot = false := by decide

/-- The pair at 3337 W fits an allowance of 3337 and not of 3336; an element inside its ON dwell stays on. -/
theorem witness_SelectionKeepsWithinTheAllowance :
    let s := heating 3337
    let on := bothOn 3337
    let young : State := { on with hc := { on.hc with
      blanking := some 300, e1 := { on.hc.e1 with dwell := 999 }, e2 := { on.hc.e2 with dwell := 999 } } }
    s.resetLow = false ∧ s.fe.latest = some calm ∧ s.fe.dueHc = true ∧ s.hc.leg = .connected ∧ s.im.inPhase = false ∧
      s.hc.localiseHold = false ∧ s.sc.state ≠ .lockedOut ∧ s.hc.e1.state = .off ∧ s.hc.e2.state = .off ∧
      s.hc.diagnosis = false ∧ 1000 ≤ s.hc.e1.dwell ∧ 1000 ≤ s.hc.e2.dwell ∧
      (ran .hcSampleTaking s).hc.hOn = 3337 ∧ (ran .hcSampleTaking (heating 3336)).hc.hOn = 1854 ∧
      calm.vBus * calm.vBus / (10 * young.cfg.resE1) + calm.vBus * calm.vBus / (10 * young.cfg.resE2) ≤ young.pc.aH ∧
      young.hc.blanking.isSome = true ∧ calm.tPack.mark ≠ .missing ∧ young.hc.e1.isOn = true ∧ young.hc.e1.dwell < 1000 ∧
      (ran .hcSampleTaking young).hc.e1.hot = false := by decide

/-- The leg in each of its states, and each timer running, stopped and deferred. -/
theorem witness_LegConnectsWhenFreeAndByItsTimers :
    let s := heating 4000
    let leg (l : LegState) : State := { s with hc := { s.hc with leg := l } }
    s.resetLow = false ∧ s.fe.latest = some calm ∧ s.fe.dueHc = true ∧ (leg .disconnected).hc.leg = .disconnected ∧
      (ran .hcSampleTaking (leg .disconnected)).hc.leg = .connecting ∧ (leg .isolated).hc.leg = .isolated ∧
      (leg .connecting).hc.leg = .connecting ∧ { s.hc with connect := some 200 }.connect = some 200 ∧
      { s.hc with blanking := some 300 }.blanking = some 300 ∧ s.hc.idle = some 0 ∧ 0 < s.cfg.heatIdleS ∧
      s.hc.idleDeferred = false ∧ 30000 = s.cfg.heatIdleS * 1000 - 0 ∧ s.hc.e1.isOn = false ∧ s.hc.e2.isOn = false ∧
      { s.hc with idleDeferred := true }.idleDeferred = true ∧ s.im.inPhase = false ∧ phaseA.im.inPhase = true ∧
      State.reset.hc.connect = none ∧ State.reset.hc.blanking = none ∧ State.reset.hc.idle = none := by decide

/-- With 866 expected: 649 is low and 650 is not; 1082 is not high and 1083 is. -/
theorem witness_CurrentCheckFindsTheFaultyElement :
    let s := bothOn 4000
    let only (k : ElemId) : State := { s with hc := match k with
      | .e1 => { s.hc with e2 := { s.hc.e2 with state := .off } }
      | .e2 => { s.hc with e1 := { s.hc.e1 with state := .off } } }
    s.resetLow = false ∧ s.fe.latest = some calm ∧ s.fe.dueHc = true ∧ calm.tEl1.mark ≠ .missing ∧ calm.tEl1.value < 1100 ∧
      calm.tEl2.mark ≠ .missing ∧ calm.tEl2.value < 1100 ∧ calm.tPack.mark ≠ .missing ∧ s.hc.mode = true ∧
      s.hc.thermostat = true ∧ calm.tPack.value < s.hc.target ∧ 0 < calm.vBus * calm.vBus / (10 * s.cfg.resE1) ∧
      0 < calm.vBus * calm.vBus / (10 * s.cfg.resE2) ∧
      calm.vBus * calm.vBus / (10 * s.cfg.resE1) + calm.vBus * calm.vBus / (10 * s.cfg.resE2) ≤ s.pc.aH ∧
      s.hc.e1.isOn = true ∧ s.hc.blanking = none ∧ 500 ≤ calm.vBus ∧ 4 * 649 < 3 * 866 ∧ ¬ 4 * 650 < 3 * 866 ∧
      ¬ 5 * 866 < 4 * 1082 ∧ 5 * 866 < 4 * 1083 ∧
      (ran .hcSampleTaking (due { calm with iHeat := 1083 } s)).hc.e1.cause = .overcurrent ∧
      (ran .hcSampleTaking (due { calm with iHeat := 1082 } s)).hc.e1.cause = .noCause ∧
      (ran .hcSampleTaking (only .e1)).hc.e1.cause = .openCircuit ∧
      (ran .hcSampleTaking (only .e2)).hc.e2.cause = .openCircuit ∧
      (ran .hcSampleTaking (due { calm with iHeat := 481 }
        { only .e1 with hc := { (only .e1).hc with diagnosis := true } })).hc.e2.cause = .openCircuit := by decide

/-- Mode codes 1 and 2, a stored request and another; selectors 0, 1, 7 and 8. -/
theorem witness_HeatRequestAndRestoreActAtOnce :
    let off : State := { depot with hc := { depot.hc with
      e1 := { depot.hc.e1 with state := .disabled, cause := .overcurrent }, leg := .isolated } }
    depot.resetLow = false ∧ (b8 [1, 0, 100]).length = 3 ∧ 1 < u8 (b8 [2, 0, 100]) 0 ∧ u8 (b8 [1, 0, 100]) 0 ≤ 1 ∧
      depot.hc.mode = decide (u8 (b8 [0, 0, 0]) 0 = 1) ∧ depot.hc.target = clampInt (-300) 450 (s16 (b8 [0, 0, 0]) 1) ∧
      depot.hc.mode ≠ decide (u8 (b8 [1, 0, 100]) 0 = 1) ∧ State.reset.fe.latest = none ∧ depot.fe.latest = some calm ∧
      calm.tPack.mark ≠ .missing ∧ { calm with tPack := ⟨0, .missing⟩ }.tPack.mark = .missing ∧ depot.hc.sensor = false ∧
      u8 (b8 [0]) 0 = 0 ∧ 7 < u8 (b8 [8]) 0 ∧ 0 < u8 (b8 [7]) 0 ∧ u8 (b8 [7]) 0 ≤ 7 ∧ off.hc.localiseHold = false ∧
      { off.hc with localiseHold := true }.localiseHold = true ∧ (u8 (b8 [1]) 0).testBit 0 = true ∧
      off.hc.e1.state = .disabled ∧ off.hc.leg = .isolated ∧ depot.hc.e1.state ≠ .disabled ∧
      answer .v (ran (.heaterRestore .v [7]) off) = some (.ok, [5]) := by decide

/-- Run requested and not, a bus at 500 and at 499, a request pending and none, in IDLE and in a phase. -/
theorem witness_RunningFollowsTheRequestAndTheBus :
    let idle (run asked : Bool) : State := { depot with im := { depot.im with runRequested := run, running := false, request := asked } }
    let at_ (v : Nat) : SampleSet := { calm with vBus := v }
    depot.resetLow = false ∧ depot.im.runRequested = true ∧ (idle false true).im.runRequested = false ∧
      latestVBus (due (at_ 499) (idle false true)) < 500 ∧ 500 ≤ latestVBus (due (at_ 500) (idle false true)) ∧
      (idle false true).im.request = true ∧ (idle false false).im.request = false ∧ (idle false true).im.meas = .idle ∧
      phaseA.im.meas ≠ .idle ∧ depot.fe.latest = some calm ∧ depot.fe.dueIm = true ∧ depot.im.running = true ∧
      (idle true true).im.running = false ∧ 500 ≤ (at_ 500).vBus ∧ ¬ 500 ≤ (at_ 499).vBus ∧
      { phaseA.im with localise := true }.localise = true := by decide

theorem witness_MeasurementsStartWhenDue :
    let s : State := { depot with
      hc := { depot.hc with settle := some 200, localiseHold := true }, im := { depot.im with meas := .localising } }
    depot.resetLow = false ∧ State.reset.im.cycleRun = false ∧ depot.im.request = false ∧ depot.hc.settle = none ∧
      depot.im.cycleRun = true ∧ depot.im.meas = .idle ∧ phaseA.im.cycleRun = true ∧ phaseA.im.meas ≠ .idle ∧
      { depot.im with request := true }.request = true ∧ depot.im.running = true ∧ depot.im.runRequested = true ∧
      { depot.im with runRequested := false }.runRequested = false ∧ s.hc.settle = some 200 ∧ s.hc.localiseHold = true ∧
      s.im.meas = .localising ∧ depot.hc.localiseHold = false := by decide

/-- Windows that settle at the tolerance of 3 and do not at 4; at U 4000 the readings of the worked edge table. -/
theorem witness_ChassisSamplesSettleThePhases :
    let s (va vb : Nat) : State := due { calm with vBus := 4000 } (phaseB va [vb, vb])
    let figures (va vb : Nat) : Option (InvalidReason × Figures × Machine.Class) :=
      (ran (.chassisSample (whole vb)) (s va vb)).im.last.map fun r => (r.reason, r.figures, r.cls)
    depot.fe.insA = false ∧ depot.fe.insB = false ∧ phaseA.resetLow = false ∧ phaseA.fe.chassisMs ≤ 50 ∧
      phaseA.fe.insA = true ∧ phaseA.im.meas = .phaseA ∧
      (ran (.chassisSample (whole 319)) phaseA).im.meas = .phaseB ∧ (ran (.chassisSample (whole 320)) phaseA).im.meas = .phaseA ∧
      (phaseB 318 [53, 53]).im.va = some (318, 200) ∧ (phaseB 318 [53, 53]).fe.insB = true ∧
      (ran (.chassisSample (whole 0)) { phaseA with im := { phaseA.im with meas := .localising } }).im.window = [305, 316, 318] ∧
      figures 2000 0 = some (.noReason, ⟨65535, 400, 4000⟩, .ok) ∧ figures 410 412 = some (.implausible, ⟨0, 0, 4000⟩, .noClass) ∧
      figures 4010 1200 = some (.implausible, ⟨0, 0, 4000⟩, .noClass) ∧
      ((ran (.chassisSample (whole 53)) (phaseB 318 [55, 53])).im.last.map ResultRecord.figures) = some ⟨2000, 29, 3852⟩ ∧
      ((ran (.chassisSample (whole 53)) (due { calm with vBus := 499 } (phaseB 318 [55, 53]))).im.last.map ResultRecord.reason) =
        some .busLow := by decide +kernel

/-- A mean of 6500 carries no mark, 6501 and -1 do (R11). -/
theorem test_chassisSample_saturated :
    let at_ (n : Int) : ChassisSample := chassisSample (whole n) phaseA.fe
    at_ 6500 = ⟨6500, true, false, 0, false⟩ ∧ at_ 6501 = ⟨6500, true, false, 0, true⟩ ∧ at_ (-1) = ⟨0, true, false, 0, true⟩ ∧
      (at_ 0).saturated = false := by decide

theorem witness_InvalidResultsAndAgeByTimer :
    phaseA.resetLow = false ∧ phaseA.im.phase = some 2800 ∧ phaseA.im.inPhase = true ∧ phaseA.im.localise = false ∧
      depot.im.phase = none ∧ { depot.im with age := some 29999 }.age = some 29999 ∧ depot.im.level ≠ .unknown ∧
      1 = 3 * depot.cfg.insPeriodS * 1000 - 29999 ∧ { depot.im with age := none }.age = none := by decide

/-- The level `l` with its runs. -/
def levelled (l : Level) (w b : Run) : State := { depot with im := { depot.im with level := l, worse := w, better := b } }

theorem witness_runsOk (l : Level) (w b : Run) (hw : w.count = 0 ∨ l.rank < w.bound.rank)
    (hb : b.count = 0 ∨ ((l = .warning ∨ l = .fault) ∧ b.bound.rank < l.rank)) : RunsOk (levelled l w b) :=
  ⟨hw, hb, fun h => nomatch h⟩

/-- The runs of the worked level sequence, and the run that localises. -/
theorem witness_LevelMovesByTheRuns :
    RunsOk (levelled .unmeasured .empty .empty) ∧ RunsOk (levelled .ok .empty .empty) ∧
      RunsOk (levelled .ok ⟨1, .warning⟩ .empty) ∧ RunsOk (levelled .ok ⟨1, .fault⟩ .empty) ∧
      RunsOk (levelled .warning .empty ⟨1, .ok⟩) ∧ RunsOk (levelled .warning .empty ⟨2, .ok⟩) ∧
      RunsOk (levelled .fault .empty ⟨2, .warning⟩) ∧ Machine.Class.ok ≠ .noClass ∧ Machine.Class.ok.level = .ok ∧
      (takeClass .fault ⟨0, 0, 0⟩ false (levelled .ok ⟨1, .warning⟩ .empty)).im.level = .warning ∧
      (takeClass .fault ⟨2000, 29, 3852⟩ true (levelled .ok ⟨1, .fault⟩ .empty)).im.meas = .localising ∧
      (takeClass .ok ⟨0, 0, 0⟩ false (levelled .warning .empty ⟨2, .ok⟩)).im.level = .ok := by
  refine ⟨witness_runsOk _ _ _ ?_ ?_, witness_runsOk _ _ _ ?_ ?_, witness_runsOk _ _ _ ?_ ?_, witness_runsOk _ _ _ ?_ ?_,
    witness_runsOk _ _ _ ?_ ?_, witness_runsOk _ _ _ ?_ ?_, witness_runsOk _ _ _ ?_ ?_, ?_, ?_, ?_, ?_, ?_⟩ <;> decide

/-- The result of measurement 120 of the worked localisation. -/
def placed : ResultRecord :=
  { number := 120, time := ⟨false, 20, 55800⟩, valid := true, reason := .noReason, va := 2719, vb := 453
    figures := ⟨2000, 800, 3852⟩, cls := .ok, settleA := 250, settleB := 250, leg := false, localise := true }

/-- The worked localisation at 1100 ms, entry 7 (R100); a result of class FAULT gives level FAULT. -/
theorem witness_LocalisationPlacesTheFault :
    let s : State := { depot with im := { depot.im with locRecord := some ⟨2000, 29, 3852⟩, entrySeq := 6 } }
    placed.localise = true ∧ s.im.locRecord = some ⟨2000, 29, 3852⟩ ∧ placed.valid = true ∧ placed.cls = .ok ∧
      s.im.faults.length < 8 ∧ s.im.entrySeq < 4294967295 ∧ s.im.level = placed.cls.level ∧ s.hc.leg = .disconnected ∧
      (applyResult placed s).hc.leg = .isolated ∧
      (applyResult placed s).im.faults.map (fun e => (e.seq, e.kind, e.figures)) = [(7, .heaterLeg, ⟨2000, 29, 3852⟩)] ∧
      (applyResult { placed with cls := .fault } s).im.level = .fault ∧ s.im.level ≠ .fault := by decide

/-- The result of measurement 119, valid with class `k`. -/
def sound (k : Machine.Class) : ResultRecord := { placed with number := 119, cls := k, localise := false }

/-- The first result of the worked verification: at UNMEASURED class OK gives the verdict; FAULT, an invalid result and a
localisation to FAULT give none (R21, R92). -/
theorem witness_ResultsAreKeptAppliedAndGiveTheVerdict :
    let s : State := { inSession .verifying with im := { depot.im with level := .unmeasured, age := some 7000 } }
    let warned : State := { s with im := { s.im with worse := ⟨1, .fault⟩ } }
    s.sc.state = .verifying ∧ (sound .ok).valid = true ∧ (resultEvent (sound .ok) s).im.level = .ok ∧
      (resultEvent (sound .ok) s).sc.state = .preheat ∧ (resultEvent (sound .ok) s).sc.verify = none ∧
      (resultEvent (sound .ok) s).im.age = some 0 ∧ (sound .fault).cls = .fault ∧
      (resultEvent (sound .fault) s).sc.state = .verifying ∧ (resultEvent (sound .fault) s).im.level = .unmeasured ∧
      (resultEvent (sound .fault) warned).sc.state = .lockedOut ∧
      (resultEvent { sound .noClass with valid := false } s).im.age = some 7000 ∧
      (resultEvent placed s).sc.state = .preheat ∧ (resultEvent (sound .ok) depot).sc.state = .connected := by decide +kernel

/-- A fall of 501 W is reported, one of 500 W is not. -/
theorem witness_DisturbancesRestartOnceThenEnd :
    let fell (n : Nat) : State := { phaseA with pc := { phaseA.pc with pCmd := phaseA.pc.pCmd - n } }
    phaseA.im.inPhase = true ∧ (fell 501).im.inPhase = true ∧ (fell 501).pc.pCmd + 500 < phaseA.pc.pCmd ∧
      ¬ (fell 500).pc.pCmd + 500 < phaseA.pc.pCmd ∧ phaseA.im.abandoned = 0 ∧ depot.im.inPhase = false ∧
      { phaseA.im with abandoned := 1 }.abandoned ≠ 0 ∧ (takeReports phaseA (fell 501)).im.abandoned = 1 := by decide

theorem witness_FaultTableIsAcknowledgedAndListed :
    twoFaults.resetLow = false ∧ (b8 [0, 0, 0, 7]).length = 4 ∧
      (∃ e ∈ twoFaults.im.faults, e.seq = u32 (b8 [0, 0, 0, 7]) 0) ∧
      (∀ e ∈ twoFaults.im.faults, e.seq ≠ u32 (b8 [0, 0, 0, 8]) 0) ∧ (b8 [1]).length = 1 ∧
      (twoFaults.im.faults[u8 (b8 [1]) 0]?).isSome = true ∧ twoFaults.im.faults.length ≤ u8 (b8 [2]) 0 := by decide +kernel

/-- A session G field that a set carries: below its maximum, and at it, where the group freezes (R113). -/
theorem witness_AllocationAccruesEveryShareOnce :
    let at_ (wh : Nat) : State := { charging with ea := { charging.ea with session := { Account.zero with g := ⟨wh, 35999999⟩ } } }
    (at_ 4294967294).resetLow = false ∧ (at_ 0).fe.latest = some calm ∧ (at_ 0).fe.dueEa = true ∧
      (at_ 0).ea.accruing = true ∧ depot.ea.accruing = false ∧
      (ran .eaAllocation (at_ 4294967294)).ea.session.g.wh = 4294967295 ∧
      (ran .eaAllocation (at_ 4294967294)).ea.session.gridFrozen = false ∧
      (ran .eaAllocation (at_ 4294967295)).ea.session.gridFrozen = true ∧
      (ran .eaAllocation depot).ea.unassigned = ⟨0, 7700000⟩ := by decide +kernel

/-- At q 8 and q 0; pending at 255 and lost at its maximum, where G is not added; the output in each state. -/
theorem witness_PulsesAreConserved :
    let full : State := { bench with ea := { bench.ea with pulses := 255, lost := 4294967295, acc := 5, pulse := .low } }
    depot.resetLow = false ∧ depot.fe.latest = some calm ∧ depot.fe.dueEa = true ∧ depot.ea.pulses ≤ 255 ∧
      depot.ea.lost ≤ 4294967295 ∧ 0 < pulseQuantum depot.cfg ∧
      pulseQuantum { depot.cfg with pulseWhInt := 0 } = 0 ∧ full.ea.pulses ≤ 255 ∧ full.ea.lost ≤ 4294967295 ∧
      (ran .eaAllocation full).ea.acc = 5 ∧ depot.ea.pulse = .ready ∧ { depot.ea with pulse := .high }.pulse = .high ∧
      full.ea.pulse = .low ∧ 0 < full.ea.pulses ∧ depot.ea.pulses = 0 := by decide +kernel

/-- SNAP_PERIOD_S at 0, one tick before its end and at it; a second that begins a minute and one that does not. -/
theorem witness_TicksAdvanceTheClockAndTheCounts :
    let p (n : Nat) : State := { depot with cfg := { depot.cfg with snapPeriodS := 10 }, se := { depot.se with periodic := n } }
    depot.resetLow = false ∧ depot.ct.timebase ≤ 1000 ∧ { depot.ct with timebase := 1000 }.timebase ≤ 1000 ∧
      depot.cfg.snapPeriodS = 0 ∧ 0 < (p 8).cfg.snapPeriodS ∧ (p 8).se.periodic + 1 < (p 8).cfg.snapPeriodS ∧
      (p 9).cfg.snapPeriodS ≤ (p 9).se.periodic + 1 ∧ depot.ct.interval = none ∧ (depot.ct.sec + 1) % 60 ≠ 0 ∧
      ({ depot.ct with sec := 59 }.sec + 1) % 60 = 0 ∧ ran .periodicTimerExpiry (p 8) = p 8 ∧
      { depot with resetLow := true }.resetLow = true := by decide +kernel

/-- 15:15 is a BOUNDARY, 16:00 a PERIOD, 15:15:01 neither; with the clock unset 900 s are a BOUNDARY. -/
theorem witness_TicksCloseIntervalsByCause :
    let i := quarter 6 54000 11506
    let s (sec : Nat) : State := afternoonAt sec 13306 412486 357 i
    let full : State := { s 57600 with rs := small, ct := { (s 57600).ct with held := some someRecord } }
    let unset : State := { s 54900 with ct := { (s 54900).ct with valid := false, elapsed := 899 } }
    (s 54900).resetLow = false ∧ (s 54900).ct.timebase ≤ 1000 ∧ (s 54900).ct.interval = some i ∧
      54900 % 60 = 0 ∧ 54900 / 60 % i.latched = 0 ∧ (∀ p ∈ afternoon, p.start ≠ 54900 / 60) ∧
      (∃ p ∈ afternoon, p.start = 57600 / 60) ∧ ((s 57600).ct.kind .fleet).active = some afternoon ∧ 1 < afternoon.length ∧
      billingRoom (s 54900) = true ∧ billingRoom full = false ∧ full.ct.held ≠ none ∧
      unset.ct.valid = false ∧ (unset.ct.elapsed + 1) % (60 * i.latched) = 0 ∧
      (ran .boundaryClose unset).ct.interval.map Interval.index = some 7 ∧ ran .boundaryClose (s 54901) = s 54901 := by
  decide +kernel

theorem witness_TimeSetClosesUnderTheOldClock :
    let i := quarter 6 54000 11506
    let s : State := afternoonAt 54900 13306 412486 357 i
    let full : State := { s with rs := small, ct := { s.ct with held := some someRecord } }
    s.resetLow = false ∧ (b8 [0, 20, 0, 0x01, 0x51, 0x80]).length = 6 ∧ 86399 < u32 (b8 [0, 20, 0, 0x01, 0x51, 0x80]) 2 ∧
      u32 (b8 [0, 20, 0, 0x01, 0x51, 0x7F]) 2 ≤ 86399 ∧ depot.ct.interval = none ∧ s.ct.interval = some i ∧
      billingRoom s = true ∧ billingRoom full = false ∧ full.ct.held ≠ none ∧
      (ran (.timeSet .t (b8 [0, 21, 0, 0, 0, 60])) s).ct.interval.map Interval.startSec = some 60 ∧
      (ran (.timeSet .t (b8 [0, 21, 0, 0, 0, 60])) full).ct.interval.map Interval.startSec = some 54000 := by decide +kernel

/-- A table of one period and one of eight, a start at 1439 and one at 1440, a count that is not the number of periods. -/
theorem witness_TariffTablesAreCheckedStagedAndApplied :
    let load (l : List Nat) (s : State) : Option Status := status .t (ran (.tariffLoad .t (b8 l)) s)
    let eight := [0, 8, 0, 0, 0, 1, 0, 1, 0, 2, 0, 2, 0, 3, 0, 3, 0, 4, 0, 4, 0, 5, 0, 5, 0, 6, 0, 6, 0, 7, 0x05, 0x9F, 0, 8]
    depot.resetLow = false ∧ (b8 eight).length = 2 + 4 * 8 ∧ (b8 [0, 1, 0, 0, 0, 22]).length = 2 + 4 * 1 ∧
      load eight depot = some .ok ∧ load [0, 1, 0, 0, 0, 22] depot = some .ok ∧
      load [0, 2, 0, 0, 0, 22, 0x05, 0x9F, 0, 31] depot = some .ok ∧
      load [0, 2, 0, 0, 0, 22, 0x05, 0xA0, 0, 31] depot = some .invalid ∧ load [0, 2, 0, 0, 0, 22] depot = some .invalid ∧
      load [0, 2, 0, 0, 0, 22, 0, 0, 0, 31] depot = some .invalid ∧
      charging.sc.state.isOpen = true ∧ charging.sc.record.payer = .fleet ∧ depot.sc.state.isOpen = false ∧
      (depot.ct.kind depot.sc.record.payer).staged = none ∧ (staged.ct.kind .fleet).staged = some afternoon ∧
      priceOf .fleet depot = 0 ∧ priceOf .fleet (afternoonAt 57600 0 0 0 (quarter 6 0 0)) = 31 ∧
      priceOf .fleet (afternoonAt 57601 0 0 0 (quarter 6 0 0)) = 45 := by decide +kernel

theorem witness_HeldAndFinalRecordsTakeTheRoom :
    let s : State := { closing with ct := { closing.ct with held := some someRecord, finalRecord := some someRecord } }
    s.resetLow = false ∧ s.ct.held = some someRecord ∧ billingRoom s = true ∧ depot.ct.held = none ∧
      billingRoom { s with rs := small } = false ∧ s.ct.finalRecord = some someRecord ∧ depot.ct.finalRecord = none ∧
      s.sc.state = .closing ∧ s.ct.held ≠ none := by decide +kernel

/-- The van with the small plan. -/
def stored : State := { depot with rs := small }

theorem defined_small (i : Nat) (a : Area) (h : small.defined i = some a) :
    (i = 0 ∧ a = ⟨0, 4⟩) ∨ (i = 1 ∧ a = ⟨4, 4⟩) ∨ (i = 2 ∧ a = ⟨8, 4⟩) ∨ (i = 3 ∧ a = ⟨12, 4⟩) := by
  match i, h with
  | 0, h => exact .inl ⟨rfl, (Option.some.inj h).symm⟩
  | 1, h => exact .inr (.inl ⟨rfl, (Option.some.inj h).symm⟩)
  | 2, h => exact .inr (.inr (.inl ⟨rfl, (Option.some.inj h).symm⟩))
  | 3, h => exact .inr (.inr (.inr ⟨rfl, (Option.some.inj h).symm⟩))
  | 4, h => exact nomatch h
  | 5, h => exact nomatch h
  | n + 6, h => simp [Store.defined, small] at h

theorem joined_small (st : Stream) (j : Join) (h : (small.stream st).join = some j) :
    (st = .billing ∧ j = ⟨0, .t, 0, 4⟩) ∨ (st = .events ∧ j = ⟨2, .t, 8, 1⟩) ∨ (st = .readings ∧ j = ⟨3, .c, 14, 4⟩) := by
  cases st with
  | billing => exact .inl ⟨rfl, (Option.some.inj h).symm⟩
  | insulation => exact nomatch h
  | events => exact .inr (.inl ⟨rfl, (Option.some.inj h).symm⟩)
  | readings => exact .inr (.inr ⟨rfl, (Option.some.inj h).symm⟩)

/-- The small plan meets the invariant of the store. -/
theorem witness_storeOk : StoreOk stored where
  slots := by decide
  sized i a h := by
    obtain ⟨-, rfl⟩ | ⟨-, rfl⟩ | ⟨-, rfl⟩ | ⟨-, rfl⟩ := defined_small i a h <;> exact ⟨by decide, by decide⟩
  apart i k a b ne hi hk := by
    obtain ⟨rfl, rfl⟩ | ⟨rfl, rfl⟩ | ⟨rfl, rfl⟩ | ⟨rfl, rfl⟩ := defined_small i a hi <;>
      obtain ⟨rfl, rfl⟩ | ⟨rfl, rfl⟩ | ⟨rfl, rfl⟩ | ⟨rfl, rfl⟩ := defined_small k b hk <;>
      first | exact absurd rfl ne | decide
  joins st j h := by
    obtain ⟨-, rfl⟩ | ⟨-, rfl⟩ | ⟨-, rfl⟩ := joined_small st j h
    · exact ⟨⟨0, 4⟩, by decide⟩
    · exact ⟨⟨8, 4⟩, by decide⟩
    · exact ⟨⟨12, 4⟩, by decide⟩
  filled st j k h hk := by
    obtain ⟨-, rfl⟩ | ⟨-, rfl⟩ | ⟨-, rfl⟩ := joined_small st j h <;> revert hk <;>
      · intro hk
        have : k < 4 := Nat.lt_of_lt_of_le hk (by decide)
        match k, hk with
        | 0, _ => decide
        | 1, h => first | decide | exact absurd h (by decide)
        | 2, h => first | decide | exact absurd h (by decide)
        | 3, h => first | decide | exact absurd h (by decide)
  own st st' j j' ne h h' := by
    obtain ⟨rfl, rfl⟩ | ⟨rfl, rfl⟩ | ⟨rfl, rfl⟩ := joined_small st j h <;>
      obtain ⟨rfl, rfl⟩ | ⟨rfl, rfl⟩ | ⟨rfl, rfl⟩ := joined_small st' j' h' <;>
      first | exact absurd rfl ne | decide

/-- An unjoined stream, one below its area's count, a full one, and full READINGS, whose oldest record of seq 6 gives way. -/
theorem witness_OffersFollowThePolicyOfTheStream :
    StoreOk stored ∧ (stored.rs.stream .insulation).join = none ∧
      ((stored.rs.stream .events).join = some ⟨2, .t, 8, 1⟩ ∧ stored.rs.defined 2 = some ⟨8, 4⟩ ∧ 1 < 4) ∧
      ((stored.rs.stream .billing).join = some ⟨0, .t, 0, 4⟩ ∧ stored.rs.defined 0 = some ⟨0, 4⟩) ∧
      ((stored.rs.stream .readings).join = some ⟨3, .c, 14, 4⟩ ∧ stored.rs.defined 3 = some ⟨12, 4⟩) ∧
      (offer .readings (.captured someCapture) stored).rs.readings = ⟨some ⟨3, .c, 15, 4⟩, 0, 1⟩ ∧
      slotGet (offer .readings (.captured someCapture) stored).rs.slots 14 = some (.captured someCapture) :=
  ⟨witness_storeOk, by decide +kernel⟩

/-- Areas 5 and 6; counts 3, 4, 256 and 257; a last slot of 255 and of 256; a run beside another area and one that meets it. -/
theorem witness_AreasAreSetAndClearedWhenFree :
    let set (l : List Nat) : Option Status := status .t (ran (.areaSet .t (b8 l)) stored)
    stored.resetLow = false ∧ (b8 [5, 16, 0, 4]).length = 4 ∧ ([5] : List Byte).length = 1 ∧
      set [5, 16, 0, 4] = some .ok ∧ set [6, 16, 0, 4] = some .invalid ∧ set [5, 16, 0, 3] = some .invalid ∧
      set [5, 252, 0, 4] = some .ok ∧ set [5, 253, 0, 4] = some .invalid ∧ set [5, 0, 1, 0] = some .overlap ∧
      set [5, 0, 1, 1] = some .invalid ∧ set [5, 15, 0, 4] = some .overlap ∧ set [3, 16, 0, 4] = some .busy ∧
      status .t (ran (.areaClear .t [5]) stored) = some .ok ∧ status .t (ran (.areaClear .t [6]) stored) = some .invalid ∧
      stored.rs.defined 0 = some ⟨0, 4⟩ ∧ stored.rs.defined 5 = none ∧ joinedCode stored.rs 0 = 0 ∧
      joinedCode stored.rs 1 = 4 := by decide +kernel

theorem witness_AreasAreSetAndClearedWhenFree_joined :
    StoreOk stored ∧ (∃ st j, (stored.rs.stream st).join = some j ∧ j.area = 0) ∧
      ∀ st j, (stored.rs.stream st).join = some j → j.area ≠ 5 := by
  refine ⟨witness_storeOk, ⟨.billing, _, rfl, rfl⟩, fun st j h => ?_⟩
  obtain ⟨-, rfl⟩ | ⟨-, rfl⟩ | ⟨-, rfl⟩ := joined_small st j h <;> decide

/-- The small plan with BILLING unjoined, a held record and a pending final one. -/
def waiting : State :=
  { depot with
    rs := { small with slots := [], billing := ⟨none, 0, 0⟩, events := ⟨none, 0, 0⟩, readings := ⟨none, 0, 0⟩ }
    ct := { depot.ct with held := some someRecord, finalRecord := some { someRecord with final := true } }
    sc := { depot.sc with finalPending := true } }

theorem witness_storeOk_waiting : StoreOk waiting where
  slots := by decide
  sized i a h := witness_storeOk.sized i a h
  apart i k a b ne hi hk := witness_storeOk.apart i k a b ne hi hk
  joins st j h := by cases st <;> exact nomatch h
  filled st j k h _ := by cases st <;> exact nomatch h
  own st _ j _ _ h _ := by cases st <;> exact nomatch h

/-- Stream codes 3 and 4, ports 3 and 4, areas defined and not; a JOIN of BILLING that places both waiting records; an UNJOIN
that is locked, not empty and forced. -/
theorem witness_StreamsAreJoinedAndReleased :
    let join (l : List Nat) : Option Status := status .t (ran (.join .t (b8 l)) stored)
    let t := ran (.join .t (b8 [0, 0, 3])) waiting
    stored.resetLow = false ∧ (b8 [1, 1, 3]).length = 3 ∧ join [1, 1, 3] = some .ok ∧ join [1, 1, 4] = some .invalid ∧
      join [1, 1, 0] = some .invalid ∧ join [4, 1, 3] = some .invalid ∧ join [1, 4, 3] = some .invalid ∧
      join [3, 1, 3] = some .busy ∧ waiting.ct.held = some someRecord ∧
      t.rs.billing.join = some ⟨0, .t, 0, 2⟩ ∧ t.ct.finalRecord = none ∧ t.sc.finalPending = false ∧
      (b8 [2, 0]).length = 2 ∧ status .t (ran (.unjoin .t (b8 [4, 0])) stored) = some .invalid ∧
      status .t (ran (.unjoin .t (b8 [1, 0])) stored) = some .notJoined ∧
      status .t (ran (.unjoin .t (b8 [0, 1])) { charging with rs := small }) = some .locked ∧
      status .t (ran (.unjoin .t (b8 [2, 0])) stored) = some .notEmpty ∧
      answer .t (ran (.unjoin .t (b8 [2, 1])) stored) ≠ none := by decide +kernel

theorem witness_StreamsAreJoinedAndReleased_store : StoreOk stored ∧ StoreOk waiting :=
  ⟨witness_storeOk, witness_storeOk_waiting⟩

/-- Positions 3 and 4 of four records; an ACK of 1 and one above the count; with a held and a pending final record. -/
theorem witness_ConsumersReadAndAcknowledgeFromTheOldest :
    let s : State := { stored with ct := waiting.ct, sc := waiting.sc }
    let ack (n : Nat) : State := ran (.streamAck .t (b8 [0, 0, n])) s
    stored.resetLow = false ∧ (b8 [0, 3]).length = 2 ∧ (b8 [0, 0, 1]).length = 3 ∧
      status .t (ran (.streamRead .t (b8 [0, 3])) stored) = some .ok ∧
      status .t (ran (.streamRead .t (b8 [0, 4])) stored) = some .empty ∧
      status .t (ran (.streamRead .t (b8 [4, 0])) stored) = some .invalid ∧
      status .t (ran (.streamRead .t (b8 [1, 0])) stored) = some .notJoined ∧
      status .t (ran (.streamRead .t (b8 [3, 0])) stored) = some .notConsumer ∧
      (ran (.streamAck .t (b8 [0, 0, 5])) stored).rs.billing.join = some ⟨0, .t, 0, 0⟩ ∧
      (ran (.streamAck .t (b8 [0, 0, 0])) s).ct.held = some someRecord ∧
      (ack 1).rs.billing.join = some ⟨0, .t, 1, 4⟩ ∧ (ack 2).rs.billing.join = some ⟨0, .t, 2, 4⟩ ∧
      (ack 2).ct.held = none ∧ (ack 2).sc.finalPending = false ∧
      s.ct.finalRecord = some { someRecord with final := true } ∧ (s.rs.area 0).count ≤ 4 - 1 + 1 ∧
      (ack 1).ct.held = some { someRecord with final := true } ∧ noticeT .billing (ack 1) = true ∧
      4 - 2 + 1 < (s.rs.area 0).count ∧
      recordAt ⟨0, .t, 2, 4⟩ 3 (ack 2).rs = some (.billing { someRecord with final := true }) := by decide +kernel

theorem witness_ConsumersReadAndAcknowledgeFromTheOldest_store :
    StoreOk { stored with ct := waiting.ct, sc := waiting.sc } :=
  ⟨witness_storeOk.slots, witness_storeOk.sized, witness_storeOk.apart, witness_storeOk.joins, witness_storeOk.filled,
    witness_storeOk.own⟩

/-- A disabled source, an enabled one that is not pending, and one that is, its missed count at 254 and at 255. -/
theorem witness_OccurrencesJoinOrAreMissed :
    let missed (n : Nat) : State := { capturing with se := { capturing.se with missed := vput capturing.se.missed 3 n } }
    (capturing.se.vectors.get 0).enabled = false ∧ (capturing.se.vectors.get 4).enabled = true ∧
      capturing.se.waiting.get 4 = none ∧ (capturing.se.vectors.get 3).enabled = true ∧
      capturing.se.waiting.get 3 = some ⟨⟨false, 20, 59400⟩, none⟩ ∧ capturing.resetLow = false ∧
      (occur .intervalClosed (missed 254)).se.missed.get 3 = 255 ∧ (occur .intervalClosed (missed 255)).se.missed.get 3 = 255 := by
  decide

/-- Source 3 with its chain of 4, 5, 6; a composition that runs its REPEAT count out, and one of count 3 that does not. -/
theorem witness_ChainsAreSelectedComposedAndCounted :
    let one := ran .snapshotSelection capturing
    let two := ran .compositionComplete one
    let three := ran .compositionComplete two
    capturing.resetLow = false ∧ capturing.se.service = none ∧
      capturing.se.waiting.get 3 = some ⟨⟨false, 20, 59400⟩, none⟩ ∧ (∀ i : Fin 12, i < 3 → capturing.se.waiting.get i = none) ∧
      (capturing.se.vectors.get 3).first ≤ 15 ∧ (capturing.se.desc 4).repeating = true ∧
      (∀ k : Fin 12, depot.se.waiting.get k = none) ∧
      one.se.service.map (fun v => (v.source, v.record.desc)) = some (3, 4) ∧ (one.se.desc 4).count ≤ 1 ∧
      two.se.service.map (fun v => (v.source, v.record.desc)) = some (3, 5) ∧ (two.se.desc 5).repeating = false ∧
      three.se.service.map (fun v => (v.source, v.record.desc)) = some (3, 6) ∧ 1 < (three.se.desc 6).count ∧
      (ran .compositionComplete three).se.service = none := by decide +kernel

/-- Index 15 and 16, mode 1 and 2, field set 5 and 6, stream 3 and 4, a reload of 0; source 11 and 12. -/
theorem witness_SnapshotTablesAreSetWithTheirChecks :
    let set (l : List Nat) : Option Status := status .t (ran (.descSet .t (b8 l)) capturing)
    let vector (l : List Nat) : Option Status := status .t (ran (.vectorSet .t (b8 l)) capturing)
    let t := ran (.descSet .t (b8 [8, 0, 0, 2, 0, 0, 0, 1, 0])) capturing
    let just := { capturing with se := { chained with justServed := [15] } }
    capturing.resetLow = false ∧ (∀ v, capturing.se.service = some v → 15 ∉ v.chain) ∧ 15 ∉ capturing.se.justServed ∧
      15 ∈ just.se.justServed ∧ status .t (ran (.descSet .t (b8 [15, 1, 5, 3, 0, 1, 0, 1, 0])) just) = some .busy ∧
      (ran .snapshotSelection capturing).se.service.map Service.chain = some [4, 5, 6] ∧ (b8 [15, 1, 5, 3, 0, 1, 0, 1, 0]).length = 9 ∧
      set [15, 1, 5, 3, 0, 1, 0, 1, 0] = some .ok ∧ set [16, 1, 5, 3, 0, 1, 0, 1, 0] = some .invalid ∧
      set [15, 2, 5, 3, 0, 1, 0, 1, 0] = some .invalid ∧ set [15, 1, 6, 3, 0, 1, 0, 1, 0] = some .invalid ∧
      set [15, 1, 5, 4, 0, 1, 0, 1, 0] = some .invalid ∧ set [15, 1, 5, 1, 0, 1, 0, 1, 0] = some .invalid ∧
      set [15, 1, 5, 2, 0, 1, 0, 0, 0] = some .clamped ∧ capturing.se.vectors.get 7 = ⟨true, 8⟩ ∧
      t.se.vectors.get 7 = ⟨false, 8⟩ ∧ t.se.waiting.get 7 = none ∧ (b8 [11, 1, 4]).length = 3 ∧
      vector [11, 1, 4] = some .ok ∧ vector [12, 1, 4] = some .invalid ∧ vector [11, 1, 16] = some .invalid ∧
      vector [11, 1, 15] = some .exhausted ∧ vector [11, 0, 15] = some .ok := by decide +kernel

/-- A length byte of 60 and of 61; a frame cut in its kind, after it, and whole; a right and a wrong check byte. -/
theorem witness_BrokenFramesAndFetch :
    let full : State := ran (.errClear .v []) depot
    depot.resetLow = false ∧ 60 < (61 : Byte).toNat ∧ ¬ 60 < (60 : Byte).toNat ∧
      ran (.framingError .v [] 0) depot = depot ∧ ran (.framingError .v [] 1) depot ≠ depot ∧
      ran (.framingError .v (b8 [0x20, 0, 0xAE]) 0) depot = depot ∧ ran (.framingError .v (b8 [0x20, 1, 0xAE]) 0) depot ≠ depot ∧
      ([] : List Byte).length ≤ 60 ∧ (0xAF : Byte) ≠ crc8 (b8 [0x20, 0]) ∧ (0xAE : Byte) = crc8 (b8 [0x20, 0]) ∧
      knownKind 0x37 = false ∧ knownKind 0x39 = true ∧ full.ports.v.reply ≠ none ∧ depot.ports.v.reply = none ∧
      (ran (.fetch .v []) full).ports.v.shiftsReply = true ∧ depot.ports.v.shiftsReply = false ∧
      { depot with resetLow := true }.resetLow = true := by decide +kernel

/-- The WAIT reply on the data output, and 0x00 past its check byte; nothing is driven with chip select high (R178, R181). -/
theorem test_dataOut :
    let t := ran (.fetch .v []) depot
    [0, 1, 2, 3, 4].map (fun k => dataOut .v (.afterFetch k) t) = (b8 [0x80, 2, 0, 0x21, 0]).map .drives ∧
      dataOut .v .frame t = .drives 0 ∧ dataOut .v .released t = .highImpedance ∧
      dataOut .v (.afterFetch 0) { t with resetLow := true } = .highImpedance := by decide +kernel

/-- An AREA_CLEAR from port V is refused PERMISSION, one of two bytes LENGTH, both with the area table (R149, R180). -/
theorem test_plan_refused_with_the_table :
    let table (s : State) : Option (Status × Nat × List Nat) :=
      (answer .v s).map fun x => (x.1, x.2.length, x.2.take 10)
    table (ran (.areaClear .v (b8 [4])) depot) = some (.permission, 30, [1, 0, 0, 96, 0, 1, 96, 0, 64, 1]) ∧
      table (ran (.areaClear .v (b8 [4, 0])) depot) = some (.length, 30, [1, 0, 0, 96, 0, 1, 96, 0, 64, 1]) := by
  decide +kernel

/-- A LIMITS of 7 bytes on V and of 8 on T; a SESSION_OPEN with a label of 16 and of 17; tables of 8 and 9 periods. -/
theorem witness_EveryRequestIsCheckedForLengthAndPort :
    let label (n : Nat) : List Byte := b8 ([0, 0, 0, 0, 0, n] ++ List.replicate n 0x41)
    depot.resetLow = false ∧ asRequest (.limits .v (b8 [0, 0, 0, 0, 0, 0, 0])) = some (.v, .limits, b8 [0, 0, 0, 0, 0, 0, 0]) ∧
      lengthOk .limits (b8 [0, 0, 0, 0, 0, 0, 0]) = false ∧ lengthOk .limits (b8 [0, 0, 0, 0, 0, 0, 0, 0]) = true ∧
      portOk .limits .t = false ∧ lengthOk .areaClear (b8 [4]) = true ∧ portOk .areaClear .v = false ∧
      lengthOk .areaClear (b8 [4, 0]) = false ∧ Instr.limits .v [] ≠ .fetch .v [] ∧ Kind.limits ≠ .sessionOpen ∧ Kind.limits ≠ .tariffLoad ∧
      lengthOk .sessionOpen (label 16) = true ∧ lengthOk .sessionOpen (label 17) = false ∧
      lengthOk .tariffLoad (List.replicate 34 0) = true ∧ lengthOk .tariffLoad (List.replicate 38 0) = false := by
  decide +kernel

/-- A value at the top of its range and above it; the owner and another port; each item that acts at once. -/
theorem witness_ItemsAreClampedStoredAndTakeEffect :
    let set (p : Port) (l : List Nat) (s : State) : Option Status := status p (ran (.configSet p (b8 l)) s)
    let end_ : State := ran (.configSet .v (b8 [0x09, 0x03, 0xE8])) { closing with
      pc := { closing.pc with pCmd := 0, derate := .trip } }
    depot.resetLow = false ∧ (b8 [0x20]).length = 1 ∧ (b8 [0x20, 0, 60]).length = 3 ∧ itemOf (u8 (b8 [0x28]) 0) = none ∧
      itemOf (u8 (b8 [0x27]) 0) = some .markReadings ∧ Port.v ≠ Item.billIntervalMin.owner ∧
      set .t [0x20, 0, 60] depot = some .ok ∧ set .t [0x20, 0, 61] depot = some .clamped ∧
      set .v [0x20, 0, 60] depot = some .permission ∧ set .v [0x28, 0, 60] depot = some .invalid ∧
      (ran (.configSet .v (b8 [0x03, 0x01, 0xF4])) depot).cfg.insFaultOpv = 490 ∧
      (ran (.configSet .v (b8 [0x0D, 0x03, 0x48])) depot).cfg.derateTWarm = 840 ∧
      (ran (.configSet .v (b8 [0x0F, 0x03, 0x5B])) depot).cfg.derateTTrip = 860 ∧
      (ran (.configSet .v (b8 [0x09, 0x03, 0xE8])) charging).pc.pCmd = 1000 ∧ end_.sc.state = .connected ∧
      (ran (.configSet .v (b8 [0x08, 0, 1])) { heating 4000 with hc := { (heating 4000).hc with idle := some 1000 } }).hc.leg =
        .disconnected ∧
      (ran (.configSet .v (b8 [0x08, 0, 1])) { heating 4000 with hc := { (heating 4000).hc with idle := some 999 } }).hc.leg =
        .connected := by decide +kernel

/-- Flag sets 4095 and 4096. -/
theorem witness_NoticesErrorsAndStatusOfAPort :
    depot.resetLow = false ∧ (b8 [0x0F, 0xFF]).length = 2 ∧ u16 (b8 [0x0F, 0xFF]) 0 ≤ 4095 ∧
      4095 < u16 (b8 [0x10, 0x00]) 0 ∧ noticeLine .t (raiseAll .session depot) = true ∧
      noticeLine .t (raiseAll .heater depot) = false := by decide +kernel

/-- Kinds and selectors 1 and 2, a table there and absent. -/
theorem witness_ReadingsAndTariffsAreReadWhole :
    depot.resetLow = false ∧ (b8 [1, 1]).length = 2 ∧ u8 (b8 [1, 1]) 0 ≤ 1 ∧ u8 (b8 [1, 1]) 1 ≤ 1 ∧
      1 < u8 (b8 [2, 1]) 0 ∧ 1 < u8 (b8 [1, 2]) 1 ∧ (staged.ct.kind .fleet).active = none ∧
      (staged.ct.kind .fleet).staged = some afternoon := by decide

/-- Record 8 of the worked afternoon on the wire (R191), and a body of 30 bytes and the bounds of a signed byte (R193). -/
theorem witness_RecordsAndFieldSetsHaveTheirLayouts :
    someCapture.body.length ≤ 30 ∧ (fieldBody .energy depot).length = 30 ∧ -(2 ^ 7 : Int) ≤ -128 ∧ (127 : Int) < 2 ^ 7 ∧
      beSigned 1 (-128) = [0x80] ∧ someRecord.wire.map BitVec.toNat =
        [1, 8, 0, 0, 0, 0, 0, 42, 0, 8, 0, 4, 0, 20, 0, 0, 0xD9, 0xF8, 0, 3, 0x84, 0, 31, 0, 0, 7, 8, 0, 0, 6, 0xA4,
          0, 0, 0, 0, 0, 0, 0, 100, 0, 0, 0, 0, 0, 0, 0, 0, 56] ∧
      depot.sc.limits = some ⟨200, 4100, 0, 0⟩ := by decide +kernel

/-- A step from a session in CHARGING at 9500 W. -/
theorem witness_CommandAndLockoutStayWithinTheirLimits :
    let s : State := { charging with pending := [.pcUpdate] }
    CommandOk s ∧ LockoutOk s ∧ ∃ t, step s = .next t :=
  ⟨⟨by decide, by decide, by decide, by decide⟩, ⟨by decide, by decide, fun _ => ⟨by decide, by decide⟩, by decide, by decide⟩, _, rfl⟩

/-- A step from a session with accounts that have taken worked allocation A. -/
theorem witness_AccountsItemsFaultTableAndRunsStaySound :
    let s : State := { ran .eaAllocation (due { calm with iHeat := 480 } charging) with pending := [.eaAllocation] }
    let f : State := { twoFaults with
      im := { twoFaults.im with worse := ⟨1, .fault⟩ }, pending := [.chassisSample (whole 53)] }
    (AccountsOk s ∧ s.ea.session.g = ⟨0, 7700000⟩ ∧ ItemsOk s ∧ ∃ t, step s = .next t) ∧
      FaultTableOk f ∧ RunsOk f ∧ ∃ t, step f = .next t := by
  refine ⟨⟨⟨rfl, rfl⟩, by decide, ⟨fun k => ?_, by decide, by decide⟩, _, rfl⟩, ⟨by decide, by decide, by decide⟩,
    ⟨by decide, by decide, by decide⟩, _, rfl⟩
  cases k <;> decide

/-- The small plan, and the chained capture under service. -/
theorem witness_StoreStaysSound :
    StoreOk { stored with pending := [.compositionComplete] } ∧
      SnapshotOk { ran .snapshotSelection capturing with pending := [.compositionComplete] } ∧
      (∃ t, step { stored with pending := [.compositionComplete] } = .next t) ∧
      ∃ t, step { ran .snapshotSelection capturing with pending := [.compositionComplete] } = .next t := by
  refine ⟨⟨witness_storeOk.slots, witness_storeOk.sized, witness_storeOk.apart, witness_storeOk.joins,
    witness_storeOk.filled, witness_storeOk.own⟩, ⟨by decide, by decide, fun v h => ?_⟩, ⟨_, rfl⟩, _, rfl⟩
  obtain rfl := Option.some.inj h
  decide

end Sys2Proof.Tests
end

/-! PROOFS. The hold mechanism of a temperature channel (R6), and what the end of a window leaves in the front end. -/

namespace Sys2Proof.Machine

/-! ## One open conversion -/

@[simp] theorem HoldChannel.convert_none_counter (h : HoldChannel) :
    (h.convert none).counter = min 11 (h.counter + 1) := rfl

theorem HoldChannel.convert_none_last (h : HoldChannel) :
    (h.convert none).last = if h.counter + 1 ≤ 10 then h.last else none := rfl

theorem deliverTemp_none_of_last_some {h : HoldChannel} {v : Int} (hv : h.last = some v) :
    deliverTemp none h = if h.counter + 1 ≤ 10 then ⟨v, .held⟩ else ⟨0, .missing⟩ := by
  simp only [deliverTemp, hv]

theorem deliverTemp_none_of_last_none {h : HoldChannel} (hv : h.last = none) :
    deliverTemp none h = ⟨0, .missing⟩ := by
  simp only [deliverTemp, hv]

/-! ## A run of open conversions -/

theorem HoldChannel.iterate_convert_none_counter (h : HoldChannel) (hc : h.counter ≤ 11) (n : Nat) :
    ((HoldChannel.convert none)^[n] h).counter = min 11 (h.counter + n) := by
  induction n with
  | zero => exact (min_eq_right hc).symm
  | succ n ih =>
    rw [Function.iterate_succ_apply', convert_none_counter, ih]
    omega

/-- The last valid value lives as long as the counter has not reached 11 (R6). -/
theorem HoldChannel.iterate_convert_none_last (h : HoldChannel) (hc : h.counter ≤ 10) (n : Nat) :
    ((HoldChannel.convert none)^[n] h).last = if h.counter + n ≤ 10 then h.last else none := by
  induction n with
  | zero => exact (if_pos hc).symm
  | succ n ih =>
    rw [Function.iterate_succ_apply', convert_none_last, ih, iterate_convert_none_counter h (by omega)]
    by_cases hn : h.counter + n + 1 ≤ 10
    · rw [if_pos (by omega), if_pos (by omega), if_pos (by omega)]
    · rw [if_neg (by omega), if_neg (by omega)]

/-- Open conversions bring back no value, whatever the counter. -/
theorem HoldChannel.iterate_convert_none_last_of_none (h : HoldChannel) (hv : h.last = none) (n : Nat) :
    ((HoldChannel.convert none)^[n] h).last = none := by
  induction n with
  | zero => exact hv
  | succ n ih => rw [Function.iterate_succ_apply', convert_none_last, ih, ite_self]

/-- What the next open conversion delivers after `n` of them, the channel holding `v` with a fresh counter. -/
theorem deliverTemp_iterate_convert_none (v : Int) (n : Nat) :
    deliverTemp none ((HoldChannel.convert none)^[n] ⟨some v, 0⟩) = if n < 10 then ⟨v, .held⟩ else ⟨0, .missing⟩ := by
  have hlast := HoldChannel.iterate_convert_none_last ⟨some v, 0⟩ (Nat.zero_le 10) n
  have hcount := HoldChannel.iterate_convert_none_counter ⟨some v, 0⟩ (Nat.zero_le 11) n
  simp only [Nat.zero_add] at hlast hcount
  by_cases hn : n ≤ 10
  · rw [if_pos hn] at hlast
    rw [deliverTemp_none_of_last_some hlast, hcount]
    exact if_congr (by omega) rfl rfl
  · rw [if_neg hn] at hlast
    rw [deliverTemp_none_of_last_none hlast, if_neg (by omega)]

/-! ## The end of a window -/

/-- An event that leaves the power command and the heater alone gives no disturbance report (R47, R72). -/
theorem takeReports_of_drive_eq {s t : State} (hpc : t.pc = s.pc) (hhc : t.hc = s.hc) : takeReports s t = t := by
  have hfell : commandFell s t = false := by simp [commandFell, hpc]
  have hdrive : driveOpened s t = false := by simp [driveOpened, hhc]
  simp [takeReports, hfell, hdrive]

/-- An event whose own work stays in the front end is that work. -/
theorem event_onFe {s : State} (hs : s.resetLow = false) (f : FrontEnd → FrontEnd) :
    event (fun s => s.onFe f) s = s.onFe f := by
  rw [event, hs]
  exact takeReports_of_drive_eq rfl rfl

theorem elapse_fe {s : State} (hs : s.resetLow = false) (dt : Nat) : (elapse dt s).fe = s.fe.elapse dt := by
  simp [elapse, hs]

theorem windowEnd_fe {s : State} (hs : s.resetLow = false) (w : Window) :
    (windowEnd w s).fe = (s.fe.elapse (100 - s.fe.windowMs)).deliver w := by
  have hlow : (elapse (100 - s.fe.windowMs) s).resetLow = false :=
    ((elapse_touches _ s).resetLow_eq).trans hs
  calc (windowEnd w s).fe
      = (event (fun s => s.onFe (FrontEnd.deliver w)) (elapse (100 - s.fe.windowMs) s)).fe := by
        simp [windowEnd, atEnd, hs]
    _ = (elapse (100 - s.fe.windowMs) s).fe.deliver w := by rw [event_onFe hlow, State.onFe_fe]
    _ = (s.fe.elapse (100 - s.fe.windowMs)).deliver w := by rw [elapse_fe hs]

theorem exec_sampleSetDelivery (w : Window) (s : State) : exec (.sampleSetDelivery w) s = .next (windowEnd w s) :=
  rfl

/-- Settles O7: the closed forms of a run of open conversions, and the front end at the end of a window. The time that passes
before the delivery leaves the four channels alone. -/
theorem holdBridgesTenSetsThenMissing : Obligations.HoldBridgesTenSetsThenMissing := by
  refine ⟨fun v n => ⟨deliverTemp_iterate_convert_none v n, ?_, ?_⟩, fun c n => ⟨?_, ?_, fun hc => ?_⟩, fun w s hs => ?_⟩
  · simpa using HoldChannel.iterate_convert_none_counter ⟨some v, 0⟩ (Nat.zero_le 11) n
  · simpa using HoldChannel.iterate_convert_none_last ⟨some v, 0⟩ (Nat.zero_le 10) n
  · exact deliverTemp_none_of_last_none (HoldChannel.iterate_convert_none_last_of_none ⟨none, c⟩ rfl n)
  · exact HoldChannel.iterate_convert_none_last_of_none ⟨none, c⟩ rfl n
  · exact HoldChannel.iterate_convert_none_counter ⟨none, c⟩ hc n
  · refine ⟨windowEnd w s, sampleOf w (s.fe.elapse (100 - s.fe.windowMs)), exec_sampleSetDelivery w s, ?_⟩
    rw [windowEnd_fe hs]
    exact ⟨rfl, rfl, rfl, rfl, rfl, rfl, rfl, rfl, rfl⟩

end Sys2Proof.Machine

/-! PROOFS. Requests that only read (R180), and what READING_GET and TARIFF_GET read (R119, R131). -/

namespace Sys2Proof.Machine

/-! ## What a request finds -/

theorem found_sc (p : Port) (s : State) : (found p s).sc = s.sc := (found_touches p s).sc_eq
theorem found_ea (p : Port) (s : State) : (found p s).ea = s.ea := (found_touches p s).ea_eq
theorem found_ct (p : Port) (s : State) : (found p s).ct = s.ct := (found_touches p s).ct_eq

/-- A request of the right length on a port of its own, answered without a change of state: the reply is all that is added to
what the request found (R180). There is nothing to report. -/
theorem request_of_answer_unchanged {p : Port} {k : Kind} {b body : List Byte} {act : State → Answer} {s : State}
    {x : Status} (hs : s.resetLow = false) (hlen : lengthOk k b = true) (hport : portOk k p = true)
    (hact : act (found p s) = ⟨found p s, x, body⟩) : request p k b act s = replies p k x body (found p s) := by
  have hans : answer p k b act (found p s) = ⟨found p s, x, body⟩ := by simp [answer, hlen, hport, hact]
  have hquiet : takeReports (found p s) (found p s) = found p s := takeReports_of_drive_eq rfl rfl
  calc request p k b act s
      = putReply p ⟨BitVec.ofNat 8 k.code, (answer p k b act (found p s)).status, (answer p k b act (found p s)).body⟩
          (takeReports (found p s) (answer p k b act (found p s)).state) := if_neg (by simp [hs])
    _ = replies p k x body (found p s) := by rw [hans, hquiet, replies]

/-! ## READING_GET (R119) -/

theorem exec_readingGet (p : Port) (b : List Byte) (s : State) :
    exec (.readingGet p b) s = .next (request p .readingGet b (fun s => ⟨s, .ok, readingBody s⟩) s) := rfl

/-- The readings are those of the session controller, the energy account and the clock and tariff unit. -/
theorem readingBody_congr {s t : State} (hsc : t.sc = s.sc) (hea : t.ea = s.ea) (hct : t.ct = s.ct) :
    readingBody t = readingBody s := by
  simp only [readingBody, hsc, hea, hct]

theorem readingBody_found (p : Port) (s : State) : readingBody (found p s) = readingBody s :=
  readingBody_congr (found_sc p s) (found_ea p s) (found_ct p s)

/-- READING_GET without a body asks for the readings and changes nothing (R119). -/
theorem exec_readingGet_nil (p : Port) {s : State} (hs : s.resetLow = false) :
    exec (.readingGet p []) s = .next (replies p .readingGet .ok (readingBody s) (found p s)) := by
  rw [exec_readingGet, request_of_answer_unchanged hs rfl rfl rfl, readingBody_found]

/-! ## TARIFF_GET (R131) -/

theorem exec_tariffGet (p : Port) (b : List Byte) (s : State) :
    exec (.tariffGet p b) s = .next (request p .tariffGet b (answerTariff b) s) := rfl

theorem payerOf_of_le_one {n : Nat} (h : n ≤ 1) : payerOf n = some (if n = 0 then .station else .fleet) := by
  obtain rfl | rfl := Nat.le_one_iff_eq_zero_or_eq_one.mp h <;> rfl

theorem payerOf_of_one_lt : {n : Nat} → 1 < n → payerOf n = none
  | _ + 2, _ => rfl

/-- A staged table hides the applied one from the status (R130). -/
theorem TariffKind.status_code (k : TariffKind) :
    k.status.code = if k.staged.isSome then 1 else if k.active.isSome then 2 else 0 := by
  obtain ⟨active, staged, generation⟩ := k
  cases staged with
  | some t => rfl
  | none => cases active <;> rfl

theorem periodsWire_eq_flatMap (t : List Period) : periodsWire t = t.flatMap fun x => be 2 x.start ++ be 2 x.price := by
  induction t with
  | nil => rfl
  | cons x t ih => rw [periodsWire, ih, List.flatMap_cons]

/-- What a TARIFF_GET reply carries before the periods: status and generation (R131, R194). -/
def TariffKind.head (k : TariffKind) : List Byte := b1 k.status.code ++ be 2 k.generation

theorem TariffKind.head_eq (k : TariffKind) :
    k.head = b1 (if k.staged.isSome then 1 else if k.active.isSome then 2 else 0) ++ be 2 k.generation := by
  rw [head, status_code]

theorem answerTariff_invalid {b : List Byte} (h : 1 < u8 b 0 ∨ 1 < u8 b 1) (s : State) :
    answerTariff b s = ⟨s, .invalid, []⟩ := by
  obtain hkind | hsel := h
  · rw [answerTariff, payerOf_of_one_lt hkind, refuse]
  · rw [answerTariff]
    split
    · rfl
    · rw [if_pos hsel, refuse]

section
variable {b : List Byte} {s : State} {k : Payer} (hk : payerOf (u8 b 0) = some k) (hsel : u8 b 1 ≤ 1)
include hk hsel

theorem answerTariff_of_selected_none (htab : (s.ct.kind k).selected (u8 b 1) = none) :
    answerTariff b s = ⟨s, .empty, (s.ct.kind k).head⟩ := by
  simp only [answerTariff, hk, Nat.not_lt.mpr hsel, if_false, htab, TariffKind.head]

theorem answerTariff_of_selected_some {t : List Period} (htab : (s.ct.kind k).selected (u8 b 1) = some t) :
    answerTariff b s = ⟨s, .ok, (s.ct.kind k).head ++ periodsWire t⟩ := by
  simp only [answerTariff, hk, Nat.not_lt.mpr hsel, if_false, htab, TariffKind.head]

end

/-- TARIFF_GET of two bytes adds to what it found the reply of the tariff unit, which only reads. -/
theorem exec_tariffGet_of_answer {p : Port} {b body : List Byte} {s : State} {x : Status} (hs : s.resetLow = false)
    (hlen : b.length = 2) (hact : answerTariff b (found p s) = ⟨found p s, x, body⟩) :
    exec (.tariffGet p b) s = .next (replies p .tariffGet x body (found p s)) := by
  have hok : lengthOk .tariffGet b = true := beq_iff_eq.mpr hlen
  rw [exec_tariffGet, request_of_answer_unchanged hs hok rfl hact]

/-- Settles O55: both requests answer with the found state as it is, and the found state has the blocks they read as they
were. -/
theorem readingsAndTariffsAreReadWhole : Obligations.ReadingsAndTariffsAreReadWhole := by
  refine fun p b s hs => ⟨exec_readingGet_nil p hs, fun hlen => ⟨fun hbad => ?_, fun hkind hsel => ?_⟩⟩
  · exact exec_tariffGet_of_answer hs hlen (answerTariff_invalid hbad _)
  · have hpayer := payerOf_of_le_one hkind
    rw [← found_ct p s]
    refine ⟨fun htab => ?_, fun t htab => ?_⟩
    · rw [exec_tariffGet_of_answer hs hlen (answerTariff_of_selected_none hpayer hsel htab), TariffKind.head_eq]
    · rw [exec_tariffGet_of_answer hs hlen (answerTariff_of_selected_some hpayer hsel htab), TariffKind.head_eq,
        periodsWire_eq_flatMap]

end Sys2Proof.Machine

/-! PROOFS. What the own work of each command may change: the blocks it reaches, and, of those, the ones it changes beyond the
background (Safety.lean). Every step invariant follows from `exec_keeps`. -/

namespace Sys2Proof.Machine

set_option Elab.async false

/-! ## Reach -/

/-- Outside the list, the background is the same in two states. -/
def Within (bs : List Block) (s t : State) : Prop := Touches bs (background s) (background t)

theorem Quiet.within {s t : State} (h : Quiet s t) (bs : List Block) : Within bs s t := by
  rw [Within, h]
  exact .refl _ _

/-- The background of a block is read off that block. -/
theorem Touches.within {bs : List Block} {s t : State} (h : Touches bs s t) : Within bs s t := by
  intro b hb
  have hsame := h b hb
  cases b <;> simp only [Same, background] at * <;> first | exact hsame | rw [hsame]

/-- What an operation may change: `bs` at all, `qs` beyond the background. -/
structure Reaches (bs qs : List Block) (s t : State) : Prop where
  frame : Touches bs s t
  within : Within qs s t

namespace Reaches

theorem refl (bs qs : List Block) (s : State) : Reaches bs qs s s := ⟨.refl _ _, .refl _ _⟩

theorem of_touches {bs : List Block} {s t : State} (h : Touches bs s t) : Reaches bs bs s t := ⟨h, h.within⟩

theorem of_quiet {bs : List Block} {s t : State} (h : Touches bs s t) (hq : Quiet s t) : Reaches bs [] s t :=
  ⟨h, hq.within _⟩

theorem mono {bs qs bs' qs' : List Block} {s t : State} (h : Reaches bs qs s t)
    (sub : bs.all (fun b => bs'.contains b) = true := by rfl)
    (subq : qs.all (fun b => qs'.contains b) = true := by rfl) : Reaches bs' qs' s t :=
  ⟨h.frame.mono sub, Touches.mono (s := background s) (t := background t) h.within subq⟩

/-- One more operation of a smaller reach. -/
theorem step {bs qs bs' qs' : List Block} {s t u : State} (h : Reaches bs' qs' s t) (h' : Reaches bs qs t u)
    (sub : bs.all (fun b => bs'.contains b) = true := by rfl)
    (subq : qs.all (fun b => qs'.contains b) = true := by rfl) : Reaches bs' qs' s u :=
  ⟨h.frame.trans (h'.mono sub subq).frame,
    Touches.trans (s := background s) (t := background t) h.within (h'.mono sub subq).within⟩

theorem ite {c : Prop} [Decidable c] {bs qs : List Block} {s t u : State} (h : Reaches bs qs s t)
    (h' : Reaches bs qs s u) : Reaches bs qs s (if c then t else u) := by
  split
  · exact h
  · exact h'

end Reaches

/-! ## Shared operations -/

theorem onFe_reaches (s : State) (f : FrontEnd → FrontEnd) : Reaches [.fe] [.fe] s (s.onFe f) := .of_touches (onFe_touches s f)
theorem onSc_reaches (s : State) (f : Session → Session) : Reaches [.sc] [.sc] s (s.onSc f) := .of_touches (onSc_touches s f)
theorem onPc_reaches (s : State) (f : Power → Power) : Reaches [.pc] [.pc] s (s.onPc f) := .of_touches (onPc_touches s f)
theorem onHc_reaches (s : State) (f : Heater → Heater) : Reaches [.hc] [.hc] s (s.onHc f) := .of_touches (onHc_touches s f)
theorem onIm_reaches (s : State) (f : Insulation → Insulation) : Reaches [.im] [.im] s (s.onIm f) :=
  .of_touches (onIm_touches s f)
theorem onEa_reaches (s : State) (f : EnergyAccount → EnergyAccount) : Reaches [.ea] [.ea] s (s.onEa f) :=
  .of_touches (onEa_touches s f)
theorem onCt_reaches (s : State) (f : ClockTariff → ClockTariff) : Reaches [.ct] [.ct] s (s.onCt f) :=
  .of_touches (onCt_touches s f)

theorem raiseAll_reaches (n : Notice) (s : State) : Reaches [.ports] [] s (raiseAll n s) :=
  .of_quiet (raiseAll_touches n s) (raiseAll_quiet n s)
theorem occur_reaches (src : Source) (s : State) : Reaches signals [] s (occur src s) :=
  .of_quiet (occur_touches src s) (occur_quiet src s)
theorem heaterEvent_reaches (s : State) : Reaches signals [] s (heaterEvent s) :=
  .of_quiet (heaterEvent_touches s) (heaterEvent_quiet s)
theorem recomputeNow_reaches (s : State) : Reaches [.pc, .hc] [] s (recomputeNow s) :=
  .of_quiet (recomputeNow_touches s) (recomputeNow_quiet s)
theorem setCommand_reaches (p : Nat) (s : State) : Reaches [.pc] [] s (setCommand p s) :=
  .of_quiet (setCommand_touches p s) (setCommand_quiet p s)
theorem holdMove_reaches (s : State) : Reaches moveBlocks [] s (holdMove s) :=
  .of_quiet (holdMove_touches s) (holdMove_quiet s)
theorem setState_reaches (x : SessionState) (s : State) : Reaches moveBlocks [] s (setState x s) :=
  .of_quiet (setState_touches x s) (setState_quiet x s)
theorem enterClosing_reaches (r : CloseReason) (s : State) : Reaches closeBlocks [] s (enterClosing r s) :=
  .of_quiet (enterClosing_touches r s) (enterClosing_quiet r s)
theorem commandZeroReached_reaches (s : State) : Reaches closeBlocks [] s (commandZeroReached s) :=
  .of_quiet (commandZeroReached_touches s) (commandZeroReached_quiet s)
theorem startMeasurement_reaches (l : Bool) (s : State) : Reaches [.fe, .im] [] s (startMeasurement l s) :=
  .of_quiet (startMeasurement_touches l s) (startMeasurement_quiet l s)
theorem endInvalid_reaches (why : InvalidReason) (u : Nat) (s : State) : Reaches workBlocks [] s (endInvalid why u s) :=
  .of_quiet (endInvalid_touches why u s) (endInvalid_quiet why u s)
theorem takeChassis_reaches (x : ChassisSample) (s : State) : Reaches workBlocks [] s (takeChassis x s) :=
  .of_quiet (takeChassis_touches x s) (takeChassis_quiet x s)

/-! ## The work of the session controller -/

theorem plugTransition_reaches (l : Plug) (s : State) : Reaches closeBlocks [.sc] s (plugTransition l s) := by
  obtain ⟨b, hq⟩ := plugTransition_quiet l s
  refine ⟨plugTransition_touches l s, ?_⟩
  exact Touches.trans (s := background s) (t := background (s.onSc fun c => { c with lossNow := b }))
    (onSc_touches s _).within (hq.within _)

theorem sampleMove_reaches (s : State) : Reaches moveBlocks [] s (sampleMove s) :=
  .of_quiet (sampleMove_touches s) (sampleMove_quiet s)

theorem scTake_reaches (x : SampleSet) (s : State) : Reaches closeBlocks [.sc] s (scTake x s) := by
  have h : Reaches closeBlocks [.sc] s (s.onSc fun c => (c.debounce x.plug).takeSet x) := (onSc_reaches s _).mono
  exact .ite (h.step (plugTransition_reaches _ _)) (h.step (sampleMove_reaches _))

theorem setStale_reaches (b : Bool) (s : State) : Reaches [.sc] [.sc] s (setStale b s) := onSc_reaches s _

theorem limitsExpire_reaches (s : State) : Reaches moveBlocks [.sc] s (limitsExpire s) :=
  (((((onSc_reaches s _).mono).step (raiseAll_reaches _ _)).step (setStale_reaches _ _)).step
    (holdMove_reaches _)).step (recomputeNow_reaches _)

theorem storeLimits_reaches (l : LimitsRecord) (s : State) : Reaches moveBlocks [.sc] s (storeLimits l s) := by
  have h : Reaches moveBlocks [.sc] s (s.onSc fun c => { c with limits := some l, validity := some 2000 }) :=
    (onSc_reaches s _).mono
  exact (((Reaches.ite h (h.step (occur_reaches _ _))).step (setStale_reaches _ _)).step (holdMove_reaches _)).step
    (recomputeNow_reaches _)

theorem limitUpdate_reaches (s : State) : Reaches closeBlocks [] s (limitUpdate s) := by
  have h : Reaches closeBlocks [] s (recomputeNow s) := (recomputeNow_reaches s).mono
  unfold limitUpdate
  dsimp only
  split
  · exact (h.step (setCommand_reaches _ _)).step (commandZeroReached_reaches _)
  · exact (h.step (setCommand_reaches _ _)).step (commandZeroReached_reaches _)
  · exact (h.step (setCommand_reaches _ _)).step (commandZeroReached_reaches _)
  all_goals exact h

theorem writeOffer_reaches (x : Nat) (s : State) : Reaches closeBlocks [.sc] s (writeOffer x s) := by
  have h : Reaches closeBlocks [.sc] s (s.onSc fun c => { c with record := { c.record with offer := x } }) :=
    (onSc_reaches s _).mono
  exact (Reaches.ite h (h.step (occur_reaches _ _))).step (limitUpdate_reaches _)

theorem writePause_reaches (x : Bool) (s : State) : Reaches moveBlocks [.sc] s (writePause x s) :=
  .ite (.refl _ _ _) (((onSc_reaches s _).mono).step (holdMove_reaches _))

theorem releaseLockout_reaches (s : State) : Reaches moveBlocks [.sc] s (releaseLockout s) :=
  ((onSc_reaches s _).mono).step (setState_reaches _ _)

theorem openSession_reaches (k : Payer) (x : Nat) (b : List Byte) (s : State) :
    Reaches (.ea :: moveBlocks) [.sc, .ea, .ct] s (openSession k x b s) := by
  refine ⟨openSession_touches k x b s, ?_⟩
  have h : Reaches (.ea :: moveBlocks) [.sc, .ea, .ct] s (stamped s) :=
    (Reaches.of_quiet (stamped_touches s) (stamped_quiet s)).mono
  exact ((((((h.step (onSc_reaches _ _)).step (onEa_reaches _ _)).step (onCt_reaches _ _)).step
    (onCt_reaches _ _)).step (setState_reaches _ _)).step (occur_reaches _ _)).within

theorem priorityRequest_reaches (s : State) : Reaches [.fe, .im] [] s (priorityRequest s) :=
  .of_quiet (priorityRequest_touches s) (priorityRequest_quiet s)

/-! ## The work of the power command -/

theorem takeDerate_reaches (x : SampleSet) (s : State) : Reaches closeBlocks [.pc] s (takeDerate x s) := by
  have h : Reaches closeBlocks [.pc] s
      (occur .derateChanged (raiseAll .derate (s.onPc fun p => { p with derate := derateAfter s.cfg x.tObc s.pc.derate }))) :=
    (((onPc_reaches s _).mono).step (raiseAll_reaches _ _)).step (occur_reaches _ _)
  exact .ite (.refl _ _ _) (.ite (h.step (.of_quiet (enterLockout_touches _ _) (enterLockout_quiet _ _))) h)

theorem takeSetpoint_reaches (x : SampleSet) (s : State) : Reaches closeBlocks [] s (takeSetpoint x s) := by
  have hrec (u : State) : Reaches closeBlocks [] u (recompute x.vBus u) :=
    (Reaches.of_quiet (recompute_touches _ u) (recompute_quiet _ u)).mono
  unfold takeSetpoint
  split
  · exact (hrec s).step (setCommand_reaches _ _)
  · exact (hrec s).step (setCommand_reaches _ _)
  · exact ((hrec s).step (setCommand_reaches _ _)).step (commandZeroReached_reaches _)
  all_goals exact ((setCommand_reaches 0 s).mono).step (hrec _)

theorem pcTake_reaches (x : SampleSet) (s : State) : Reaches closeBlocks [.pc] s (pcTake x s) :=
  (((takeDerate_reaches x s).step (onPc_reaches _ _)).step (onPc_reaches _ _)).step (takeSetpoint_reaches x _)

/-! ## The work of the heater controller -/

theorem evalThermostat_reaches (t : TempReading) (s : State) : Reaches (.hc :: signals) [.hc] s (evalThermostat t s) := by
  have h (f : Heater → Heater) : Reaches (.hc :: signals) [.hc] s (s.onHc f) := (onHc_reaches s f).mono
  exact .ite (.ite (h _) ((h _).step (heaterEvent_reaches _))) (h _)

theorem takeCheck_reaches (v i : Nat) (s : State) : Reaches (.hc :: signals) [.hc] s (takeCheck v i s) := by
  have h (f : Heater → Heater) : Reaches (.hc :: signals) [.hc] s (s.onHc f) := (onHc_reaches s f).mono
  unfold takeCheck
  split
  · exact .refl _ _ _
  · exact (h _).step (heaterEvent_reaches _)
  · exact .ite (h _) (.ite ((h _).step (heaterEvent_reaches _)) ((h _).step (heaterEvent_reaches _)))
  · exact .ite ((h _).step (heaterEvent_reaches _)) (.refl _ _ _)

theorem hcTake_reaches (x : SampleSet) (s : State) : Reaches (.hc :: signals) [.hc] s (hcTake x s) := by
  unfold hcTake
  dsimp only
  exact ((((onHc_reaches s _).mono.step (evalThermostat_reaches _ _)).step (onHc_reaches _ _)).step
    (takeCheck_reaches _ _ _)).step (onHc_reaches _ _)

theorem storeHeat_reaches (m : Bool) (t : Int) (s : State) : Reaches (.hc :: signals) [.hc] s (storeHeat m t s) := by
  have h : Reaches (.hc :: signals) [.hc] s (s.onHc fun h => { h with mode := m, target := t }) := (onHc_reaches s _).mono
  refine .ite (.refl _ _ _) ?_
  dsimp only
  split
  · exact h.step (evalThermostat_reaches _ _)
  · exact h.step (onHc_reaches _ _)

theorem legSettled_reaches (s : State) : Reaches [.fe, .im, .hc] [.hc] s (legSettled s) := by
  have h : Reaches [.fe, .im, .hc] [.hc] s (s.onHc fun h => { h with settle := none }) := (onHc_reaches s _).mono
  exact .ite (h.step (startMeasurement_reaches _ _)) h

/-! ## The work of the insulation monitor -/

theorem runningBegins_reaches (s : State) : Reaches [.fe, .im] [.im] s (runningBegins s) := by
  have h : Reaches [.fe, .im] [.im] s
      (s.onIm fun m => { m with running := true, cycleRun := true, cycleLeft := fullPeriod s }) := (onIm_reaches s _).mono
  exact .ite (h.step (startMeasurement_reaches _ _)) h

theorem imTake_reaches (x : SampleSet) (s : State) : Reaches workBlocks [.im] s (imTake x s) := by
  have h (f : Insulation → Insulation) : Reaches workBlocks [.im] s (s.onIm f) := (onIm_reaches s f).mono
  exact .ite ((runningBegins_reaches s).mono) (.ite (.ite ((h _).step (endInvalid_reaches _ _ _)) (h _)) (.refl _ _ _))

theorem insStart_reaches (s : State) : Reaches [.fe, .im] [.im] s (insStart s) := by
  have h : Reaches [.fe, .im] [.im] s (s.onIm fun m => { m with runRequested := true }) := (onIm_reaches s _).mono
  exact .ite (.refl _ _ _) (.ite (h.step (runningBegins_reaches _)) h)

theorem forcedStop_reaches (s : State) : Reaches [.fe, .hc, .im] [.im] s (forcedStop s) := by
  have h : Reaches [.fe, .hc, .im] [.im] s ((endMeasurement s).onIm fun m =>
      { m with runRequested := false, running := false, cycleRun := false, cycleLeft := fullPeriod (endMeasurement s)
               request := false }) :=
    ((Reaches.of_quiet (endMeasurement_touches s) (endMeasurement_quiet s)).mono).step (onIm_reaches _ _)
  exact .ite ((h.step (onIm_reaches _ _)).step (.of_quiet (releaseLeg_touches _) (releaseLeg_quiet _))) h

theorem cycleEnds_reaches (s : State) : Reaches [.fe, .im] [.im] s (cycleEnds s) := by
  have h : Reaches [.fe, .im] [.im] s (s.onIm fun m => { m with cycleRun := false, cycleLeft := 0 }) :=
    (onIm_reaches s _).mono
  exact .ite (h.step (startMeasurement_reaches _ _)) (h.step (onIm_reaches _ _))

theorem levelAges_reaches (s : State) : Reaches levelBlocks [.im] s (levelAges s) :=
  ((onIm_reaches s _).mono).step (.of_quiet (setLevel_touches _ _ _) (setLevel_quiet _ _ _))

/-! ## The work of the other blocks -/

theorem eaTake_reaches (x : SampleSet) (s : State) : Reaches [.ea, .ct] [.ea, .ct] s (eaTake x s) := by
  unfold eaTake
  dsimp only
  exact (onCt_reaches s _).mono.step (onEa_reaches _ _)

theorem applyStaged_reaches (k : Payer) (s : State) : Reaches (.ct :: signals) [] s (applyStaged k s) :=
  .of_quiet (applyStaged_touches k s) (applyStaged_quiet k s)

theorem realClose_reaches (r : BillingReason) (l : Bool) (i : Interval) (s : State) :
    Reaches billingBlocks [] s (realClose r l i s) := .of_quiet (realClose_touches r l i s) (realClose_quiet r l i s)

theorem lookUpPrice_reaches (s : State) : Reaches [.ct] [.ct] s (lookUpPrice s) := .of_touches (lookUpPrice_touches s)

theorem openInterval_reaches (i : Nat) (s : State) : Reaches [.ct] [.ct] s (openInterval i s) :=
  .of_touches (openInterval_touches i s)

theorem mergedClose_reaches (i : Interval) (s : State) : Reaches [.ct, .ports] [] s (mergedClose i s) :=
  .of_quiet (mergedClose_touches i s) (mergedClose_quiet i s)

theorem tickClose_reaches (r : BillingReason) (i : Interval) (s : State) :
    Reaches billingBlocks [.ct] s (tickClose r i s) :=
  .ite (((realClose_reaches r false i s).mono).step (openInterval_reaches _ _))
    (((mergedClose_reaches i s).mono).step (lookUpPrice_reaches _))

theorem closeAtTick_reaches (s : State) : Reaches billingBlocks [.ct] s (closeAtTick s) := by
  unfold closeAtTick
  dsimp only
  have h : Reaches billingBlocks [.ct] s (match s.ct.interval, tickCause s with
      | some i, some r => tickClose r i s
      | _, _ => s) := by
    split
    · exact tickClose_reaches _ _ s
    · exact .refl _ _ _
  exact .ite (h.step (lookUpPrice_reaches _)) h

theorem countPeriodic_reaches (s : State) : Reaches signals [.se] s (countPeriodic s) := by
  have h (f : SnapshotEngine → SnapshotEngine) : Reaches signals [.se] s (s.onSe f) :=
    (Reaches.of_touches (onSe_touches s f)).mono
  exact .ite ((h _).step (occur_reaches _ _)) (h _)

theorem tick_reaches (s : State) : Reaches (.im :: billingBlocks) [.ct, .im, .se] s (tick s) := by
  have h : Reaches (.im :: billingBlocks) [.ct, .im, .se] s (countSecond s) :=
    (Reaches.of_touches (countSecond_touches s)).mono
  exact .ite h ((h.step (closeAtTick_reaches _)).step (countPeriodic_reaches _))

theorem setTime_reaches (d n : Nat) (s : State) : Reaches billingBlocks [.ct] s (setTime d n s) := by
  unfold setTime
  split
  · exact ((onCt_reaches s _).mono).step (lookUpPrice_reaches _)
  · exact .ite ((((realClose_reaches _ _ _ s).mono).step (onCt_reaches _ _)).step (openInterval_reaches _ _))
      ((((mergedClose_reaches _ s).mono).step (onCt_reaches _ _)).step (lookUpPrice_reaches _))

theorem loadTable_reaches (k : Payer) (t : List Period) (s : State) : Reaches (.ct :: signals) [.ct] s (loadTable k t s) := by
  have h : Reaches (.ct :: signals) [.ct] s (s.onCt fun c => c.putKind k { c.kind k with staged := some t }) :=
    (onCt_reaches s _).mono
  exact .ite h (h.step (applyStaged_reaches _ _))

theorem placeFinal_reaches (s : State) : Reaches (.rs :: moveBlocks) [] s (placeFinal s) :=
  .of_quiet (placeFinal_touches s) (placeFinal_quiet s)

theorem billingGainsRoom_reaches (s : State) : Reaches (.rs :: moveBlocks) [] s (billingGainsRoom s) :=
  .of_quiet (billingGainsRoom_touches s) (billingGainsRoom_quiet s)

theorem joinStream_reaches (st : Stream) (i : Nat) (a : Area) (q : Port) (s : State) :
    Reaches (.rs :: moveBlocks) [.rs] s (joinStream st i a q s) := by
  have h : Reaches (.rs :: moveBlocks) [.rs] s (refreshStream (s.onRs fun r =>
      r.putStream st { r.stream st with join := some ⟨i, q, a.first, 0⟩ })) :=
    ((Reaches.of_touches (onRs_touches s _)).mono).step (.of_quiet (refreshStream_touches _) (refreshStream_quiet _))
  exact .ite (h.step (billingGainsRoom_reaches _)) h

theorem unjoinStream_reaches (st : Stream) (j : Join) (s : State) :
    Reaches [.rs, .ports] [.rs] s (unjoinStream st j s) :=
  ((Reaches.of_touches (onRs_touches s _)).mono).step (.of_quiet (refreshStream_touches _) (refreshStream_quiet _))

theorem ackStream_reaches (n : Nat) (st : Stream) (j : Join) (s : State) :
    Reaches (.rs :: moveBlocks) [.rs] s (ackStream n st j s).state := by
  have h : Reaches (.rs :: moveBlocks) [.rs] s (takeOldest st j n s) :=
    (((Reaches.of_touches (onRs_touches s _)).mono).step (.of_quiet (refreshStream_touches _) (refreshStream_quiet _)))
  exact .ite (h.step (billingGainsRoom_reaches _)) h

theorem consume_reaches {bs qs : List Block} (p : Port) (n : Nat) (act : Stream → Join → State → Answer) (s : State)
    (hp : bs.contains .ports = true) (hq : qs.contains .ports = true)
    (h : ∀ st j, (s.rs.stream st).join = some j → Reaches bs qs s (act st j s).state) :
    Reaches bs qs s (consume p n act s).state :=
  consume_keeps p n act s (.refl _ _ _)
    (fun _ ht => (Reaches.of_touches ht).mono (by simpa using hp) (by simpa using hq)) h

theorem idleLimit_reaches (s : State) : Reaches [.hc] [.hc] s (idleLimit s) := .of_touches (idleLimit_touches s)

theorem itemEffect_reaches (k : Item) (c : Bool) (s : State) :
    Reaches closeBlocks [.hc, .ea, .se, .ports] s (itemEffect k c s) := by
  cases k with
  | obcPmax | obcEff => exact .ite ((limitUpdate_reaches s).mono) (.refl _ _ _)
  | heatIdleS => exact .ite ((Reaches.of_touches (idleChanged_touches s)).mono) (.refl _ _ _)
  | pulseWhInt | pulseWhEighths => exact (onEa_reaches s _).mono
  | snapPeriodS => exact (Reaches.of_touches (onSe_touches s fun e => { e with periodic := 0 })).mono
  | markBilling | markInsulation | markEvents | markReadings =>
    exact (Reaches.of_touches (refreshStream_touches s)).mono
  | _ => exact .refl _ _ _

end Sys2Proof.Machine

/-! PROOFS. The command invariant principle: a property that notices, the passing of time and the disturbance reports keep is
kept by a command whose own work keeps it. -/

namespace Sys2Proof.Machine

set_option Elab.async false

/-! ## What the own work of a command reaches -/

/-- The blocks the own work of a command may change, and those it changes beyond the background: the work without the time
that passes before it, the taking of the request and the disturbance reports after it. -/
def workOf : Instr → List Block × List Block
  | .coldReset | .resetNFall | .resetNRise =>
    ([.resetLow, .fe, .sc, .pc, .hc, .im, .ea, .ct, .rs, .se, .ports, .cfg, .free],
      [.resetLow, .fe, .sc, .pc, .hc, .im, .ea, .ct, .rs, .se, .ports, .cfg, .free])
  | .sampleSetDelivery _ | .tempHoldExpiry _ => ([.fe], [.fe])
  | .scSampleTaking | .plugDebounceChange => (.fe :: closeBlocks, [.fe, .sc])
  | .pcUpdate | .derateWindowEnd => (.fe :: closeBlocks, [.fe, .pc])
  | .hcSampleTaking => (.fe :: .hc :: signals, [.fe, .hc])
  | .connectTimerExpiry | .idleTimerExpiry | .deferredIdleDisconnect | .blankingTimerExpiry => ([.hc], [.hc])
  | .settleTimerExpiry => ([.fe, .im, .hc], [.hc])
  | .imSampleTaking => (workBlocks, [.fe, .im])
  | .cycleCountdownExpiry => ([.fe, .im], [.im])
  | .pendingMeasurementStart | .measureNow _ _ => ([.fe, .im], [])
  | .chassisSample _ => (workBlocks, [.fe])
  | .phaseTimerExpiry => (workBlocks, [])
  | .levelAgeExpiry => (levelBlocks, [.im])
  | .limitsValidityExpiry | .limits _ _ | .lockoutRelease _ _ | .stationPause _ _ => (moveBlocks, [.sc])
  | .verificationTimerExpiry | .sessionClose _ _ => (closeBlocks, [])
  | .offerUpdate _ _ => (closeBlocks, [.sc])
  | .sessionOpen _ _ => (.fe :: .im :: .ea :: moveBlocks, [.sc, .ea, .ct])
  | .eaAllocation => ([.fe, .ea, .ct], [.fe, .ea, .ct])
  | .pulseHighEnd | .pulseLowEnd => ([.ea], [.ea])
  | .clockTick | .boundaryClose | .periodClose | .periodicTimerExpiry => (.im :: billingBlocks, [.ct, .im, .se])
  | .tariffApplyAtSessionEnd => (.ct :: signals, [])
  | .heldRecordAppend => ([.ct, .rs, .ports], [])
  | .pendingFinalPlaced => (.rs :: moveBlocks, [])
  | .snapshotSelection => ([.se, .free], [.se, .free])
  | .compositionComplete => ([.rs, .ports, .se, .free], [.rs, .ports, .se, .free])
  | .framingError _ _ _ | .overlongFrame _ _ _ | .crcError _ _ _ _ | .unknownKindRequest _ _ _ | .fetch _ _
  | .replyShiftComplete _ | .noticeClear _ _ | .noticeEnable _ _ | .errClear _ _ => ([.ports], [.ports])
  | .heatRequest _ _ | .heaterRestore _ _ => (.hc :: signals, [.hc])
  | .insStart _ _ => ([.fe, .im], [.im])
  | .insStop _ _ => ([.fe, .hc, .im], [.im])
  | .faultAck _ _ => ([.im], [.im])
  | .tariffLoad _ _ => (.ct :: signals, [.ct])
  | .statusGet _ _ => ([.free], [.free])
  | .readingGet _ _ | .faultList _ _ | .tariffGet _ _ | .configGet _ _ | .noticeGet _ _ => ([], [])
  | .configSet _ _ => (.cfg :: closeBlocks, [.cfg, .hc, .ea, .se, .ports])
  | .snapshotNow _ _ => (signals, [])
  | .timeSet _ _ => (billingBlocks, [.ct])
  | .areaSet _ _ | .areaClear _ _ => ([.rs, .free], [.rs, .free])
  | .join _ _ => (.rs :: moveBlocks, [.rs, .free])
  | .unjoin _ _ => ([.rs, .ports, .free], [.rs, .free])
  | .descSet _ _ | .vectorSet _ _ => ([.se], [.se])
  | .streamRead _ _ => ([.ports], [.ports])
  | .streamAck _ _ => (.rs :: moveBlocks, [.rs, .ports])
  | .pwmPeriodStart => ([.pc], [.pc])

/-! ## The answers of the owning blocks -/

theorem planReply_reaches (x : Status) (b : List Byte) (s : State) : Reaches [.free] [.free] s (planReply x b s).state :=
  .of_touches (draw_touches s)

theorem answerHeat_reaches (b : List Byte) (s : State) : Reaches (.hc :: signals) [.hc] s (answerHeat b s).state := by
  unfold answerHeat
  split
  · exact .refl _ _ _
  · exact storeHeat_reaches _ _ s

theorem answerRestore_reaches (b : List Byte) (s : State) : Reaches (.hc :: signals) [.hc] s (answerRestore b s).state := by
  unfold answerRestore
  dsimp only
  split
  · exact .refl _ _ _
  · split
    · exact .refl _ _ _
    · split
      · exact .refl _ _ _
      · exact (onHc_reaches s _).mono.step (heaterEvent_reaches _)

theorem answerMeasure_reaches (s : State) : Reaches [.fe, .im] [] s (answerMeasure s).state := by
  unfold answerMeasure
  split
  · exact .of_quiet (requestMeasurement_touches s) (requestMeasurement_quiet s)
  · exact .refl _ _ _

theorem answerAck_reaches (b : List Byte) (s : State) : Reaches [.im] [.im] s (answerAck b s).state := by
  unfold answerAck
  split
  · exact onIm_reaches s _
  · exact .refl _ _ _

theorem answerFaults_state (b : List Byte) (s : State) : (answerFaults b s).state = s := by
  unfold answerFaults
  split <;> rfl

theorem answerOpen_reaches (b : List Byte) (s : State) :
    Reaches (.fe :: .im :: .ea :: moveBlocks) [.sc, .ea, .ct] s (answerOpen b s).state := by
  unfold answerOpen
  split
  · exact .refl _ _ _
  · exact (openSession_reaches _ _ _ s).mono.step (priorityRequest_reaches _)

theorem answerOffer_reaches (b : List Byte) (s : State) : Reaches closeBlocks [.sc] s (answerOffer b s).state := by
  unfold answerOffer
  split
  · exact writeOffer_reaches _ s
  · exact .refl _ _ _

theorem answerPause_reaches (b : List Byte) (s : State) : Reaches moveBlocks [.sc] s (answerPause b s).state := by
  unfold answerPause
  split
  · exact writePause_reaches _ s
  · exact .refl _ _ _

theorem answerSessionClose_reaches (s : State) : Reaches closeBlocks [] s (answerSessionClose s).state := by
  unfold answerSessionClose
  split
  case h_5 => exact .refl _ _ _
  all_goals first | exact enterClosing_reaches _ s | (split <;> exact .refl _ _ _)

theorem answerRelease_reaches (s : State) : Reaches moveBlocks [.sc] s (answerRelease s).state := by
  unfold answerRelease
  split
  · exact .refl _ _ _
  · split
    · exact .refl _ _ _
    · exact releaseLockout_reaches s

theorem answerTime_reaches (b : List Byte) (s : State) : Reaches billingBlocks [.ct] s (answerTime b s).state := by
  unfold answerTime
  split
  · exact .refl _ _ _
  · exact setTime_reaches _ _ s

theorem answerLoad_reaches (p : Port) (b : List Byte) (s : State) :
    Reaches (.ct :: signals) [.ct] s (answerLoad p b s).state := by
  unfold answerLoad
  dsimp only
  split
  · exact loadTable_reaches _ _ s
  · exact .refl _ _ _

theorem answerTariff_state (b : List Byte) (s : State) : (answerTariff b s).state = s := by
  unfold answerTariff
  split
  · rfl
  · split
    · rfl
    · dsimp only
      split <;> rfl

theorem answerConfigGet_state (b : List Byte) (s : State) : (answerConfigGet b s).state = s := by
  unfold answerConfigGet
  split <;> rfl

theorem answerStatus_reaches (p : Port) (s : State) : Reaches [.free] [.free] s (answerStatus p s).state :=
  .ite (.of_touches (draw_touches s)) (.refl _ _ _)

theorem storeItem_reaches (k : Item) (v : Nat) (s : State) :
    Reaches (.cfg :: closeBlocks) [.cfg, .hc, .ea, .se, .ports] s (storeItem k v s) :=
  (Reaches.of_touches (onCfg_touches s _)).mono.step (itemEffect_reaches _ _ _)

theorem answerConfigSet_reaches (p : Port) (b : List Byte) (s : State) :
    Reaches (.cfg :: closeBlocks) [.cfg, .hc, .ea, .se, .ports] s (answerConfigSet p b s).state := by
  unfold answerConfigSet
  split
  · exact .refl _ _ _
  · split
    · exact .refl _ _ _
    · exact storeItem_reaches _ _ s

theorem answerClear_reaches (p : Port) (b : List Byte) (s : State) : Reaches [.ports] [.ports] s (answerClear p b s).state := by
  unfold answerClear
  split
  · exact .refl _ _ _
  · exact .of_touches (onPort_touches s _ _)

theorem answerEnable_reaches (p : Port) (b : List Byte) (s : State) :
    Reaches [.ports] [.ports] s (answerEnable p b s).state := by
  unfold answerEnable
  split
  · exact .refl _ _ _
  · exact .of_touches (onPort_touches s _ _)

theorem answerAreaSet_reaches (b : List Byte) (s : State) : Reaches [.rs, .free] [.rs, .free] s (answerAreaSet b s).state := by
  unfold answerAreaSet
  dsimp only
  split
  · exact (planReply_reaches _ _ s).mono
  · exact (Reaches.of_touches (onRs_touches s _)).mono.step (planReply_reaches _ _ _)

theorem answerAreaClear_reaches (b : List Byte) (s : State) :
    Reaches [.rs, .free] [.rs, .free] s (answerAreaClear b s).state := by
  unfold answerAreaClear
  split
  · exact (planReply_reaches _ _ s).mono
  · split
    · exact (planReply_reaches _ _ s).mono
    · exact (Reaches.of_touches (onRs_touches s _)).mono.step (planReply_reaches _ _ _)

theorem answerJoin_reaches (b : List Byte) (s : State) :
    Reaches (.rs :: moveBlocks) [.rs, .free] s (answerJoin b s).state := by
  unfold answerJoin
  split
  · split
    · exact (planReply_reaches _ _ s).mono
    · split
      · exact (planReply_reaches _ _ s).mono
      · exact (joinStream_reaches _ _ _ _ s).mono.step (planReply_reaches _ _ _)
  · exact (planReply_reaches _ _ s).mono

theorem answerUnjoin_reaches (b : List Byte) (s : State) :
    Reaches [.rs, .ports, .free] [.rs, .free] s (answerUnjoin b s).state := by
  unfold answerUnjoin
  split
  · exact (planReply_reaches _ _ s).mono
  · split
    · exact (planReply_reaches _ _ s).mono
    · split
      · exact (planReply_reaches _ _ s).mono
      · split
        · exact (planReply_reaches _ _ s).mono
        · exact (unjoinStream_reaches _ _ s).mono.step (planReply_reaches _ _ _)

theorem answerDesc_reaches (b : List Byte) (s : State) : Reaches [.se] [.se] s (answerDesc b s).state := by
  unfold answerDesc
  split
  · exact .refl _ _ _
  · split
    · exact .refl _ _ _
    · exact .of_touches (onSe_touches s _)

theorem answerVector_reaches (b : List Byte) (s : State) : Reaches [.se] [.se] s (answerVector b s).state := by
  unfold answerVector
  split
  · exact .refl _ _ _
  · split
    · exact .refl _ _ _
    · exact .of_touches (onSe_touches s _)

theorem readStream_state (k : Nat) (st : Stream) (j : Join) (s : State) : (readStream k st j s).state = s := by
  unfold readStream
  split <;> rfl

/-! ## The resets -/

theorem resetFalls_touches (s : State) : Touches [.resetLow, .fe, .ea, .se, .ports] s (resetFalls s) := by
  refine .ite (.refl _ _) fun b h => ?_
  cases b <;> first | rfl | simp at h

theorem warmValues_touches (s : State) :
    Touches [.resetLow, .fe, .sc, .pc, .hc, .im, .ea, .se, .ports] s (warmValues s) := fun b h => by
  cases b <;> first | rfl | simp at h

theorem coldReset_touches (s : State) :
    Touches [.resetLow, .fe, .sc, .pc, .hc, .im, .ea, .ct, .rs, .se, .ports, .cfg] s (coldReset s) := fun b h => by
  cases b <;> first | rfl | simp at h

theorem abortedClose_touches (s : State) : Touches closeBlocks s (abortedClose s) :=
  .ite (((finalClose_touches _ _ s).mono).step (answerClose_touches _)) ((markFinal_touches _ s).mono)

theorem resetRises_touches (s : State) :
    Touches [.resetLow, .fe, .sc, .pc, .hc, .im, .ea, .ct, .rs, .se, .ports, .free] s (resetRises s) :=
  .ite (((((((warmValues_touches s).mono).step (abortedClose_touches _)).step (applyStaged_touches _ _)).step
    (applyStaged_touches _ _)).step (refreshStream_touches _)).step (onEa_touches _ _)) (.refl _ _)

/-! ## The principle -/

/-- A command keeps a property that notices, time and reports keep, if each step of the reach of its own work keeps it. -/
theorem exec_keeps {P : State → Prop} (k : Kept P) (c : Instr)
    (hw : ∀ u v, Reaches (workOf c).1 (workOf c).2 u v → P u → P v) {s t : State} (ht : exec c s = .next t) (hs : P s) :
    P t := by
  have hevent (f : State → State) (hf : ∀ u, Reaches (workOf c).1 (workOf c).2 u (f u)) (u : State) (hu : P u) :
      P (event f u) := k.event f u hu fun h => hw _ _ (hf u) h
  have hend (left : Option Nat) (f : State → State) (hf : ∀ u, Reaches (workOf c).1 (workOf c).2 u (f u)) :
      P (atEnd left f s) := k.atEnd left f s hs fun _ _ h => hw _ _ (hf _) h
  have htaking (due : Bool) (f : SampleSet → State → State)
      (hf : ∀ x u, Reaches (workOf c).1 (workOf c).2 u (f x u)) : P (taking due f s) :=
    k.taking due f s hs fun x h => hw _ _ (hf x s) h
  have hrequest (p : Port) (n : Kind) (b : List Byte) (act : State → Answer)
      (hf : ∀ u, Reaches (workOf c).1 (workOf c).2 u (act u).state) : P (request p n b act s) :=
    k.request p n b act s hs fun u _ h => hw _ _ (hf u) h
  have hif (a : Prop) [Decidable a] (u : State) (hu : P u) : P (if a then u else s) := by
    split
    · exact hu
    · exact hs
  have hread (act : State → Answer) (h : ∀ u, (act u).state = u) (u : State) :
      Reaches (workOf c).1 (workOf c).2 u (act u).state := by rw [h]; exact .refl _ _ _
  have htick (h : Reaches (workOf c).1 (workOf c).2 (elapse (toNextTick s) s) (tick (elapse (toNextTick s) s))) :
      P (nextTick s) := hw _ _ h (k.elapse _ s hs)
  cases c <;> cases ht
  case coldReset => exact hw _ _ ((Reaches.of_touches (coldReset_touches s)).mono) hs
  case resetNFall => exact hw _ _ ((Reaches.of_touches (resetFalls_touches s)).mono) hs
  case resetNRise => exact hw _ _ ((Reaches.of_touches (resetRises_touches s)).mono) hs
  case sampleSetDelivery w => exact hend _ _ fun u => onFe_reaches u _
  case tempHoldExpiry w => exact hif _ _ (hend _ _ fun u => onFe_reaches u _)
  case scSampleTaking => exact htaking _ _ fun x u => (onFe_reaches u _).mono.step (scTake_reaches x _)
  case plugDebounceChange =>
    exact hif _ _ (htaking _ _ fun x u => (onFe_reaches u _).mono.step (scTake_reaches x _))
  case pcUpdate => exact htaking _ _ fun x u => (onFe_reaches u _).mono.step (pcTake_reaches x _)
  case derateWindowEnd => exact hif _ _ (htaking _ _ fun x u => (onFe_reaches u _).mono.step (pcTake_reaches x _))
  case hcSampleTaking => exact htaking _ _ fun x u => (onFe_reaches u _).mono.step (hcTake_reaches x _)
  case connectTimerExpiry => exact hend _ _ fun u => onHc_reaches u _
  case settleTimerExpiry => exact hend _ _ legSettled_reaches
  case idleTimerExpiry => exact hend _ _ idleLimit_reaches
  case deferredIdleDisconnect => exact hif _ _ (hevent _ (fun u => onHc_reaches u _) s hs)
  case blankingTimerExpiry => exact hend _ _ fun u => onHc_reaches u _
  case imSampleTaking => exact htaking _ _ fun x u => (onFe_reaches u _).mono.step (imTake_reaches x _)
  case cycleCountdownExpiry => exact hend _ _ cycleEnds_reaches
  case pendingMeasurementStart => exact hif _ _ (hevent _ (startMeasurement_reaches _) s hs)
  case chassisSample v => exact hend _ _ fun u => (onFe_reaches u _).mono.step (takeChassis_reaches _ _)
  case phaseTimerExpiry => exact hend _ _ fun u => endInvalid_reaches _ _ u
  case levelAgeExpiry => exact hend _ _ levelAges_reaches
  case limitsValidityExpiry => exact hend _ _ limitsExpire_reaches
  case verificationTimerExpiry => exact hend _ _ (enterClosing_reaches _)
  case eaAllocation => exact htaking _ _ fun x u => (onFe_reaches u _).mono.step (eaTake_reaches x _)
  case pulseHighEnd => exact hend _ _ fun u => onEa_reaches u _
  case pulseLowEnd => exact hend _ _ fun u => onEa_reaches u _
  case clockTick => exact htick (tick_reaches _)
  case boundaryClose => exact hif _ _ (htick (tick_reaches _))
  case periodClose => exact hif _ _ (htick (tick_reaches _))
  case periodicTimerExpiry => exact hif _ _ (htick (tick_reaches _))
  case tariffApplyAtSessionEnd =>
    split
    · exact hs
    · exact hevent _ (fun u => applyStaged_reaches _ u) s hs
  case heldRecordAppend => exact hevent _ (fun u => .of_quiet (appendHeld_touches u) (appendHeld_quiet u)) s hs
  case pendingFinalPlaced => exact hevent _ placeFinal_reaches s hs
  case snapshotSelection => exact hevent _ (fun u => .of_touches (select_touches u)) s hs
  case compositionComplete => exact hend _ _ fun u => .of_touches (complete_touches u)
  case framingError p r n =>
    exact hif _ _ (hevent _ (fun u => .of_touches ((onPort_touches u _ _).trans (recordError_touches _ _ _))) s hs)
  case overlongFrame p r n =>
    exact hif _ _ (hevent _ (fun u => .of_touches ((onPort_touches u _ _).trans (recordError_touches _ _ _))) s hs)
  case crcError p r n x =>
    exact hif _ _ (hevent _ (fun u => .of_touches ((onPort_touches u _ _).trans (recordError_touches _ _ _))) s hs)
  case unknownKindRequest p r n =>
    split
    · exact hs
    · exact hevent _ (fun u => .of_touches ((found_touches p u).trans (onPort_touches _ _ _))) s hs
  case fetch p b =>
    split
    · exact hevent _ (fun u => .of_touches ((onPort_touches u _ _).trans (onPort_touches _ _ _))) s hs
    · exact hrequest _ _ _ _ fun u => .refl _ _ _
  case replyShiftComplete p => exact hif _ _ (hevent _ (fun u => .of_touches (onPort_touches u _ _)) s hs)
  case limits p b => exact hrequest _ _ _ _ (storeLimits_reaches _)
  case heatRequest p b => exact hrequest _ _ _ _ (answerHeat_reaches b)
  case insStart p b => exact hrequest _ _ _ _ insStart_reaches
  case insStop p b => exact hrequest _ _ _ _ forcedStop_reaches
  case faultAck p b => exact hrequest _ _ _ _ (answerAck_reaches b)
  case lockoutRelease p b => exact hrequest _ _ _ _ answerRelease_reaches
  case heaterRestore p b => exact hrequest _ _ _ _ (answerRestore_reaches b)
  case measureNow p b => exact hrequest _ _ _ _ answerMeasure_reaches
  case sessionOpen p b => exact hrequest _ _ _ _ (answerOpen_reaches b)
  case offerUpdate p b => exact hrequest _ _ _ _ (answerOffer_reaches b)
  case stationPause p b => exact hrequest _ _ _ _ (answerPause_reaches b)
  case sessionClose p b => exact hrequest _ _ _ _ answerSessionClose_reaches
  case tariffLoad p b => exact hrequest _ _ _ _ (answerLoad_reaches p b)
  case statusGet p b => exact hrequest _ _ _ _ (answerStatus_reaches p)
  case readingGet p b => exact hrequest _ _ _ _ (hread _ fun _ => rfl)
  case faultList p b => exact hrequest _ _ _ _ (hread _ (answerFaults_state b))
  case tariffGet p b => exact hrequest _ _ _ _ (hread _ (answerTariff_state b))
  case configGet p b => exact hrequest _ _ _ _ (hread _ (answerConfigGet_state b))
  case configSet p b => exact hrequest _ _ _ _ (answerConfigSet_reaches p b)
  case snapshotNow p b =>
    exact hrequest _ _ _ _ fun u => .of_quiet (occurFrom_touches _ _ u) (occurFrom_quiet _ _ u)
  case noticeGet p b => exact hrequest _ _ _ _ (hread _ fun _ => rfl)
  case noticeClear p b => exact hrequest _ _ _ _ (answerClear_reaches p b)
  case noticeEnable p b => exact hrequest _ _ _ _ (answerEnable_reaches p b)
  case errClear p b => exact hrequest _ _ _ _ fun u => .of_touches (onPort_touches u _ _)
  case timeSet p b => exact hrequest _ _ _ _ (answerTime_reaches b)
  case areaSet p b => exact hrequest _ _ _ _ (answerAreaSet_reaches b)
  case areaClear p b => exact hrequest _ _ _ _ (answerAreaClear_reaches b)
  case join p b => exact hrequest _ _ _ _ (answerJoin_reaches b)
  case unjoin p b => exact hrequest _ _ _ _ (answerUnjoin_reaches b)
  case descSet p b => exact hrequest _ _ _ _ (answerDesc_reaches b)
  case vectorSet p b => exact hrequest _ _ _ _ (answerVector_reaches b)
  case streamRead p b =>
    exact hrequest _ _ _ _ fun u => consume_reaches p _ _ u rfl rfl fun st j _ => by
      rw [readStream_state]; exact .refl _ _ _
  case streamAck p b =>
    exact hrequest _ _ _ _ fun u => consume_reaches p _ _ u rfl rfl fun st j _ =>
      (ackStream_reaches _ st j u).mono
  case pwmPeriodStart => exact hend _ _ fun u => onPc_reaches u _

end Sys2Proof.Machine

/-! PROOFS. Every step keeps the command within its limits and the lockout conditions (R30, R38 to R46, R97). -/

namespace Sys2Proof.Machine

set_option Elab.async false

/-! ## From commands to steps -/

/-- A property that the queue takes no part in and every command keeps is kept by every step. -/
theorem step_keeps {P : State → Prop} (k : Kept P) (hq : ∀ s q, P s → P { s with pending := q })
    (hc : ∀ c s t, exec c s = .next t → P s → P t) {s t : State} (ht : step s = .next t) (hs : P s) : P t := by
  unfold step at ht
  split at ht
  · next c rest _ => exact hc c _ t ht (hq s rest hs)
  · cases ht
    exact k.elapse 1 s hs

/-! ## The shapes -/

/-- Of the monitor a tick advances the uptime count alone (R91). -/
theorem tick_im (s : State) :
    (tick s).im = if s.resetLow then s.im else { s.im with uptime := satAdd max32 s.im.uptime 1 } := by
  have hcount : (countSecond s).im = if s.resetLow then s.im else { s.im with uptime := satAdd max32 s.im.uptime 1 } := by
    cases h : s.resetLow <;> simp [countSecond, h]
  rw [← hcount]
  unfold tick
  dsimp only
  split
  · rfl
  · rw [(countPeriodic_touches _).im_eq, (closeAtTick_touches _).im_eq]

theorem elapse_calm (dt : Nat) (s : State) : Calm s (elapse dt s) := by
  unfold elapse
  dsimp only
  split <;> exact ⟨rfl, rfl, rfl, rfl, .refl _, rfl, rfl, rfl, rfl⟩

theorem elapse_level (dt : Nat) (s : State) : (elapse dt s).im.level = s.im.level := by
  unfold elapse
  dsimp only
  split <;> rfl

theorem elapse_stays (dt : Nat) (s : State) : Stays s (elapse dt s) :=
  ⟨elapse_level dt s, by rw [(elapse_calm dt s).state]; exact id⟩

theorem Sound.kept : Kept Sound where
  ports _ _ h a := a.touches (h.mono (cs := [.ports, .free]))
  elapse dt s a := a.calm (elapse_calm dt s) (elapse_stays dt s)
  reports s _ a := a.takeReports s

namespace Sound
variable {s : State}

/-! ## The session controller -/

theorem scTake (a : Sound s) (x : SampleSet) : Sound (Machine.scTake x s) := ⟨a.1.scTake x, a.2.stays (scTake_stays x s)⟩

theorem holdMove (a : Sound s) : Sound (Machine.holdMove s) := ⟨a.1.holdMove, a.2.stays (holdMove_stays s)⟩

theorem recomputeNow (a : Sound s) : Sound (Machine.recomputeNow s) :=
  a.calm (recomputeNow_calm s) (recomputeNow_touches s).stays

theorem setStale (a : Sound s) (b : Bool) : Sound (Machine.setStale b s) := by
  unfold Machine.setStale
  refine ⟨a.1.onSc_hold _ ?_ ?_ ?_ ?_, a.2.stays (onSc_stays s _ ?_)⟩
  case refine_3 => intro h; simp [h]
  all_goals split <;> rfl

/-- An update of the session controller outside what the clauses read. -/
theorem onSc (a : Sound s) (f : Session → Session) (h1 : (f s.sc).state = s.sc.state)
    (h2 : (f s.sc).lockout = s.sc.lockout) (h3 : (f s.sc).hold = s.sc.hold)
    (h4 : (f s.sc).record.offer = s.sc.record.offer) : Sound (s.onSc f) :=
  a.calm (onSc_calm s f h1 h2 h3 h4) (onSc_stays s f h1)

theorem limitsExpire (a : Sound s) : Sound (Machine.limitsExpire s) :=
  (((a.onSc _ rfl rfl rfl rfl).touches (raiseAll_touches .limitsStale _)).setStale true).holdMove.recomputeNow

theorem storeLimits (a : Sound s) (l : LimitsRecord) : Sound (Machine.storeLimits l s) := by
  have h : Sound (s.onSc fun c => { c with limits := some l, validity := some 2000 }) := a.onSc _ rfl rfl rfl rfl
  unfold Machine.storeLimits
  dsimp only
  split
  · exact (h.setStale false).holdMove.recomputeNow
  · exact ((h.touches (occur_touches .limitsChanged _)).setStale false).holdMove.recomputeNow

theorem enterClosing (a : Sound s) (h : s.sc.state ≠ .lockedOut) (r : CloseReason) : Sound (Machine.enterClosing r s) :=
  ⟨a.1.enterClosing h r, a.2.stays (enterClosing_stays r s h)⟩

end Sound

theorem Loose.calm {s t : State} (a : Loose s) (h : Calm s t) : Loose t where
  tens := by rw [h.command]; exact a.tens
  zero := by rw [h.command, h.state]; exact a.zero
  reasons := by rw [h.lockout, h.state]; exact a.reasons
  heater := by
    rw [h.state]
    intro hs
    exact h.heater.none (a.heater hs).1 (a.heater hs).2
  hold := by rw [h.hold, h.state]; exact a.hold

namespace Sound
variable {s : State}

/-- The new offer may stand below P_cmd until the limit update that follows it (R26, R44). -/
theorem writeOffer (a : Sound s) (x : Nat) : Sound (Machine.writeOffer x s) := by
  have h : Loose (s.onSc fun c => { c with record := { c.record with offer := x } }) :=
    ⟨a.1.tens, a.1.zero, a.1.reasons, a.1.heater, a.1.hold⟩
  have hstays : Stays s (s.onSc fun c => { c with record := { c.record with offer := x } }) := onSc_stays s _ rfl
  unfold Machine.writeOffer
  dsimp only
  split
  · exact ⟨h.limitUpdate, a.2.stays (hstays.trans (limitUpdate_stays _))⟩
  · exact ⟨(h.calm (occur_touches _ _).calm).limitUpdate,
      a.2.stays ((hstays.trans (occur_touches _ _).stays).trans (limitUpdate_stays _))⟩

/-- Outside an open session the hold reasons and the pause flag are not written (R25). -/
theorem writePause (a : Sound s) (hopen : s.sc.state.isOpen = true) (x : Bool) : Sound (Machine.writePause x s) := by
  unfold Machine.writePause
  split
  · exact a
  · refine Sound.holdMove ⟨a.1.onSc_hold _ rfl rfl (fun h => ?_) rfl, a.2.stays (onSc_stays s _ rfl)⟩
    rw [hopen] at h
    cases h

/-- A release finds the level sound (R33). -/
theorem releaseLockout (a : Sound s) (hlock : s.sc.state = .lockedOut) (hlevel : s.im.level.sound = true) :
    Sound (Machine.releaseLockout s) := by
  have h : Settled (s.onSc fun c => { c with lockout := .empty }) :=
    ⟨a.1.tens, a.1.station, a.1.charger, a.1.zero, fun _ => rfl, a.1.heater, a.1.hold⟩
  have hne : restingState s.sc ≠ .lockedOut := by unfold restingState; split <;> decide
  refine ⟨h.setState _ hne (fun _ => rfl) fun _ => a.1.hold (by rw [hlock]; rfl), fun hf => ?_⟩
  have : (Machine.releaseLockout s).im.level = s.im.level := by
    rw [Machine.releaseLockout, (setState_touches _ _).im_eq]; rfl
  rw [this] at hf
  rw [hf] at hlevel
  cases hlevel

/-- A session opens in CONNECTED, where P_cmd stands at 0 (R20, R45). -/
theorem openSession (a : Sound s) (hstate : s.sc.state = .connected) (k : Payer) (x : Nat) (b : List Byte) :
    Sound (Machine.openSession k x b s) := by
  unfold Machine.openSession
  extract_lets record u v w
  have hu : u.sc.state = .connected := by
    simp only [u, State.onSc_sc, (stamped_touches s).sc_eq, hstate]
  have hw : Touches [.ea, .ct] u w :=
    (((onEa_touches u _).mono).step (onCt_touches v _)).step (openInterval_touches 0 _)
  have hwsc : w.sc = u.sc := hw.sc_eq
  have hsc : (Machine.setState .verifying w).sc = { u.sc with state := .verifying } := by rw [setState_sc, hwsc]
  have hp : (Machine.setState .verifying w).pc.pCmd = 0 := by
    rw [setState_pCmd, hwsc, hu]; rfl
  have hlevel : (Machine.setState .verifying w).im.level = s.im.level := by
    rw [(setState_touches _ _).im_eq, hw.im_eq]
    exact congrArg Insulation.level (stamped_touches s).im_eq
  have hlockout : u.sc.lockout = s.sc.lockout := by
    simp only [u, State.onSc_sc, (stamped_touches s).sc_eq]
  have key : Sound (Machine.setState .verifying w) := by
    refine ⟨⟨by rw [hp], by rw [hp]; exact Nat.zero_le _, by rw [hp]; exact Nat.zero_le _, fun _ => hp, fun _ => ?_,
      fun h => ?_, fun h => ?_⟩, fun h => ?_⟩
    · rw [hsc]
      exact hlockout.trans (a.1.reasons (by rw [hstate]; decide))
    · rw [hsc] at h; cases h
    · rw [hsc] at h; cases h
    · rw [hlevel] at h
      exact absurd (a.2 h) (by rw [hstate]; decide)
  exact key.touches (occur_touches .sessionOpened _)

/-! ## The heater controller and the monitor -/

/-- An update of the heater that turns nothing on. -/
theorem onHc (a : Sound s) (f : Heater → Heater) (h : s.hc.OnlyOff (f s.hc)) : Sound (s.onHc f) :=
  a.calm (onHc_calm s f h) (onHc_touches s f).stays

theorem heaterEvent (a : Sound s) : Sound (Machine.heaterEvent s) := a.touches (heaterEvent_touches s)

theorem idleLimit (a : Sound s) : Sound (Machine.idleLimit s) := a.calm (idleLimit_calm s) (idleLimit_touches s).stays

theorem storeHeat (a : Sound s) (m : Bool) (t : Int) : Sound (Machine.storeHeat m t s) := by
  have h : Sound (s.onHc fun h => { h with mode := m, target := t }) := a.onHc _ (.refl s.hc)
  unfold Machine.storeHeat
  split
  · exact a
  · dsimp only
    split
    · exact h.calm (evalThermostat_calm _ _) (evalThermostat_touches _ _).stays
    · exact h.onHc _ (.refl s.hc)

theorem legSettled (a : Sound s) : Sound (Machine.legSettled s) := by
  have h : Sound (s.onHc fun h => { h with settle := none }) := a.onHc _ (.refl s.hc)
  unfold Machine.legSettled
  dsimp only
  split
  · exact h.startMeasurement true
  · exact h

theorem deferredDisconnect (a : Sound s) : Sound (Machine.deferredDisconnect s) := by
  unfold Machine.deferredDisconnect
  refine a.onHc _ ?_
  split
  · exact Heater.openLeg_onlyOff _
  · exact .refl s.hc

theorem insStart (a : Sound s) : Sound (Machine.insStart s) := by
  have h : Sound (s.onIm fun m => { m with runRequested := true }) := a.onIm _ rfl
  unfold Machine.insStart
  split
  · exact a
  · dsimp only
    split
    · exact h.runningBegins
    · exact h

theorem cycleEnds (a : Sound s) : Sound (Machine.cycleEnds s) := by
  have h : Sound (s.onIm fun m => { m with cycleRun := false, cycleLeft := 0 }) := a.onIm _ rfl
  unfold Machine.cycleEnds
  dsimp only
  split
  · exact h.startMeasurement false
  · exact h.onIm _ rfl

theorem levelAges (a : Sound s) : Sound (Machine.levelAges s) := Sound.setLevel (a.onIm _ rfl) .unknown _

/-! ## The items and the resets -/

/-- The limits do not read the items outside OBC_PMAX and OBC_EFF. -/
theorem onCfg (a : Sound s) (f : Items → Items) (h1 : (f s.cfg).obcEff = s.cfg.obcEff)
    (h2 : (f s.cfg).obcPmax = s.cfg.obcPmax) : Sound (s.onCfg f) := by
  have hst : lStationOf (s.onCfg f) = lStationOf s := by simp [lStationOf, h1]
  have hch : lObcOf (s.onCfg f) = lObcOf s := by simp [lObcOf, h2]
  exact ⟨⟨a.1.tens, hst ▸ a.1.station, hch ▸ a.1.charger, a.1.zero, a.1.reasons, a.1.heater, a.1.hold⟩, a.2⟩

theorem idleChanged (a : Sound s) : Sound (Machine.idleChanged s) := by
  unfold Machine.idleChanged
  split
  · exact a.idleLimit
  · exact a.onHc _ (.refl s.hc)

/-- A changed limit item may put a limit below P_cmd until the limit update that follows it (R44, R185). -/
theorem limitItem (a : Sound s) (k : Item) (v : Nat) :
    Sound (if decide (s.cfg.get k ≠ v) then Machine.limitUpdate (s.onCfg fun i => i.put k v) else s.onCfg fun i => i.put k v) := by
  split
  · have h : Loose (s.onCfg fun i => i.put k v) := ⟨a.1.tens, a.1.zero, a.1.reasons, a.1.heater, a.1.hold⟩
    have hlocks : FaultLocks (s.onCfg fun i => i.put k v) := a.2
    exact ⟨h.limitUpdate, hlocks.stays (limitUpdate_stays _)⟩
  · next h =>
    have hsame : s.cfg.get k = v := by simpa using h
    refine a.onCfg _ ?_ ?_ <;> subst hsame <;> cases k <;> rfl

theorem storeItem (a : Sound s) (k : Item) (v : Nat) : Sound (Machine.storeItem k v s) := by
  unfold Machine.storeItem
  cases k
  case obcPmax | obcEff => exact a.limitItem _ v
  case heatIdleS =>
    have h : Sound (s.onCfg fun i => i.put .heatIdleS v) := a.onCfg _ rfl rfl
    have hchange (b : Bool) : Sound (if b then Machine.idleChanged (s.onCfg fun i => i.put .heatIdleS v)
        else s.onCfg fun i => i.put .heatIdleS v) := by
      cases b
      · exact h
      · exact h.idleChanged
    exact hchange _
  case pulseWhInt | pulseWhEighths => exact (a.onCfg _ (by rfl) (by rfl)).touches (onEa_touches _ _)
  case snapPeriodS => exact (a.onCfg _ (by rfl) (by rfl)).touches (onSe_touches _ fun e => { e with periodic := 0 })
  case markBilling | markInsulation | markEvents | markReadings =>
    exact (a.onCfg _ (by rfl) (by rfl)).touches (refreshStream_touches _)
  all_goals
    dsimp only [itemEffect]
    exact a.onCfg _ rfl rfl

theorem warmValues (s : State) : Sound (Machine.warmValues s) := by
  have hoff (e : Element) : e.warm.isOn = false := by unfold Element.warm; split <;> rfl
  refine ⟨⟨rfl, Nat.zero_le _, Nat.zero_le _, fun _ => rfl, fun h => ?_, fun _ => ⟨hoff _, hoff _⟩, fun _ => rfl⟩, fun h => ?_⟩
  · have : s.sc.state ≠ .lockedOut := by
      intro e
      exact h (if_pos e)
    exact if_neg this
  · cases h

theorem abortedClose (a : Sound s) : Sound (Machine.abortedClose s) := by
  unfold Machine.abortedClose
  split
  · have h : Sound (finalClose .aborted false s) := a.calm (finalClose_calm _ _ _) (finalClose_touches _ _ _).stays
    exact ⟨h.1.answerClose, h.2.stays (answerClose_stays _)⟩
  · exact a.touches (markFinal_touches _ _)

theorem resetRises (a : Sound s) : Sound (Machine.resetRises s) := by
  unfold Machine.resetRises
  split
  · exact ((((Sound.warmValues s).abortedClose.touches (applyStaged_touches _ _)).touches (applyStaged_touches _ _)).touches
      (refreshStream_touches _)).touches (onEa_touches _ _)
  · exact a

/-! ## Every command -/

theorem exec {c : Instr} {t : State} (ht : Machine.exec c s = .next t) (a : Sound s) : Sound t := by
  have k := Sound.kept
  have hif (p : Prop) [Decidable p] (u : State) (hu : Sound u) : Sound (if p then u else s) := by
    split
    · exact hu
    · exact a
  have hsc : Sound (scSample s) := k.taking _ _ s a fun x h => (h.touches (onFe_touches _ _)).scTake x
  have hpc : Sound (pcUpdate s) := k.taking _ _ s a fun x h => (h.touches (onFe_touches _ _)).pcTake x
  have htick : Sound (nextTick s) := by
    have h : Sound (elapse (toNextTick s) s) := k.elapse _ s a
    refine h.calm (tick_touches _).calm ⟨?_, by rw [nextTick, (tick_touches _).sc_eq]; exact id⟩
    rw [nextTick, tick_im]
    split <;> rfl
  cases c
  case coldReset =>
    cases ht
    exact ⟨⟨rfl, Nat.zero_le _, Nat.zero_le _, fun _ => rfl, fun _ => rfl, nofun, fun _ => rfl⟩, nofun⟩
  case resetNFall =>
    cases ht
    exact a.touches (resetFalls_touches s)
  case resetNRise => cases ht; exact a.resetRises
  case scSampleTaking => cases ht; exact hsc
  case plugDebounceChange => cases ht; exact hif _ _ hsc
  case pcUpdate => cases ht; exact hpc
  case derateWindowEnd => cases ht; exact hif _ _ hpc
  case hcSampleTaking =>
    cases ht
    exact k.taking _ _ s a fun x h => (h.touches (onFe_touches _ _)).hcTake x
  case connectTimerExpiry => cases ht; exact k.atEnd _ _ s a fun dt _ h => h.onHc _ (.refl _)
  case settleTimerExpiry => cases ht; exact k.atEnd _ _ s a fun dt _ h => h.legSettled
  case idleTimerExpiry => cases ht; exact k.atEnd _ _ s a fun dt _ h => h.idleLimit
  case deferredIdleDisconnect => cases ht; exact hif _ _ (k.event _ s a fun h => h.deferredDisconnect)
  case blankingTimerExpiry => cases ht; exact k.atEnd _ _ s a fun dt _ h => h.onHc _ (.refl _)
  case imSampleTaking =>
    cases ht
    exact k.taking _ _ s a fun x h => (h.touches (onFe_touches _ _)).imTake x
  case cycleCountdownExpiry => cases ht; exact k.atEnd _ _ s a fun dt _ h => h.cycleEnds
  case pendingMeasurementStart => cases ht; exact hif _ _ (k.event _ s a fun h => h.startMeasurement false)
  case chassisSample v =>
    cases ht
    exact k.atEnd _ _ s a fun dt _ h => (h.touches (onFe_touches _ _)).takeChassis _
  case phaseTimerExpiry => cases ht; exact k.atEnd _ _ s a fun dt _ h => h.endInvalid _ _
  case levelAgeExpiry => cases ht; exact k.atEnd _ _ s a fun dt _ h => h.levelAges
  case limitsValidityExpiry => cases ht; exact k.atEnd _ _ s a fun dt _ h => h.limitsExpire
  case verificationTimerExpiry =>
    cases ht
    refine k.atEnd _ _ s a fun dt hdt h => h.enterClosing ?_ _
    rw [(elapse_calm dt s).state]
    intro e
    simp [e] at hdt
  case clockTick => cases ht; exact htick
  case boundaryClose => cases ht; exact hif _ _ htick
  case periodClose => cases ht; exact hif _ _ htick
  case periodicTimerExpiry => cases ht; exact hif _ _ htick
  case pendingFinalPlaced =>
    cases ht
    exact k.event _ s a fun h => ⟨h.1.placeFinal, h.2.stays (placeFinal_stays s)⟩
  case limits p b => cases ht; exact k.request _ _ _ _ s a fun u _ h => h.storeLimits _
  case heatRequest p b =>
    cases ht
    refine k.request _ _ _ _ s a fun u _ h => ?_
    unfold answerHeat
    split
    · exact h
    · exact h.storeHeat _ _
  case insStart p b => cases ht; exact k.request _ _ _ _ s a fun u _ h => h.insStart
  case insStop p b => cases ht; exact k.request _ _ _ _ s a fun u _ h => h.forcedStop
  case faultAck p b =>
    cases ht
    refine k.request _ _ _ _ s a fun u _ h => ?_
    unfold answerAck
    split
    · exact h.onIm _ rfl
    · exact h
  case lockoutRelease p b =>
    cases ht
    refine k.request _ _ _ _ s a fun u _ h => ?_
    unfold answerRelease
    split
    · exact h
    · next hlock =>
      split
      · exact h
      · next hblocks =>
        refine h.releaseLockout (not_not.mp hlock) ?_
        simp only [releaseBlocks, List.any_cons, id, Bool.or_eq_true, not_or] at hblocks
        simpa using hblocks.1
  case heaterRestore p b =>
    cases ht
    refine k.request _ _ _ _ s a fun u _ h => ?_
    unfold answerRestore
    dsimp only
    split
    · exact h
    · split
      · exact h
      · split
        · exact h
        · exact (h.onHc _ (Heater.restoreItems_onlyOff _ _)).heaterEvent
  case measureNow p b =>
    cases ht
    refine k.request _ _ _ _ s a fun u _ h => ?_
    unfold answerMeasure
    split
    · exact h.requestMeasurement
    · exact h
  case sessionOpen p b =>
    cases ht
    refine k.request _ _ _ _ s a fun u _ h => ?_
    unfold answerOpen
    split
    · exact h
    · next hnone =>
      refine (h.openSession ?_ _ _ _).priorityRequest
      unfold openRefusal at hnone
      cases hstate : u.sc.state <;> simp [hstate, SessionState.isOpen] at hnone ⊢
  case offerUpdate p b =>
    cases ht
    refine k.request _ _ _ _ s a fun u _ h => ?_
    unfold answerOffer
    split
    · exact h.writeOffer _
    · exact h
  case stationPause p b =>
    cases ht
    refine k.request _ _ _ _ s a fun u _ h => ?_
    unfold answerPause
    split
    · next hopen => exact h.writePause hopen _
    · exact h
  case sessionClose p b =>
    cases ht
    refine k.request _ _ _ _ s a fun u _ h => ?_
    unfold answerSessionClose
    split
    case h_5 => exact h
    case h_6 | h_7 | h_8 => split <;> exact h
    all_goals
      next hstate => exact h.enterClosing (by rw [hstate]; decide) _
  case configSet p b =>
    cases ht
    refine k.request _ _ _ _ s a fun u _ h => ?_
    unfold answerConfigSet
    split
    · exact h
    · split
      · exact h
      · exact h.storeItem _ _
  case join p b =>
    cases ht
    refine k.request _ _ _ _ s a fun u _ h => ?_
    unfold answerJoin
    have hgain {w : State} (hw : Sound w) : Sound (billingGainsRoom w) :=
      ⟨hw.1.billingGainsRoom, hw.2.stays (billingGainsRoom_stays w)⟩
    have hdraw {w : State} (hw : Sound w) : Sound w.draw := hw.touches (draw_touches w)
    split
    · split
      · exact hdraw h
      · split
        · exact hdraw h
        · refine hdraw ?_
          unfold joinStream
          dsimp only
          have hj (f : Store → Store) : Sound (refreshStream (u.onRs f)) :=
            (h.touches (onRs_touches u f)).touches (refreshStream_touches _)
          split
          · exact hgain (hj _)
          · exact hj _
    · exact hdraw h
  case streamAck p b =>
    cases ht
    refine k.request _ _ _ _ s a fun u _ h => ?_
    refine consume_keeps p _ _ u h (fun t ht => h.touches (ht.mono (cs := [.ports]))) fun st j _ => ?_
    have ho : Sound (takeOldest st j (u16 b 1) u) := h.touches (takeOldest_touches _ _ _ _)
    unfold ackStream
    dsimp only
    split
    · exact ⟨ho.1.billingGainsRoom, ho.2.stays (billingGainsRoom_stays _)⟩
    · exact ho
  case pwmPeriodStart =>
    cases ht
    exact k.atEnd _ _ s a fun dt _ h => h.calm ⟨rfl, rfl, rfl, rfl, .refl _, rfl, rfl, rfl, rfl⟩ ⟨rfl, id⟩
  all_goals
    exact exec_keeps k _ (fun u v h hu => hu.touches h.frame) ht a

end Sound

/-- Settles O58: both invariants together are the property `Sound`, which every command and the passing of time keep. -/
theorem commandAndLockoutStayWithinTheirLimits : Obligations.CommandAndLockoutStayWithinTheirLimits := by
  intro s t hc hl ht
  have hs : Sound s := (settled_iff s).mp ⟨hc, hl⟩
  have hsound : Sound t := step_keeps Sound.kept (fun u q h => ⟨⟨h.1.tens, h.1.station, h.1.charger, h.1.zero, h.1.reasons,
    h.1.heater, h.1.hold⟩, h.2⟩) (fun c u v hv hu => Sound.exec hv hu) ht hs
  exact (settled_iff t).mpr hsound

end Sys2Proof.Machine

/-! PROOFS. Every step keeps the accounts balanced and the items in their ranges (R109 to R111, R185, R186). -/

namespace Sys2Proof.Machine

set_option Elab.async false

/-! ## Accounts (R109 to R113) -/

theorem Energy.total_add (x : Nat) (e : Energy) : (e.add x).total = e.total + x := by
  unfold Energy.add Energy.total
  split
  · dsimp only; rw [Nat.add_mul]; omega
  · dsimp only; omega

theorem Account.balanced_zero : Account.zero.balanced := by
  simp [Account.balanced, Account.zero, Energy.total]

/-- The shares of a set split G (R109). -/
theorem sharesOf_split (x : SampleSet) : (sharesOf x).g = (sharesOf x).bg + (sharesOf x).hg + (sharesOf x).lg := by
  simp only [sharesOf]
  omega

theorem Account.balanced_accrue {a : Account} (h : a.balanced) (top : Nat) (x : SampleSet) :
    (a.accrue top (sharesOf x)).balanced := by
  have hgrid : (a.accrueGrid top (sharesOf x)).balanced := by
    unfold Account.accrueGrid
    split
    · exact h
    · unfold Account.balanced at h ⊢
      simp only [Energy.total_add, h, sharesOf_split x]
      omega
  unfold Account.accrue Account.accrueHb
  split <;> exact hgrid

theorem EnergyAccount.takePulse_accounts (a : EnergyAccount) :
    a.takePulse.session = a.session ∧ a.takePulse.lifetime = a.lifetime := by
  unfold takePulse
  split <;> exact ⟨rfl, rfl⟩

theorem EnergyAccount.turnOut_accounts (q : Nat) (a : EnergyAccount) :
    (a.turnOut q).session = a.session ∧ (a.turnOut q).lifetime = a.lifetime := ⟨rfl, rfl⟩

theorem EnergyAccount.feed_accounts (quantum g : Nat) (a : EnergyAccount) :
    (turnOut quantum { a with acc := a.acc + g }).takePulse.session = a.session ∧
      (turnOut quantum { a with acc := a.acc + g }).takePulse.lifetime = a.lifetime :=
  (takePulse_accounts _).imp (·.trans (turnOut_accounts _ _).1) (·.trans (turnOut_accounts _ _).2)

theorem EnergyAccount.feedPulses_of_pos {q : Nat} (h : q ≠ 0) (g : Nat) (a : EnergyAccount) :
    a.feedPulses q g =
      if (a.turnOut (q * eighthUnit)).stalled then (a.turnOut (q * eighthUnit)).takePulse
      else (turnOut (q * eighthUnit)
        { a.turnOut (q * eighthUnit) with acc := (a.turnOut (q * eighthUnit)).acc + g }).takePulse := if_neg h

theorem EnergyAccount.feedPulses_accounts (q g : Nat) (a : EnergyAccount) :
    (a.feedPulses q g).session = a.session ∧ (a.feedPulses q g).lifetime = a.lifetime := by
  by_cases hq : q = 0
  · subst hq
    exact ⟨rfl, rfl⟩
  · have hturn := turnOut_accounts (q * eighthUnit) a
    rw [feedPulses_of_pos hq]
    split
    · exact (takePulse_accounts _).imp (·.trans hturn.1) (·.trans hturn.2)
    · exact (feed_accounts _ _ _).imp (·.trans hturn.1) (·.trans hturn.2)

namespace AccountsOk
variable {s t : State}

theorem congr (h : AccountsOk s) (h1 : t.ea.session = s.ea.session) (h2 : t.ea.lifetime = s.ea.lifetime) :
    AccountsOk t := by
  unfold AccountsOk
  rw [h1, h2]
  exact h

/-- What leaves the background of the energy account leaves both accounts. -/
theorem within {qs : List Block} (h : AccountsOk s) (w : Within qs s t) (hq : qs.contains .ea = false := by rfl) :
    AccountsOk t := by
  have hea : { t.ea with accruing := false } = { s.ea with accruing := false } :=
    Touches.ea_eq (s := background s) (t := background t) w hq
  have hsession := congrArg EnergyAccount.session hea
  have hlifetime := congrArg EnergyAccount.lifetime hea
  exact h.congr hsession hlifetime

theorem kept : Kept AccountsOk where
  ports _ _ h a := a.within h.within
  elapse dt s a := by
    unfold elapse
    dsimp only
    split <;> exact a
  reports s t a := a.within ((takeReports_quiet s t).within [])

theorem eaTake (h : AccountsOk s) (x : SampleSet) : AccountsOk (Machine.eaTake x s) := by
  have hpulses := EnergyAccount.feedPulses_accounts (pulseQuantum s.cfg) (sharesOf x).g (s.ea.accrue (sharesOf x))
  have hkeep : (s.ea.accrue (sharesOf x)).session.balanced ∧ (s.ea.accrue (sharesOf x)).lifetime.balanced := by
    have hlife := Account.balanced_accrue h.2 max40 x
    unfold EnergyAccount.accrue
    dsimp only
    split
    · exact ⟨Account.balanced_accrue h.1 max32 x, hlife⟩
    · unfold EnergyAccount.accrueUnassigned
      split <;> exact ⟨h.1, hlife⟩
  refine ⟨?_, ?_⟩
  · show EnergyAccount.session (EnergyAccount.feedPulses _ _ _) |>.balanced
    rw [hpulses.1]
    exact hkeep.1
  · show EnergyAccount.lifetime (EnergyAccount.feedPulses _ _ _) |>.balanced
    rw [hpulses.2]
    exact hkeep.2

theorem openSession (h : AccountsOk s) (k : Payer) (x : Nat) (b : List Byte) :
    AccountsOk (Machine.openSession k x b s) := by
  unfold Machine.openSession
  extract_lets record u v w
  have hu : AccountsOk u := (h.within ((stamped_quiet s).within [])).within (onSc_touches (stamped s) _).within (qs := [.sc])
  have hv : AccountsOk v := ⟨Account.balanced_zero, hu.2⟩
  have hw : AccountsOk w := hv.within (((onCt_touches v _).trans (openInterval_touches 0 _)).within) (qs := [.ct])
  exact (hw.within ((setState_quiet _ _).within [])).within ((occur_quiet _ _).within [])

theorem resetRises (h : AccountsOk s) : AccountsOk (Machine.resetRises s) := by
  unfold Machine.resetRises
  split
  · have h0 : AccountsOk (warmValues s) := h
    have h1 : AccountsOk (abortedClose (warmValues s)) := by
      unfold abortedClose
      split
      · exact (h0.within ((finalClose_quiet _ _ _).within [])).within ((answerClose_quiet _).within [])
      · exact h0.within ((markFinal_quiet _ _).within [])
    have h2 := ((h1.within ((applyStaged_quiet .station _).within [])).within
      ((applyStaged_quiet .fleet _).within [])).within ((refreshStream_quiet _).within [])
    exact h2.congr (EnergyAccount.takePulse_accounts _).1 (EnergyAccount.takePulse_accounts _).2
  · exact h

theorem storeItem (h : AccountsOk s) (k : Item) (v : Nat) : AccountsOk (Machine.storeItem k v s) := by
  have hcfg : AccountsOk (s.onCfg fun i => i.put k v) := h
  unfold Machine.storeItem
  cases k
  case obcPmax | obcEff =>
    dsimp only [itemEffect]
    split
    · exact hcfg.within ((limitUpdate_reaches _).within)
    · exact hcfg
  case heatIdleS =>
    dsimp only [itemEffect]
    split
    · exact hcfg.within ((idleChanged_touches _).within)
    · exact hcfg
  case markBilling | markInsulation | markEvents | markReadings => exact hcfg.within ((refreshStream_quiet _).within [])
  case pulseWhInt | pulseWhEighths =>
    dsimp only [itemEffect]
    exact hcfg.congr (t := State.onEa _ _) rfl rfl
  case snapPeriodS =>
    dsimp only [itemEffect]
    exact hcfg.within ((onSe_touches _ _).within (bs := [.se]))
  all_goals exact hcfg

theorem exec {c : Instr} (ht : Machine.exec c s = .next t) (h : AccountsOk s) : AccountsOk t := by
  cases c
  case coldReset => cases ht; exact ⟨Account.balanced_zero, Account.balanced_zero⟩
  case resetNFall =>
    cases ht
    unfold resetFalls
    split <;> exact h
  case resetNRise => cases ht; exact h.resetRises
  case eaAllocation => cases ht; exact kept.taking _ _ s h fun x h => AccountsOk.eaTake (s := s.onFe FrontEnd.eaTook) h x
  case pulseHighEnd => cases ht; exact kept.atEnd _ _ s h fun _ _ h => h
  case pulseLowEnd =>
    cases ht
    refine kept.atEnd _ _ s h fun _ _ h => h.congr ?_ ?_
    · exact (EnergyAccount.takePulse_accounts _).1
    · exact (EnergyAccount.takePulse_accounts _).2
  case sessionOpen p b =>
    cases ht
    refine kept.request _ _ _ _ s h fun u _ h => ?_
    unfold answerOpen
    split
    · exact h
    · exact (h.openSession _ _ _).within ((priorityRequest_quiet _).within [])
  case configSet p b =>
    cases ht
    refine kept.request _ _ _ _ s h fun u _ h => ?_
    unfold answerConfigSet
    split
    · exact h
    · split
      · exact h
      · exact h.storeItem _ _
  all_goals exact exec_keeps kept _ (fun u v h hu => hu.within h.within) ht h

end AccountsOk

/-! ## Items (R185, R186) -/

theorem clampNat_mem {lo hi : Nat} (h : lo ≤ hi) (x : Nat) : lo ≤ clampNat lo hi x ∧ clampNat lo hi x ≤ hi := by
  unfold clampNat
  split
  · omega
  · split <;> omega

@[simp] theorem Items.get_put_self (i : Items) (k : Item) (x : Nat) : (i.put k x).get k = x := by cases k <;> rfl

theorem Items.get_put_other (i : Items) {k k' : Item} (h : k' ≠ k) (x : Nat) : (i.put k x).get k' = i.get k' := by
  cases k <;> cases k' <;> first | rfl | exact absurd rfl h

theorem Item.range_ordered (k : Item) : k.range.1 ≤ k.range.2 := by cases k <;> decide

namespace ItemsOk
variable {s t : State}

theorem congr (h : ItemsOk s) (hc : t.cfg = s.cfg) : ItemsOk t := by
  refine ⟨fun k => ?_, ?_, ?_⟩ <;> rw [hc]
  · exact h.ranges k
  · exact h.warmHot
  · exact h.hotTrip

/-- A clamped value lies in the range of its item: the further clamps stay inside it, the neighbours being in range. -/
theorem clampItem_mem (h : ItemsOk s) (k : Item) (x : Nat) :
    k.range.1 ≤ clampItem s.cfg k x ∧ clampItem s.cfg k x ≤ k.range.2 := by
  have hx := clampNat_mem k.range_ordered x
  have hinsWarn := h.ranges .insWarnOpv
  have hwarm := h.ranges .derateTWarm
  have hhot := h.ranges .derateTHot
  have htrip := h.ranges .derateTTrip
  have hwarmHot := h.warmHot
  have hhotTrip := h.hotTrip
  cases k
  case insFaultOpv =>
    simp only [clampItem, Item.range, Items.get] at *
    by_cases hle : s.cfg.insWarnOpv ≤ clampNat 50 500 x
    · simp only [hle, if_true]; omega
    · simp only [hle, if_false]; omega
  case derateTWarm | derateTHot | derateTTrip =>
    simp only [clampItem, Item.range, Items.get] at *
    omega
  all_goals exact hx

/-- A clamped value stored keeps each item in its range and the thresholds apart. -/
theorem put {k : Item} {x : Nat} (h : ItemsOk s) (hc : t.cfg = s.cfg.put k (clampItem s.cfg k x)) : ItemsOk t := by
  have hmem := h.clampItem_mem k x
  have hwarmHot := h.warmHot
  have hhotTrip := h.hotTrip
  refine ⟨fun k' => ?_, ?_, ?_⟩ <;> rw [hc]
  · by_cases hk : k' = k
    · subst hk
      rw [Items.get_put_self]
      exact hmem
    · rw [Items.get_put_other _ hk]
      exact h.ranges k'
  all_goals
    cases k
    case derateTWarm | derateTHot | derateTTrip =>
      simp only [Items.put, clampItem]
      omega
    all_goals first | exact hwarmHot | exact hhotTrip

theorem defaults (h : s.cfg = Items.reset) : ItemsOk s := by
  refine ⟨fun k => ?_, ?_, ?_⟩ <;> rw [h]
  · cases k <;> decide
  all_goals decide

theorem kept : Kept ItemsOk where
  ports _ _ h a := a.congr h.cfg_eq
  elapse dt s a := a.congr (elapse_touches dt s).cfg_eq
  reports s t a := a.congr (takeReports_touches s t).cfg_eq

theorem exec {c : Instr} (ht : Machine.exec c s = .next t) (h : ItemsOk s) : ItemsOk t := by
  cases c
  case coldReset => cases ht; exact defaults rfl
  case resetNFall => cases ht; exact h.congr (resetFalls_touches s).cfg_eq
  case resetNRise => cases ht; exact h.congr (resetRises_touches s).cfg_eq
  case configSet p b =>
    cases ht
    refine kept.request _ _ _ _ s h fun u _ h => ?_
    unfold answerConfigSet
    split
    · exact h
    · split
      · exact h
      · exact h.put (itemEffect_touches _ _ _).cfg_eq
  all_goals exact exec_keeps kept _ (fun u v h hu => hu.congr h.frame.cfg_eq) ht h

end ItemsOk

end Sys2Proof.Machine

/-! PROOFS. Every step keeps the fault table in order and the runs fitting the level (R93 to R95, R98, R102, R103). -/

namespace Sys2Proof.Machine

set_option Elab.async false

theorem elapse_im (dt : Nat) (s : State) : (elapse dt s).im = if s.resetLow then s.im else s.im.elapse dt := by
  cases h : s.resetLow <;> simp [elapse, h]

theorem resetRises_im (s : State) : (resetRises s).im = if s.resetLow then s.im.warm else s.im := by
  have hafter := (((((abortedClose_touches (warmValues s)).mono).step (applyStaged_touches .station _)).step
    (applyStaged_touches .fleet _)).step (refreshStream_touches _)).step (cs := .ea :: closeBlocks)
    (onEa_touches _ EnergyAccount.takePulse)
  cases h : s.resetLow
  · simp [resetRises, h]
  · simp only [resetRises, h, if_true]
    exact hafter.im_eq

theorem setLevel_of_ne {l : Level} {s : State} (h : s.im.level ≠ l) (x : Figures) :
    ∃ u : State, u.im = { s.im with level := l, worse := .empty, better := .empty } ∧
      (setLevel l x s).im = (match l.faultKind with | some k => appendFault k x u | none => u).im := by
  refine ⟨occur .levelChanged (raiseAll .insulation
    (s.onIm fun m => { m with level := l, worse := .empty, better := .empty })), ?_, ?_⟩
  · rw [(occur_touches _ _).im_eq]
    rfl
  · unfold setLevel
    rw [if_neg h]
    exact (takeLevel_touches l _).im_eq

/-! ## The fault table -/

namespace FaultTableOk
variable {s t : State}

theorem congr (h : FaultTableOk s) (hf : t.im.faults = s.im.faults) (hs : t.im.entrySeq = s.im.entrySeq) :
    FaultTableOk t := by
  refine ⟨?_, ?_, ?_⟩ <;> rw [hf]
  · exact h.room
  · exact h.rising
  · rw [hs]
    exact h.given

theorem touches {bs : List Block} (h : FaultTableOk s) (w : Touches bs s t) (hb : bs.contains .im = false := by rfl) :
    FaultTableOk t := by
  have him := w.im_eq hb
  exact h.congr (by rw [him]) (by rw [him])

/-- An entry goes in with a sequence above all given ones, and only where there is room (R102, R103). -/
theorem appendFault (h : FaultTableOk s) (k : FaultKind) (x : Figures) : FaultTableOk (Machine.appendFault k x s) := by
  unfold Machine.appendFault
  split
  · have hfull : FaultTableOk (s.onIm fun m => { m with overflow := true, overflowCount := satAdd 255 m.overflowCount 1 }) :=
      h.congr rfl rfl
    dsimp only
    split
    · exact hfull
    · exact hfull.touches (raiseAll_touches _ _)
  · next hroom =>
    have hstamp : FaultTableOk (stamped s) := h.touches (stamped_touches s)
    have him : (stamped s).im = s.im := (stamped_touches s).im_eq
    refine touches (s := State.onIm _ _) ⟨?_, ?_, ?_⟩ (raiseAll_touches _ _)
    · simp only [State.onIm_im, him, List.length_append, List.length_singleton]
      omega
    · simp only [State.onIm_im, List.map_append, List.map_cons, List.map_nil, List.pairwise_append]
      refine ⟨hstamp.rising, by simp, ?_⟩
      simp only [List.mem_map, List.mem_singleton]
      rintro _ ⟨e, he, rfl⟩ _ rfl
      exact Nat.lt_succ_of_le (hstamp.given e he)
    · simp only [State.onIm_im, List.mem_append, List.mem_singleton]
      rintro e (he | rfl)
      · exact Nat.le_succ_of_le (hstamp.given e he)
      · exact le_rfl

theorem setLevel (h : FaultTableOk s) (l : Level) (x : Figures) : FaultTableOk (Machine.setLevel l x s) := by
  by_cases hl : s.im.level = l
  · rw [Machine.setLevel, if_pos hl]
    exact h
  · obtain ⟨u, hu, ht⟩ := setLevel_of_ne hl x
    have hbase : FaultTableOk u := h.congr (by rw [hu]) (by rw [hu])
    refine congr (s := match l.faultKind with | some k => Machine.appendFault k x u | none => u) ?_ (by rw [ht]) (by rw [ht])
    split
    · exact hbase.appendFault _ _
    · exact hbase

theorem takeWorse (h : FaultTableOk s) (k : Class) (x : Figures) (leg : Bool) :
    FaultTableOk (Machine.takeWorse k x leg s) := by
  unfold Machine.takeWorse
  extract_lets run u
  have hu : FaultTableOk u := h.congr rfl rfl
  split
  · split
    · exact hu.congr rfl rfl
    · exact hu.setLevel _ _
  · exact hu

theorem takeBetter (h : FaultTableOk s) (k : Class) (x : Figures) : FaultTableOk (Machine.takeBetter k x s) := by
  unfold Machine.takeBetter
  extract_lets run u
  have hu : FaultTableOk u := h.congr rfl rfl
  split
  · exact hu.setLevel _ _
  · exact hu

theorem takeClass (h : FaultTableOk s) (k : Class) (x : Figures) (leg : Bool) :
    FaultTableOk (Machine.takeClass k x leg s) := by
  have hempty : FaultTableOk (emptyRuns s) := h.congr rfl rfl
  unfold Machine.takeClass
  split
  case h_4 =>
    split
    · exact hempty
    · split
      · exact h.takeWorse _ _ _
      · exact h.takeBetter _ _
  all_goals
    split
    · first | exact hempty | exact h.takeWorse _ _ _
    · first | exact h.takeBetter _ _ | exact h.takeWorse _ _ _ | exact h.setLevel _ _

theorem takeLocalisation (h : FaultTableOk s) (r : ResultRecord) : FaultTableOk (Machine.takeLocalisation r s) := by
  unfold Machine.takeLocalisation
  extract_lets rec0 u
  have hu : FaultTableOk u := h.congr rfl rfl
  split
  · exact congr (((hu.touches (isolateLeg_touches _)).appendFault .heaterLeg rec0).setLevel r.cls.level r.figures) rfl rfl
  · exact (hu.touches (releaseLeg_touches _)).setLevel _ _

theorem resultEvent (h : FaultTableOk s) (r : ResultRecord) : FaultTableOk (Machine.resultEvent r s) := by
  have hkept : FaultTableOk (keepResult r (offer .insulation (.result r) s)) :=
    congr (h.touches (offer_touches .insulation (.result r) s)) rfl rfl
  refine touches ?_ (seekVerdict_touches _ _ _)
  unfold applyResult
  split
  · exact hkept.takeLocalisation r
  · split
    · exact hkept.takeClass _ _ _
    · exact hkept

theorem endMeasurement (h : FaultTableOk s) : FaultTableOk (Machine.endMeasurement s) := h.congr rfl rfl

theorem startMeasurement (h : FaultTableOk s) (l : Bool) : FaultTableOk (Machine.startMeasurement l s) := h.congr rfl rfl

theorem requestMeasurement (h : FaultTableOk s) : FaultTableOk (Machine.requestMeasurement s) := by
  unfold Machine.requestMeasurement
  split
  · exact h.startMeasurement false
  · exact h.congr rfl rfl

theorem endInvalid (h : FaultTableOk s) (why : InvalidReason) (u : Nat) : FaultTableOk (Machine.endInvalid why u s) :=
  (h.endMeasurement.touches (stamped_touches _)).resultEvent _

theorem disturb (h : FaultTableOk s) : FaultTableOk (Machine.disturb s) := by
  unfold Machine.disturb
  split
  · split
    · exact h.congr rfl rfl
    · exact h.endInvalid _ _
  · exact h

theorem takeReports (before : State) (h : FaultTableOk s) : FaultTableOk (Machine.takeReports before s) := by
  have hcommand : FaultTableOk (if commandFell before s then Machine.disturb s else s) := by
    split
    · exact h.disturb
    · exact h
  unfold Machine.takeReports
  split
  · dsimp only
    split
    · exact hcommand.disturb
    · exact hcommand
  · exact h

theorem kept : Kept FaultTableOk where
  ports _ _ w h := h.touches w
  elapse dt s h := by
    refine h.congr ?_ ?_ <;> rw [elapse_im] <;> split <;> rfl
  reports s _ h := h.takeReports s

theorem takeChassis (h : FaultTableOk s) (x : ChassisSample) : FaultTableOk (Machine.takeChassis x s) := by
  unfold Machine.takeChassis
  dsimp only
  split
  case h_1 =>
    split
    · split <;> exact h.congr rfl rfl
    · exact h
  case h_2 =>
    split
    · split
      · exact (h.endMeasurement.touches (stamped_touches _)).resultEvent _
      · exact h.congr rfl rfl
    · exact h
  all_goals exact h

theorem runningBegins (h : FaultTableOk s) : FaultTableOk (Machine.runningBegins s) := by
  unfold Machine.runningBegins
  dsimp only
  split
  · exact startMeasurement (s := State.onIm _ _) (h.congr rfl rfl) false
  · exact h.congr rfl rfl

theorem imTake (h : FaultTableOk s) (x : SampleSet) : FaultTableOk (Machine.imTake x s) := by
  unfold Machine.imTake
  dsimp only
  split
  · exact h.runningBegins
  · split
    · unfold runningEnds
      dsimp only
      split
      · exact endInvalid (s := State.onIm _ _) (h.congr rfl rfl) _ _
      · exact h.congr rfl rfl
    · exact h

theorem insStart (h : FaultTableOk s) : FaultTableOk (Machine.insStart s) := by
  unfold Machine.insStart
  split
  · exact h
  · dsimp only
    split
    · exact runningBegins (s := State.onIm _ _) (h.congr rfl rfl)
    · exact h.congr rfl rfl

theorem forcedStop (h : FaultTableOk s) : FaultTableOk (Machine.forcedStop s) := by
  unfold Machine.forcedStop
  dsimp only
  split <;> exact h.congr rfl rfl

theorem cycleEnds (h : FaultTableOk s) : FaultTableOk (Machine.cycleEnds s) := by
  unfold Machine.cycleEnds
  dsimp only
  split <;> exact h.congr rfl rfl

theorem legSettled (h : FaultTableOk s) : FaultTableOk (Machine.legSettled s) := by
  unfold Machine.legSettled
  dsimp only
  split <;> exact h.congr rfl rfl

theorem levelAges (h : FaultTableOk s) : FaultTableOk (Machine.levelAges s) :=
  setLevel (s := State.onIm _ _) (h.congr rfl rfl) _ _

theorem tick (h : FaultTableOk s) : FaultTableOk (Machine.tick s) := by
  refine h.congr ?_ ?_ <;> rw [tick_im] <;> split <;> rfl

/-- What remains of a rising run of sequences still rises (R104). -/
theorem ackFault (h : FaultTableOk s) (n : Nat) : FaultTableOk (s.onIm (Insulation.ackFault n)) where
  room := (List.length_filter_le _ _).trans h.room
  rising := h.rising.sublist (List.filter_sublist.map _)
  given e he := h.given e (List.mem_filter.mp he).1

theorem coldReset : FaultTableOk (Machine.coldReset s) := ⟨Nat.zero_le _, List.Pairwise.nil, fun _ he => nomatch he⟩

theorem resetRises (h : FaultTableOk s) : FaultTableOk (Machine.resetRises s) := by
  refine h.congr ?_ ?_ <;> rw [resetRises_im] <;> split <;> rfl

end FaultTableOk

/-! ## The runs -/

theorem Level.rank_lt_fault {l : Level} (h : l ≠ .fault) : l.rank < Class.fault.rank := by
  cases l <;> first | decide | exact absurd rfl h

theorem floorOf_rank (r : Run) {k : Class} {n : Nat} (hk : n < k.rank) (hr : r.count = 0 ∨ n < r.bound.rank) :
    n < (floorOf r k).rank := by
  unfold floorOf
  split
  · exact hk
  · next h => exact hr.resolve_left fun h0 => h (.inl h0)

theorem ceilingOf_rank (r : Run) {k : Class} {n : Nat} (hk : k.rank < n) (hr : r.count = 0 ∨ r.bound.rank < n) :
    (ceilingOf r k).rank < n := by
  unfold ceilingOf
  split
  · exact hk
  · next h => exact hr.resolve_left fun h0 => h (.inl h0)

theorem classOf_ne_none (i : Items) (x : Figures) : classOf i x ≠ .noClass := by
  unfold classOf
  dsimp only
  split
  · decide
  · split <;> decide

namespace RunsOk
variable {s t : State}

theorem congr (h : RunsOk s) (hl : t.im.level = s.im.level) (hw : t.im.worse = s.im.worse) (hb : t.im.better = s.im.better)
    (hloc : t.im.localisationRuns = true → s.im.localisationRuns = true) : RunsOk t where
  worse := by rw [hw, hl]; exact h.worse
  better := by rw [hb, hl]; exact h.better
  localising hr := by rw [hl]; exact h.localising (hloc hr)

theorem of_im (h : RunsOk s) (him : t.im = s.im) : RunsOk t := h.congr (by rw [him]) (by rw [him]) (by rw [him]) (by rw [him]; exact id)

theorem touches {bs : List Block} (h : RunsOk s) (w : Touches bs s t) (hb : bs.contains .im = false := by rfl) :
    RunsOk t := h.of_im (w.im_eq hb)

/-- With both runs empty only a localisation is left to judge. -/
theorem of_empty (hw : t.im.worse = .empty) (hb : t.im.better = .empty)
    (hloc : t.im.localisationRuns = true → t.im.level ≠ .fault) : RunsOk t :=
  ⟨.inl (by rw [hw]; rfl), .inl (by rw [hb]; rfl), hloc⟩

end RunsOk

/-- A measurement in a phase is a localisation by its mark alone (R101). -/
theorem localise_of_runs {m : Insulation} (h : m.localisationRuns = true) (hm : m.meas = .phaseA ∨ m.meas = .phaseB) :
    m.localise = true := by
  simp only [Insulation.localisationRuns, Bool.or_eq_true, beq_iff_eq, Bool.and_eq_true] at h
  exact (h.resolve_left (by rcases hm with hm | hm <;> simp [hm])).2

theorem localisationRuns_of_idle {m : Insulation} (h : m.meas = .idle) : m.localisationRuns = false := by
  simp [Insulation.localisationRuns, Insulation.busy, h]

theorem appendFault_runs (k : FaultKind) (x : Figures) (s : State) :
    (appendFault k x s).im = { s.im with
      faults := (appendFault k x s).im.faults
      entrySeq := (appendFault k x s).im.entrySeq
      overflow := (appendFault k x s).im.overflow
      overflowCount := (appendFault k x s).im.overflowCount } := by
  unfold appendFault
  split
  · dsimp only
    split <;> rfl
  · have him : (stamped s).im = s.im := (stamped_touches s).im_eq
    simp only [raiseAll, State.onPorts_im, State.onIm_im, him]

/-- After a result the monitor is in no measurement; a new localisation alone leaves it (R92, R98). -/
structure RunsIdle (s : State) : Prop where
  runs : RunsOk s
  idle : s.im.meas = .idle

namespace RunsIdle
variable {s t : State}

theorem of_im (h : RunsIdle s) (him : t.im = s.im) : RunsIdle t := ⟨h.runs.of_im him, by rw [him]; exact h.idle⟩

theorem touches {bs : List Block} (h : RunsIdle s) (w : Touches bs s t) (hb : bs.contains .im = false := by rfl) :
    RunsIdle t := h.of_im (w.im_eq hb)

theorem appendFault (h : RunsIdle s) (k : FaultKind) (x : Figures) : RunsIdle (Machine.appendFault k x s) := by
  have him := appendFault_runs k x s
  refine ⟨h.runs.congr ?_ ?_ ?_ ?_, ?_⟩ <;> rw [him]
  · exact id
  · exact h.idle

end RunsIdle

/-- A level change empties both runs, and changes to FAULT only where no localisation runs (R97, R98). -/
theorem RunsOk.setLevel {s : State} (h : RunsOk s) (l : Level) (x : Figures)
    (hl : l = .fault → s.im.localisationRuns = false) : RunsOk (Machine.setLevel l x s) := by
  by_cases hlevel : s.im.level = l
  · rw [Machine.setLevel, if_pos hlevel]
    exact h
  · obtain ⟨u, hu, ht⟩ := setLevel_of_ne hlevel x
    have hempty : RunsOk u := by
      refine .of_empty (by rw [hu]) (by rw [hu]) ?_
      rw [hu]
      intro hloc hfault
      exact absurd ((hl hfault).symm.trans hloc) (by decide)
    refine RunsOk.of_im (s := match l.faultKind with | some k => appendFault k x u | none => u) ?_ ht
    split
    · have him := appendFault_runs (‹FaultKind›) x u
      refine hempty.congr ?_ ?_ ?_ ?_ <;> rw [him]
      exact id
    · exact hempty

theorem setLevel_meas (l : Level) (x : Figures) (s : State) : (setLevel l x s).im.meas = s.im.meas := by
  by_cases hlevel : s.im.level = l
  · rw [setLevel, if_pos hlevel]
  · obtain ⟨u, hu, ht⟩ := setLevel_of_ne hlevel x
    rw [ht]
    split
    · rw [appendFault_runs, hu]
    · rw [hu]

namespace RunsIdle
variable {s : State}

theorem setLevel (h : RunsIdle s) (l : Level) (x : Figures) : RunsIdle (Machine.setLevel l x s) :=
  ⟨h.runs.setLevel l x fun _ => localisationRuns_of_idle h.idle, (setLevel_meas l x s).trans h.idle⟩

theorem emptyRuns (h : RunsIdle s) : RunsIdle (Machine.emptyRuns s) :=
  ⟨.of_empty rfl rfl h.runs.localising, h.idle⟩

/-- The floor of a worse run stays worse than the level; a localisation begins at a level other than FAULT (R94, R98). -/
theorem takeWorse (h : RunsIdle s) {k : Class} (hk : s.im.level.rank < k.rank) (hlevel : s.im.level ≠ .fault)
    (x : Figures) (leg : Bool) : RunsOk (Machine.takeWorse k x leg s) := by
  have hfloor : s.im.level.rank < (floorOf s.im.worse k).rank := floorOf_rank _ hk h.runs.worse
  unfold Machine.takeWorse
  extract_lets run u
  have hu : RunsIdle u := ⟨⟨.inr hfloor, .inl rfl, h.runs.localising⟩, h.idle⟩
  split
  · split
    · exact ⟨.inr hfloor, .inl rfl, fun _ => hlevel⟩
    · exact (hu.setLevel _ _).runs
  · exact hu.runs

/-- The ceiling of a better run stays better than the level (R95). -/
theorem takeBetter (h : RunsIdle s) {k : Class} (hk : k.rank < s.im.level.rank)
    (hlevel : s.im.level = .warning ∨ s.im.level = .fault) (x : Figures) : RunsOk (Machine.takeBetter k x s) := by
  have hceiling : (ceilingOf s.im.better k).rank < s.im.level.rank :=
    ceilingOf_rank _ hk (h.runs.better.imp id And.right)
  unfold Machine.takeBetter
  extract_lets run u
  have hu : RunsIdle u := ⟨⟨.inl rfl, .inr ⟨hlevel, hceiling⟩, h.runs.localising⟩, h.idle⟩
  split
  · exact (hu.setLevel _ _).runs
  · exact hu.runs

theorem takeClass (h : RunsIdle s) {k : Class} (hk : k ≠ .noClass) (x : Figures) (leg : Bool) :
    RunsOk (Machine.takeClass k x leg s) := by
  have hempty := h.emptyRuns.runs
  unfold Machine.takeClass
  split
  case h_1 | h_2 =>
    next hlevel =>
    split
    · next hfault => exact h.takeWorse (by rw [hlevel, hfault]; decide) (by rw [hlevel]; decide) _ _
    · exact (h.setLevel _ _).runs
  case h_3 =>
    next hlevel =>
    split
    · exact hempty
    · next hne =>
      refine h.takeWorse ?_ (by rw [hlevel]; decide) _ _
      rw [hlevel]
      cases k <;> first | decide | exact absurd rfl hk | exact absurd rfl hne
  case h_4 =>
    next hlevel =>
    split
    · exact hempty
    · next hne =>
      split
      · next hlt => exact h.takeWorse (by rw [hlevel]; exact hlt) (by rw [hlevel]; decide) _ _
      · next hge =>
        exact h.takeBetter (by rw [hlevel]; exact lt_of_le_of_ne (not_lt.mp hge) hne) (.inl hlevel) _
  case h_5 =>
    next hlevel =>
    split
    · exact hempty
    · next hne =>
      refine h.takeBetter ?_ (.inr hlevel) _
      rw [hlevel]
      cases k <;> first | decide | exact absurd rfl hne

theorem takeLocalisation (h : RunsIdle s) (r : ResultRecord) : RunsOk (Machine.takeLocalisation r s) := by
  unfold Machine.takeLocalisation
  extract_lets rec0 u
  have hu : RunsIdle u := ⟨h.runs.congr rfl rfl rfl id, h.idle⟩
  split
  · exact (((hu.touches (isolateLeg_touches _)).appendFault _ _).setLevel _ _).emptyRuns.runs
  · exact ((hu.touches (releaseLeg_touches _)).setLevel _ _).runs

/-- A result whose class fits its validity (R90). -/
theorem resultEvent (h : RunsIdle s) (r : ResultRecord) (hr : r.valid = true → r.cls ≠ .noClass) :
    RunsOk (Machine.resultEvent r s) := by
  have hoffer : RunsIdle (offer .insulation (.result r) s) := h.touches (offer_touches .insulation (.result r) s)
  have hkept : RunsIdle (keepResult r (offer .insulation (.result r) s)) :=
    ⟨hoffer.runs.congr rfl rfl rfl id, hoffer.idle⟩
  refine RunsOk.touches ?_ (seekVerdict_touches _ _ _)
  unfold applyResult
  split
  · exact hkept.takeLocalisation r
  · split
    · next hvalid => exact hkept.takeClass (hr hvalid) _ _
    · exact hkept.runs

end RunsIdle

namespace RunsOk
variable {s : State}

theorem endMeasurement (h : RunsOk s) : RunsIdle (Machine.endMeasurement s) := by
  refine ⟨h.congr rfl rfl rfl fun hloc => ?_, rfl⟩
  have hidle : (Machine.endMeasurement s).im.localisationRuns = false := localisationRuns_of_idle rfl
  rw [hidle] at hloc
  cases hloc

theorem endInvalid (h : RunsOk s) (why : InvalidReason) (u : Nat) : RunsOk (Machine.endInvalid why u s) :=
  (h.endMeasurement.touches (stamped_touches _)).resultEvent _ fun hvalid => by cases hvalid

theorem settleB (h : RunsOk s) (x : ChassisSample) : RunsOk (Machine.settleB x s) := by
  refine (h.endMeasurement.touches (stamped_touches _)).resultEvent _ fun hvalid => ?_
  simp only [settledResult, decide_eq_true_eq] at hvalid ⊢
  rw [if_pos hvalid]
  exact classOf_ne_none _ _

theorem startMeasurement (h : RunsOk s) (l : Bool) (hl : l = true → s.im.level ≠ .fault) :
    RunsOk (Machine.startMeasurement l s) := by
  refine ⟨h.worse, h.better, fun hloc => ?_⟩
  have hlocalise := localise_of_runs hloc (.inl rfl)
  exact hl hlocalise

theorem requestMeasurement (h : RunsOk s) : RunsOk (Machine.requestMeasurement s) := by
  unfold Machine.requestMeasurement
  split
  · exact h.startMeasurement false fun h => by cases h
  · exact h.congr rfl rfl rfl id

theorem disturb (h : RunsOk s) : RunsOk (Machine.disturb s) := by
  unfold Machine.disturb
  split
  · next hphase =>
    split
    · refine h.congr rfl rfl rfl fun hloc => ?_
      have hattempt := localise_of_runs hloc (.inl rfl)
      have hlocalise : s.im.localise = true := hattempt
      have hbusy : s.im.busy = true := by
        simp only [Insulation.inPhase, Bool.or_eq_true, beq_iff_eq] at hphase
        rcases hphase with hphase | hphase <;> simp [Insulation.busy, hphase]
      simp [Insulation.localisationRuns, hlocalise, hbusy]
    · exact h.endInvalid _ _
  · exact h

theorem takeReports (before : State) (h : RunsOk s) : RunsOk (Machine.takeReports before s) := by
  have hcommand : RunsOk (if commandFell before s then Machine.disturb s else s) := by
    split
    · exact h.disturb
    · exact h
  unfold Machine.takeReports
  split
  · dsimp only
    split
    · exact hcommand.disturb
    · exact hcommand
  · exact h

theorem kept : Kept RunsOk where
  ports _ _ w h := h.touches w
  elapse dt s h := by
    refine h.congr ?_ ?_ ?_ ?_ <;> rw [elapse_im] <;> split
    case refine_4.isTrue | refine_4.isFalse => exact id
    all_goals rfl
  reports s _ h := h.takeReports s

theorem takeChassis (h : RunsOk s) (x : ChassisSample) : RunsOk (Machine.takeChassis x s) := by
  unfold Machine.takeChassis
  dsimp only
  split
  case h_1 =>
    next hphase =>
    split
    · split
      · refine h.congr rfl rfl rfl fun hloc => ?_
        have hsettled := localise_of_runs hloc (.inr rfl)
        have hlocalise : s.im.localise = true := hsettled
        simp [Insulation.localisationRuns, Insulation.busy, hlocalise, hphase]
      · exact h.congr rfl rfl rfl id
    · exact h
  case h_2 =>
    split
    · split
      · exact h.settleB x
      · exact h.congr rfl rfl rfl id
    · exact h
  all_goals exact h

theorem runningBegins (h : RunsOk s) : RunsOk (Machine.runningBegins s) := by
  unfold Machine.runningBegins
  dsimp only
  split
  · exact startMeasurement (s := State.onIm _ _) (h.congr rfl rfl rfl id) false fun h => by cases h
  · exact h.congr rfl rfl rfl id

theorem imTake (h : RunsOk s) (x : SampleSet) : RunsOk (Machine.imTake x s) := by
  unfold Machine.imTake
  dsimp only
  split
  · exact h.runningBegins
  · split
    · unfold runningEnds
      dsimp only
      split
      · exact endInvalid (s := State.onIm _ _) (h.congr rfl rfl rfl id) _ _
      · exact h.congr rfl rfl rfl id
    · exact h

theorem insStart (h : RunsOk s) : RunsOk (Machine.insStart s) := by
  unfold Machine.insStart
  split
  · exact h
  · dsimp only
    split
    · exact runningBegins (s := State.onIm _ _) (h.congr rfl rfl rfl id)
    · exact h.congr rfl rfl rfl id

/-- A localisation abandoned leaves a worse run with floor FAULT, at a level that is not FAULT (R101). -/
theorem forcedStop (h : RunsOk s) : RunsOk (Machine.forcedStop s) := by
  unfold Machine.forcedStop
  extract_lets localising u v
  have hv : RunsOk v := h.endMeasurement.runs.congr rfl rfl rfl id
  split
  · next hloc =>
    exact ⟨.inr (Level.rank_lt_fault (h.localising hloc)), hv.better, hv.localising⟩
  · exact hv

theorem cycleEnds (h : RunsOk s) : RunsOk (Machine.cycleEnds s) := by
  unfold Machine.cycleEnds
  dsimp only
  split
  · exact startMeasurement (s := State.onIm _ _) (h.congr rfl rfl rfl id) false fun h => by cases h
  · exact h.congr rfl rfl rfl id

theorem legSettled (h : RunsOk s) : RunsOk (Machine.legSettled s) := by
  unfold Machine.legSettled
  dsimp only
  split
  · next hmeas =>
    refine startMeasurement (s := State.onHc _ _) (h.of_im rfl) true fun _ => h.localising ?_
    have hmeas : s.im.meas = .localising := hmeas.2
    simp [Insulation.localisationRuns, hmeas]
  · exact h.of_im rfl

theorem levelAges (h : RunsOk s) : RunsOk (Machine.levelAges s) :=
  setLevel (s := State.onIm _ _) (h.congr rfl rfl rfl id) _ _ fun h => by cases h

theorem tick (h : RunsOk s) : RunsOk (Machine.tick s) := by
  refine h.congr ?_ ?_ ?_ ?_ <;> rw [tick_im] <;> split
  case refine_4.isTrue | refine_4.isFalse => exact id
  all_goals rfl

theorem resetRises (h : RunsOk s) : RunsOk (Machine.resetRises s) := by
  have him := resetRises_im s
  split at him
  · refine .of_empty (by rw [him]; rfl) (by rw [him]; rfl) ?_
    rw [him]
    intro hloc
    cases hloc
  · exact h.of_im him

end RunsOk

/-! ## The commands of the monitor -/

/-- What a property of the monitor's level, runs and fault table needs: its own operations keep it, and it reads no other
block. -/
structure MonitorKept (P : State → Prop) : Prop extends Kept P where
  same : ∀ s t, t.im = s.im → P s → P t
  imTake : ∀ s x, P s → P (imTake x s)
  cycleEnds : ∀ s, P s → P (cycleEnds s)
  startMeasurement : ∀ s, P s → P (startMeasurement false s)
  requestMeasurement : ∀ s, P s → P (requestMeasurement s)
  takeChassis : ∀ s x, P s → P (takeChassis x s)
  phaseEnds : ∀ s, P s → P (endInvalid .settleTimeout (latestVBus s) s)
  levelAges : ∀ s, P s → P (levelAges s)
  insStart : ∀ s, P s → P (insStart s)
  forcedStop : ∀ s, P s → P (forcedStop s)
  legSettled : ∀ s, P s → P (legSettled s)
  ackFault : ∀ s n, P s → P (s.onIm (Insulation.ackFault n))
  tick : ∀ s, P s → P (tick s)
  coldReset : ∀ s, P (coldReset s)
  resetRises : ∀ s, P s → P (resetRises s)

namespace MonitorKept
variable {P : State → Prop} {s t : State}

/-- Such a property is kept by every command: those outside the monitor leave its block. -/
theorem exec (k : MonitorKept P) {c : Instr} (ht : Machine.exec c s = .next t) (h : P s) : P t := by
  have hsame {bs : List Block} {u v : State} (hu : P u) (w : Touches bs u v)
      (hb : bs.contains .im = false := by rfl) : P v := k.same u v (w.im_eq hb) hu
  have htick : P (nextTick s) := k.tick _ (k.elapse _ s h)
  have hif (a : Prop) [Decidable a] (u : State) (hu : P u) : P (if a then u else s) := by
    split
    · exact hu
    · exact h
  cases c
  case coldReset => cases ht; exact k.coldReset s
  case resetNFall => cases ht; exact hsame h (resetFalls_touches s)
  case resetNRise => cases ht; exact k.resetRises s h
  case settleTimerExpiry => cases ht; exact k.atEnd _ _ s h fun dt _ h => k.legSettled _ h
  case imSampleTaking =>
    cases ht
    exact k.taking _ _ s h fun x h => k.imTake _ x (hsame h (onFe_touches s FrontEnd.imTook))
  case cycleCountdownExpiry => cases ht; exact k.atEnd _ _ s h fun dt _ h => k.cycleEnds _ h
  case pendingMeasurementStart => cases ht; exact hif _ _ (k.event _ s h fun h => k.startMeasurement _ h)
  case chassisSample v =>
    cases ht
    exact k.atEnd _ _ s h fun dt _ h => k.takeChassis _ _ (hsame h (onFe_touches _ _))
  case phaseTimerExpiry => cases ht; exact k.atEnd _ _ s h fun dt _ h => k.phaseEnds _ h
  case levelAgeExpiry => cases ht; exact k.atEnd _ _ s h fun dt _ h => k.levelAges _ h
  case clockTick => cases ht; exact htick
  case boundaryClose => cases ht; exact hif _ _ htick
  case periodClose => cases ht; exact hif _ _ htick
  case periodicTimerExpiry => cases ht; exact hif _ _ htick
  case insStart p b => cases ht; exact k.request _ _ _ _ s h fun u _ h => k.insStart u h
  case insStop p b => cases ht; exact k.request _ _ _ _ s h fun u _ h => k.forcedStop u h
  case faultAck p b =>
    cases ht
    refine k.request _ _ _ _ s h fun u _ h => ?_
    unfold answerAck
    split
    · exact k.ackFault u _ h
    · exact h
  case measureNow p b =>
    cases ht
    refine k.request _ _ _ _ s h fun u _ h => ?_
    unfold answerMeasure
    split
    · exact k.requestMeasurement u h
    · exact h
  case sessionOpen p b =>
    cases ht
    refine k.request _ _ _ _ s h fun u _ h => ?_
    unfold answerOpen
    split
    · exact h
    · have hrequest {v : State} (hv : P v) : P (priorityRequest v) := by
        unfold priorityRequest
        split
        · exact k.requestMeasurement _ hv
        · exact hv
      exact hrequest (hsame h (openSession_touches _ _ _ u))
  all_goals exact exec_keeps k.toKept _ (fun u v w hu => hsame hu w.frame) ht h

theorem step (k : MonitorKept P) (ht : Machine.step s = .next t) (h : P s) : P t :=
  step_keeps k.toKept (fun u _ hu => k.same u _ rfl hu) (fun _ _ _ => k.exec) ht h

end MonitorKept

theorem FaultTableOk.monitorKept : MonitorKept FaultTableOk where
  toKept := kept
  same _ _ him h := h.congr (by rw [him]) (by rw [him])
  imTake _ x h := h.imTake x
  cycleEnds _ h := h.cycleEnds
  startMeasurement _ h := h.startMeasurement false
  requestMeasurement _ h := h.requestMeasurement
  takeChassis _ x h := h.takeChassis x
  phaseEnds _ h := h.endInvalid _ _
  levelAges _ h := h.levelAges
  insStart _ h := h.insStart
  forcedStop _ h := h.forcedStop
  legSettled _ h := h.legSettled
  ackFault _ n h := h.ackFault n
  tick _ h := h.tick
  coldReset _ := FaultTableOk.coldReset
  resetRises _ h := h.resetRises

theorem RunsOk.monitorKept : MonitorKept RunsOk where
  toKept := kept
  same _ _ him h := h.of_im him
  imTake _ x h := h.imTake x
  cycleEnds _ h := h.cycleEnds
  startMeasurement _ h := h.startMeasurement false fun h => by cases h
  requestMeasurement _ h := h.requestMeasurement
  takeChassis _ x h := h.takeChassis x
  phaseEnds _ h := h.endInvalid _ _
  levelAges _ h := h.levelAges
  insStart _ h := h.insStart
  forcedStop _ h := h.forcedStop
  legSettled _ h := h.legSettled
  ackFault _ _ h := h.congr rfl rfl rfl id
  tick _ h := h.tick
  coldReset _ := .of_empty rfl rfl fun h => by cases h
  resetRises _ h := h.resetRises

/-- Settles O59: each of the four invariants is kept by every command and by the passing of time. -/
theorem accountsItemsFaultTableAndRunsStaySound : Obligations.AccountsItemsFaultTableAndRunsStaySound := by
  refine ⟨⟨fun s t h ht => ?_, fun s t h ht => ?_⟩, fun s t h ht => ?_, fun s t h ht => ?_⟩
  · exact step_keeps AccountsOk.kept (fun _ _ h => h) (fun _ _ _ => AccountsOk.exec) ht h
  · exact step_keeps ItemsOk.kept (fun _ _ h => ⟨h.ranges, h.warmHot, h.hotTrip⟩) (fun _ _ _ => ItemsOk.exec) ht h
  · exact FaultTableOk.monitorKept.step ht h
  · exact RunsOk.monitorKept.step ht h

end Sys2Proof.Machine

/-! PROOFS. The record store: the ring of an area, what the operations on a queue do to its records, and what they leave of
the other queues (R148 to R156, R160). -/

namespace Sys2Proof.Machine

set_option Elab.async false

/-! ## The ring of an area (R152) -/

/-- The slot lies in the area. -/
def Area.holds (a : Area) (n : Nat) : Prop := a.first ≤ n ∧ n < a.first + a.count

theorem ringSlot_holds {a : Area} (h : 0 < a.count) (head k : Nat) : a.holds (ringSlot a head k) :=
  ⟨Nat.le_add_right _ _, Nat.add_lt_add_left (Nat.mod_lt _ h) _⟩

theorem ringSlot_zero {a : Area} {head : Nat} (h : a.holds head) : ringSlot a head 0 = head := by
  obtain ⟨hlo, hhi⟩ := h
  have hmod : (head - a.first + 0) % a.count = head - a.first := Nat.mod_eq_of_lt (by omega)
  rw [ringSlot, hmod]
  omega

theorem ringSlot_ringSlot (a : Area) (head m k : Nat) : ringSlot a (ringSlot a head m) k = ringSlot a head (m + k) := by
  simp only [ringSlot, Nat.add_sub_cancel_left, Nat.mod_add_mod, Nat.add_assoc]

theorem ringSlot_count (a : Area) (head : Nat) : ringSlot a head a.count = ringSlot a head 0 := by
  simp only [ringSlot, Nat.add_mod_right, Nat.add_zero]

/-- Within one round the slots of a ring differ. -/
theorem ringSlot_inj {a : Area} {head k n : Nat} (hk : k < a.count) (hn : n < a.count)
    (h : ringSlot a head k = ringSlot a head n) : k = n := by
  have hmod : head - a.first + k ≡ head - a.first + n [MOD a.count] := Nat.add_left_cancel h
  exact (Nat.ModEq.add_left_cancel' _ hmod).eq_of_lt_of_lt hk hn

theorem mem_ringSlots {a : Area} {head n x : Nat} : x ∈ ringSlots a head n ↔ ∃ k < n, ringSlot a head k = x := by
  simp [ringSlots]

theorem Area.sized.pos {a : Area} (h : a.sized) : 0 < a.count := by have := h.1; omega

theorem Area.sized.le_of_holds {a : Area} (h : a.sized) {n : Nat} (hn : a.holds n) : n ≤ 255 := by
  have := h.2
  have := hn.2
  omega

/-- Areas that do not meet hold no slot in common. -/
theorem Area.not_holds_of_apart {a b : Area} (h : a.meets b = false) {n : Nat} (hb : b.holds n) : ¬ a.holds n := by
  intro ha
  simp only [Area.meets, Bool.and_eq_false_iff, decide_eq_false_iff_not, not_lt] at h
  obtain ⟨ha1, ha2⟩ := ha
  obtain ⟨hb1, hb2⟩ := hb
  omega

/-! ## Streams and areas -/

@[simp] theorem Store.stream_putStream_self (r : Store) (st : Stream) (x : StreamState) :
    (r.putStream st x).stream st = x := by cases st <;> rfl

theorem Store.stream_putStream_other (r : Store) {st st' : Stream} (h : st' ≠ st) (x : StreamState) :
    (r.putStream st x).stream st' = r.stream st' := by
  cases st <;> cases st' <;> first | rfl | exact absurd rfl h

@[simp] theorem Store.putStream_areas (r : Store) (st : Stream) (x : StreamState) :
    (r.putStream st x).areas = r.areas := by cases st <;> rfl

@[simp] theorem Store.putStream_slots (r : Store) (st : Stream) (x : StreamState) :
    (r.putStream st x).slots = r.slots := by cases st <;> rfl

/-- The slots stand beside the streams. -/
@[simp] theorem Store.stream_slots (r : Store) (m : List (Nat × Record)) (st : Stream) :
    ({ r with slots := m } : Store).stream st = r.stream st := by cases st <;> rfl

theorem Store.defined_congr {r r' : Store} (h : r'.areas = r.areas) (i : Nat) : r'.defined i = r.defined i := by
  rw [Store.defined, h, Store.defined]

theorem Store.area_congr {r r' : Store} (h : r'.areas = r.areas) (i : Nat) : r'.area i = r.area i := by
  rw [Store.area, h, Store.area]

theorem Store.area_of_defined {r : Store} {i : Nat} {a : Area} (h : r.defined i = some a) : r.area i = a := by
  unfold Store.defined at h
  unfold Store.area
  cases hget : r.areas[i]? with
  | none => rw [hget] at h; cases h
  | some x => rw [hget] at h; simp only at h; rw [h]

theorem recordAt_of_lt {j : Join} {k : Nat} {r : Store} {a : Area} (ha : r.area j.area = a) (hk : k < j.count) :
    recordAt j k r = slotGet r.slots (ringSlot a j.head k) := by rw [recordAt, if_pos hk, ha]

theorem recordAt_mk_of_lt {i head count k : Nat} {p : Port} {r : Store} {a : Area} (ha : r.area i = a) (hk : k < count) :
    recordAt ⟨i, p, head, count⟩ k r = slotGet r.slots (ringSlot a head k) := recordAt_of_lt ha hk

theorem recordAt_of_le {j : Join} {k : Nat} (r : Store) (hk : j.count ≤ k) : recordAt j k r = none :=
  if_neg (not_lt.mpr hk)

/-! ## A queue moved -/

/-- The queue of a stream has moved inside its area: the areas, the other streams and every slot outside the area stand. -/
structure QueueMoved (st : Stream) (a : Area) (r r' : Store) : Prop where
  areas : r'.areas = r.areas
  others : ∀ st', st' ≠ st → r'.stream st' = r.stream st'
  slots : slotsWf r.slots = true → slotsWf r'.slots = true
  outside : ∀ n, ¬ a.holds n → slotGet r'.slots n = slotGet r.slots n

namespace StoreOk
variable {s t : State} {st st' : Stream} {j j' : Join} {a : Area}

/-- The invariant reads the slots, the areas and the joins. -/
theorem congr (ok : StoreOk s) (hslots : t.rs.slots = s.rs.slots) (hareas : t.rs.areas = s.rs.areas)
    (hjoin : ∀ st, (t.rs.stream st).join = (s.rs.stream st).join) : StoreOk t := by
  have hdef := Store.defined_congr hareas
  have hrec (j : Join) (k : Nat) : recordAt j k t.rs = recordAt j k s.rs := by
    rw [recordAt, recordAt, hslots, Store.area_congr hareas]
  constructor
  · rw [hslots]; exact ok.slots
  · simp only [hdef]; exact ok.sized
  · simp only [hdef]; exact ok.apart
  · simp only [hdef, hjoin]; exact ok.joins
  · simp only [hrec, hjoin]; exact ok.filled
  · simp only [hjoin]; exact ok.own

theorem of_rs (ok : StoreOk s) (h : t.rs = s.rs) : StoreOk t :=
  ok.congr (by rw [h]) (by rw [h]) fun st => by rw [h]

theorem touches {bs : List Block} (ok : StoreOk s) (w : Touches bs s t) (hb : bs.contains .rs = false := by rfl) :
    StoreOk t := ok.of_rs (w.rs_eq hb)

/-- What the invariant gives of a join on a defined area. -/
theorem joined (ok : StoreOk s) (hj : (s.rs.stream st).join = some j) :
    ∃ a, s.rs.defined j.area = some a ∧ s.rs.area j.area = a ∧ a.sized ∧ a.holds j.head ∧ j.count ≤ a.count := by
  obtain ⟨a, ha, hlo, hhi, hcount⟩ := ok.joins st j hj
  exact ⟨a, ha, Store.area_of_defined ha, ok.sized _ _ ha, ⟨hlo, hhi⟩, hcount⟩

/-- The slots of another stream's queue lie outside the area. -/
theorem outside (ok : StoreOk s) (hj : (s.rs.stream st).join = some j) (ha : s.rs.defined j.area = some a)
    (hj' : (s.rs.stream st').join = some j') (hne : st' ≠ st) (k : Nat) :
    ¬ a.holds (ringSlot (s.rs.area j'.area) j'.head k) := by
  obtain ⟨b, hb, hb', hsized, _⟩ := ok.joined hj'
  rw [hb']
  have harea : j.area ≠ j'.area := ok.own st st' j j' hne.symm hj hj'
  exact Area.not_holds_of_apart (ok.apart _ _ a b harea ha hb) (ringSlot_holds hsized.pos _ _)

/-- Each record of another stream stands where it stood. -/
theorem recordAt_other (ok : StoreOk s) (hj : (s.rs.stream st).join = some j) (ha : s.rs.defined j.area = some a)
    (q : QueueMoved st a s.rs t.rs) (hj' : (s.rs.stream st').join = some j') (hne : st' ≠ st) (k : Nat) :
    recordAt j' k t.rs = recordAt j' k s.rs := by
  rw [recordAt, recordAt, Store.area_congr q.areas, q.outside _ (ok.outside hj ha hj' hne k)]

/-- A queue moved keeps the invariant where what is left of it lies in the area and is filled. -/
theorem moved (ok : StoreOk s) (hj : (s.rs.stream st).join = some j) (ha : s.rs.defined j.area = some a)
    (q : QueueMoved st a s.rs t.rs)
    (hown : ∀ i, (t.rs.stream st).join = some i → i.area = j.area ∧ a.holds i.head ∧ i.count ≤ a.count ∧
      ∀ k, k < i.count → (recordAt i k t.rs).isSome = true) : StoreOk t := by
  have hdef := Store.defined_congr q.areas
  have hjoin {st'} (h : st' ≠ st) : (t.rs.stream st').join = (s.rs.stream st').join := by rw [q.others st' h]
  have harea {st' i} (hi : (t.rs.stream st').join = some i) :
      ∃ i', (s.rs.stream st').join = some i' ∧ i'.area = i.area := by
    by_cases h : st' = st
    · subst h
      exact ⟨j, hj, (hown i hi).1.symm⟩
    · exact ⟨i, (hjoin h).symm.trans hi, rfl⟩
  refine ⟨q.slots ok.slots, ?_, ?_, fun st' i hi => ?_, fun st' i k hi hk => ?_, fun x y i i' hne hi hi' => ?_⟩
  · simp only [hdef]; exact ok.sized
  · simp only [hdef]; exact ok.apart
  · by_cases h : st' = st
    · subst h
      obtain ⟨hi1, hi2, hi3, _⟩ := hown i hi
      exact ⟨a, by rw [hdef, hi1]; exact ha, hi2.1, hi2.2, hi3⟩
    · simp only [hdef]
      exact ok.joins st' i ((hjoin h).symm.trans hi)
  · by_cases h : st' = st
    · subst h
      exact (hown i hi).2.2.2 k hk
    · have hi' := (hjoin h).symm.trans hi
      rw [ok.recordAt_other hj ha q hi' h]
      exact ok.filled st' i k hi' hk
  · obtain ⟨u, hu, hua⟩ := harea hi
    obtain ⟨u', hu', hua'⟩ := harea hi'
    rw [← hua, ← hua']
    exact ok.own x y u u' hne hu hu'

end StoreOk

/-! ## The operations on a queue -/

@[simp] theorem refreshStream_rs (s : State) : (refreshStream s).rs = s.rs := rfl

/-- The store after a queue operation: one stream's state and the slots. -/
theorem queueMoved_of_put (r : Store) (st : Stream) (a : Area) (x : StreamState) (m : List (Nat × Record))
    (hwf : slotsWf r.slots = true → slotsWf m = true) (hout : ∀ n, ¬ a.holds n → slotGet m n = slotGet r.slots n) :
    QueueMoved st a r { r.putStream st x with slots := m } where
  areas := Store.putStream_areas r st x
  others st' h := by rw [Store.stream_slots, Store.stream_putStream_other r h]
  slots := hwf
  outside := hout

section
variable {s : State} {st : Stream} {j : Join} {a : Area}

theorem appendRecord_moved (rec : Record) (ha : s.rs.area j.area = a) (hsized : a.sized) :
    QueueMoved st a s.rs (appendRecord st rec j s).rs := by
  have hslot := ringSlot_holds hsized.pos j.head j.count
  refine queueMoved_of_put _ _ _ _ _ (slotsWf_slotPut rec ?_) fun n hn => ?_
  · rw [ha]
    exact hsized.le_of_holds hslot
  · rw [slotGet_slotPut, ha, if_neg]
    rintro rfl
    exact hn hslot

theorem appendRecord_stream (st : Stream) (rec : Record) (j : Join) (s : State) :
    (appendRecord st rec j s).rs.stream st = { s.rs.stream st with join := some { j with count := j.count + 1 } } :=
  (Store.stream_slots _ _ st).trans (Store.stream_putStream_self _ st _)

/-- Appended, the record stands last and every other keeps its position (R155). -/
theorem appendRecord_recordAt (rec : Record) (ha : s.rs.area j.area = a) (hroom : j.count < a.count) (k : Nat) :
    recordAt { j with count := j.count + 1 } k (appendRecord st rec j s).rs =
      if k = j.count then some rec else recordAt j k s.rs := by
  have harea : (appendRecord st rec j s).rs.area j.area = a := by
    rw [← ha]
    exact Store.area_congr (Store.putStream_areas _ _ _) _
  have hslots : (appendRecord st rec j s).rs.slots = slotPut s.rs.slots (ringSlot a j.head j.count) rec := by
    rw [← ha]
    rfl
  rcases Nat.lt_trichotomy k j.count with hk | rfl | hk
  · rw [recordAt_mk_of_lt harea (Nat.lt_succ_of_lt hk), recordAt_of_lt ha hk, hslots, slotGet_slotPut, if_neg,
      if_neg hk.ne]
    exact fun h => hk.ne (ringSlot_inj (hk.trans hroom) hroom h)
  · rw [recordAt_mk_of_lt harea (Nat.lt_succ_self _), hslots, slotGet_slotPut, if_pos rfl, if_pos rfl]
  · rw [recordAt_of_le _ hk, if_neg hk.ne', recordAt_of_le _ hk.le]

theorem overwriteRecord_moved (rec : Record) (hsized : a.sized) (hhead : a.holds j.head) :
    QueueMoved st a s.rs (overwriteRecord st rec j s).rs := by
  refine queueMoved_of_put _ _ _ _ _ (slotsWf_slotPut rec (hsized.le_of_holds hhead)) fun n hn => ?_
  rw [slotGet_slotPut, if_neg]
  rintro rfl
  exact hn hhead

theorem overwriteRecord_stream (st : Stream) (rec : Record) (j : Join) (s : State) :
    (overwriteRecord st rec j s).rs.stream st = { s.rs.stream st with
      join := some { j with head := ringSlot (s.rs.area j.area) j.head 1 }
      overwritten := satAdd max32 (s.rs.stream st).overwritten 1 } :=
  (Store.stream_slots _ _ st).trans (Store.stream_putStream_self _ st _)

/-- The offered record stands last in place of the oldest, and every other moves one position down (R156). -/
theorem overwriteRecord_recordAt (rec : Record) (ha : s.rs.area j.area = a) (hhead : a.holds j.head)
    (hfull : j.count = a.count) (k : Nat) :
    recordAt { j with head := ringSlot (s.rs.area j.area) j.head 1 } k (overwriteRecord st rec j s).rs =
      if k + 1 = j.count then some rec else recordAt j (k + 1) s.rs := by
  have harea : (overwriteRecord st rec j s).rs.area j.area = a := by
    rw [← ha]
    exact Store.area_congr (Store.putStream_areas _ _ _) _
  have hslots : (overwriteRecord st rec j s).rs.slots = slotPut s.rs.slots (ringSlot a j.head 0) rec := by
    rw [ringSlot_zero hhead]
    rfl
  rw [ha]
  by_cases hk : k < j.count
  · rw [recordAt_mk_of_lt harea hk, hslots, slotGet_slotPut,
      ringSlot_ringSlot, Nat.add_comm 1 k]
    by_cases hlast : k + 1 = j.count
    · rw [hlast, hfull, ringSlot_count, if_pos rfl, if_pos rfl]
    · have hnext : k + 1 < j.count := Nat.lt_of_le_of_ne hk hlast
      rw [if_neg hlast, recordAt_of_lt ha hnext, if_neg]
      exact fun h => Nat.succ_ne_zero k (ringSlot_inj (hfull ▸ hnext) (by omega) h)
  · have hk := not_lt.mp hk
    rw [recordAt_of_le (j := ⟨j.area, j.port, ringSlot a j.head 1, j.count⟩) _ hk, if_neg (by omega), recordAt_of_le _ (by omega)]

theorem clearRing_outside (m : List (Nat × Record)) (hpos : 0 < a.count) (head n x : Nat) (hx : ¬ a.holds x) :
    slotGet (slotClearAll m (ringSlots a head n)) x = slotGet m x := by
  rw [slotGet_slotClearAll, if_neg]
  rw [mem_ringSlots]
  rintro ⟨k, _, rfl⟩
  exact hx (ringSlot_holds hpos _ _)

theorem takeOldest_moved (n : Nat) (ha : s.rs.area j.area = a) (hpos : 0 < a.count) :
    QueueMoved st a s.rs (takeOldest st j n s).rs := by
  refine queueMoved_of_put _ _ _ _ _ (slotsWf_slotClearAll _) fun x hx => ?_
  rw [ha]
  exact clearRing_outside _ hpos _ _ _ hx

theorem takeOldest_stream (st : Stream) (j : Join) (n : Nat) (s : State) :
    (takeOldest st j n s).rs.stream st = { s.rs.stream st with
      join := some { j with
        head := ringSlot (s.rs.area j.area) j.head (min n j.count)
        count := j.count - min n j.count } } :=
  (Store.stream_slots _ _ st).trans (Store.stream_putStream_self _ st _)

/-- The oldest removed, each other record has moved as many positions down (R160). -/
theorem takeOldest_recordAt (n : Nat) (ha : s.rs.area j.area = a) (hcount : j.count ≤ a.count) (k : Nat) :
    recordAt { j with
        head := ringSlot (s.rs.area j.area) j.head (min n j.count)
        count := j.count - min n j.count } k (takeOldest st j n s).rs = recordAt j (k + min n j.count) s.rs := by
  have harea : (takeOldest st j n s).rs.area j.area = a := by
    rw [← ha]
    exact Store.area_congr (Store.putStream_areas _ _ _) _
  have hslots : (takeOldest st j n s).rs.slots = slotClearAll s.rs.slots (ringSlots a j.head (min n j.count)) := by
    rw [← ha]
    rfl
  generalize hm : min n j.count = m at *
  by_cases hk : k + m < j.count
  · rw [recordAt_mk_of_lt harea (by omega), recordAt_of_lt ha hk, hslots,
      slotGet_slotClearAll, if_neg]
    · rw [ha, ringSlot_ringSlot, Nat.add_comm]
    · rw [mem_ringSlots]
      rintro ⟨i, hi, h⟩
      rw [ha, ringSlot_ringSlot] at h
      have := ringSlot_inj (by omega) (by omega) h
      omega
  · rw [recordAt_of_le _ (by dsimp only; omega), recordAt_of_le _ (by omega)]

/-- The freed slots are empty (R160). -/
theorem takeOldest_freed (n : Nat) (ha : s.rs.area j.area = a) {k : Nat} (hk : k < min n j.count) :
    recordAt j k (takeOldest st j n s).rs = none := by
  have harea : (takeOldest st j n s).rs.area j.area = a := by
    rw [← ha]
    exact Store.area_congr (Store.putStream_areas _ _ _) _
  rw [recordAt_of_lt harea (hk.trans_le (min_le_right _ _))]
  refine (slotGet_slotClearAll _ _ _).trans (if_pos ?_)
  rw [ha]
  exact mem_ringSlots.mpr ⟨k, hk, rfl⟩

theorem unjoinStream_moved (ha : s.rs.area j.area = a) (hpos : 0 < a.count) :
    QueueMoved st a s.rs (unjoinStream st j s).rs := by
  refine queueMoved_of_put _ _ _ _ _ (slotsWf_slotClearAll _) fun x hx => ?_
  rw [ha]
  exact clearRing_outside _ hpos _ _ _ hx

theorem unjoinStream_stream (st : Stream) (j : Join) (s : State) :
    (unjoinStream st j s).rs.stream st =
      ⟨none, satAdd max32 (s.rs.stream st).lost j.count, (s.rs.stream st).overwritten⟩ :=
  (Store.stream_slots _ _ st).trans (Store.stream_putStream_self _ st _)

/-- The discarded records are gone (R154). -/
theorem unjoinStream_freed (ha : s.rs.area j.area = a) {k : Nat} (hk : k < j.count) :
    recordAt j k (unjoinStream st j s).rs = none := by
  have harea : (unjoinStream st j s).rs.area j.area = a := by
    rw [← ha]
    exact Store.area_congr (Store.putStream_areas _ _ _) _
  rw [recordAt_of_lt harea hk]
  refine (slotGet_slotClearAll _ _ _).trans (if_pos ?_)
  rw [ha]
  exact mem_ringSlots.mpr ⟨k, hk, rfl⟩

theorem dropRecord_stream (st : Stream) (s : State) : (dropRecord st s).rs.stream st =
    { s.rs.stream st with lost := satAdd max32 (s.rs.stream st).lost 1 } := by simp [dropRecord]

end

/-! ## What the operations keep -/

namespace StoreOk
variable {s : State} {st : Stream} {j : Join}

theorem dropRecord (ok : StoreOk s) (st : Stream) : StoreOk (Machine.dropRecord st s) := by
  refine ok.congr (Store.putStream_slots _ _ _) (Store.putStream_areas _ _ _) fun st' => ?_
  by_cases h : st' = st
  · subst h
    rw [dropRecord_stream]
  · exact congrArg StreamState.join (Store.stream_putStream_other s.rs h _)

theorem appendRecord (ok : StoreOk s) (hj : (s.rs.stream st).join = some j) (hroom : j.count < (s.rs.area j.area).count)
    (rec : Record) : StoreOk (Machine.appendRecord st rec j s) := by
  obtain ⟨a, hdef, ha, hsized, hhead, hcount⟩ := ok.joined hj
  rw [ha] at hroom
  refine ok.moved hj hdef (appendRecord_moved rec ha hsized) fun i hi => ?_
  rw [appendRecord_stream, Option.some.injEq] at hi
  subst hi
  refine ⟨rfl, hhead, hroom, fun k hk => ?_⟩
  rw [appendRecord_recordAt rec ha hroom]
  split
  · rfl
  · next hne => exact ok.filled st j k hj (Nat.lt_of_le_of_ne (Nat.le_of_lt_succ hk) hne)

theorem overwriteRecord (ok : StoreOk s) (hj : (s.rs.stream st).join = some j)
    (hfull : ¬ j.count < (s.rs.area j.area).count) (rec : Record) : StoreOk (Machine.overwriteRecord st rec j s) := by
  obtain ⟨a, hdef, ha, hsized, hhead, hcount⟩ := ok.joined hj
  rw [ha] at hfull
  have hfull : j.count = a.count := by omega
  refine ok.moved hj hdef (overwriteRecord_moved rec hsized hhead) fun i hi => ?_
  rw [overwriteRecord_stream, Option.some.injEq] at hi
  subst hi
  refine ⟨rfl, by rw [ha]; exact ringSlot_holds hsized.pos _ _, hcount, fun k hk => ?_⟩
  rw [overwriteRecord_recordAt rec ha hhead hfull]
  split
  · rfl
  · next hne => exact ok.filled st j (k + 1) hj (Nat.lt_of_le_of_ne hk hne)

theorem takeOldest (ok : StoreOk s) (hj : (s.rs.stream st).join = some j) (n : Nat) :
    StoreOk (Machine.takeOldest st j n s) := by
  obtain ⟨a, hdef, ha, hsized, hhead, hcount⟩ := ok.joined hj
  refine ok.moved hj hdef (takeOldest_moved n ha hsized.pos) fun i hi => ?_
  rw [takeOldest_stream, Option.some.injEq] at hi
  subst hi
  refine ⟨rfl, by rw [ha]; exact ringSlot_holds hsized.pos _ _, (Nat.sub_le _ _).trans hcount, fun k hk => ?_⟩
  rw [takeOldest_recordAt n ha hcount]
  exact ok.filled st j _ hj (by dsimp only at hk; omega)

theorem unjoinStream (ok : StoreOk s) (hj : (s.rs.stream st).join = some j) :
    StoreOk (Machine.unjoinStream st j s) := by
  obtain ⟨a, hdef, ha, hsized, _⟩ := ok.joined hj
  refine ok.moved hj hdef (unjoinStream_moved ha hsized.pos) fun i hi => ?_
  rw [unjoinStream_stream] at hi
  cases hi

theorem offer (ok : StoreOk s) (st : Stream) (rec : Record) : StoreOk (Machine.offer st rec s) := by
  unfold Machine.offer
  split
  · unfold offerUnjoined
    split
    · exact ok
    all_goals exact ok.dropRecord _
  · next j hj =>
    split
    · next hroom => exact ok.appendRecord hj hroom rec
    · next hfull =>
      unfold offerFull
      split
      · exact ok
      · exact ok.dropRecord _
      · exact ok.dropRecord _
      · exact ok.overwriteRecord hj hfull rec

end StoreOk

end Sys2Proof.Machine

/-! PROOFS. Every step keeps the record store sound (R148 to R156). -/

namespace Sys2Proof.Machine

set_option Elab.async false

theorem Store.defined_reset (i : Nat) (a : Area) (h : Store.reset.defined i = some a) :
    (i = 0 ∧ a = ⟨0, 96⟩) ∨ (i = 1 ∧ a = ⟨96, 64⟩) ∨ (i = 2 ∧ a = ⟨160, 64⟩) ∨ (i = 3 ∧ a = ⟨224, 32⟩) := by
  match i, h with
  | 0, h => exact .inl ⟨rfl, (Option.some.inj h).symm⟩
  | 1, h => exact .inr (.inl ⟨rfl, (Option.some.inj h).symm⟩)
  | 2, h => exact .inr (.inr (.inl ⟨rfl, (Option.some.inj h).symm⟩))
  | 3, h => exact .inr (.inr (.inr ⟨rfl, (Option.some.inj h).symm⟩))
  | 4, h => exact nomatch h
  | 5, h => exact nomatch h
  | n + 6, h => simp [Store.defined, Store.reset] at h

theorem Store.joined_reset (st : Stream) (j : Join) (h : (Store.reset.stream st).join = some j) :
    j.count = 0 ∧ ∃ a, Store.reset.defined j.area = some a ∧ a.holds j.head := by
  cases st <;> cases h <;> exact ⟨rfl, _, rfl, by decide, by decide⟩

theorem Store.joined_iff {r : Store} {i : Nat} :
    r.joined i = true ↔ ∃ st j, (r.stream st).join = some j ∧ j.area = i := by
  have hon (x : StreamState) : (x.join.any fun j => j.area == i) = true ↔ ∃ j, x.join = some j ∧ j.area = i := by
    cases x.join <;> simp
  simp only [Store.joined, Bool.or_eq_true, hon]
  constructor
  · rintro (((h | h) | h) | h)
    · exact ⟨.billing, h⟩
    · exact ⟨.insulation, h⟩
    · exact ⟨.events, h⟩
    · exact ⟨.readings, h⟩
  · rintro ⟨st, h⟩
    cases st
    · exact .inl (.inl (.inl h))
    · exact .inl (.inl (.inr h))
    · exact .inl (.inr h)
    · exact .inr h

@[simp] theorem Store.putArea_slots (r : Store) (i : Nat) (x : Option Area) : (r.putArea i x).slots = r.slots := rfl

@[simp] theorem Store.putArea_stream (r : Store) (i : Nat) (x : Option Area) (st : Stream) :
    (r.putArea i x).stream st = r.stream st := by cases st <;> rfl

theorem Store.defined_putArea_self {r : Store} {i : Nat} (hi : i ≤ 5) (x : Option Area) :
    (r.putArea i x).defined i = x := by
  have hi : i < 6 := by omega
  simp [Store.defined, Store.putArea, hi]

theorem Store.defined_putArea_other (r : Store) {i k : Nat} (h : k ≠ i) (x : Option Area) :
    (r.putArea i x).defined k = r.defined k := by
  simp [Store.defined, Store.putArea, h.symm]

theorem Store.area_eq (r : Store) (i : Nat) : r.area i = (r.defined i).getD ⟨0, 0⟩ := by
  unfold Store.area Store.defined
  cases r.areas[i]? with
  | none => rfl
  | some x => cases x <;> rfl

/-- The run shares a slot with the area of another entry (R150). -/
theorem Store.overlaps_iff {r : Store} {i : Nat} {a : Area} :
    r.overlaps i a = true ↔ ∃ k b, k ≠ i ∧ r.defined k = some b ∧ a.meets b = true := by
  simp only [Store.overlaps, List.any_eq_true, List.mem_range, Bool.and_eq_true, bne_iff_ne]
  constructor
  · rintro ⟨k, _, hne, h⟩
    split at h
    · next b hb => exact ⟨k, b, hne, by rw [Store.defined, hb], h⟩
    · cases h
  · rintro ⟨k, b, hne, hb, h⟩
    unfold Store.defined at hb
    split at hb
    · next x hx =>
      subst hb
      refine ⟨k, (Vector.getElem?_eq_some_iff.mp hx).1, hne, ?_⟩
      rw [hx]
      exact h
    · cases hb

namespace StoreOk
variable {s t : State}

/-! ## Billing -/

theorem placeRecord (ok : StoreOk s) (r : BillingRecord) : StoreOk (Machine.placeRecord r s) := by
  unfold Machine.placeRecord
  split
  · exact ok.offer _ _
  · split
    · exact ok.of_rs rfl
    · exact ok

theorem appendHeld (ok : StoreOk s) : StoreOk (Machine.appendHeld s) := by
  unfold Machine.appendHeld
  split
  · exact ok
  · split
    · exact (ok.offer _ _).touches (onCt_touches _ _)
    · exact ok

theorem realClose (ok : StoreOk s) (reason : BillingReason) (lockout : Bool) (i : Interval) :
    StoreOk (Machine.realClose reason lockout i s) := by
  unfold Machine.realClose
  extract_lets r u v
  have hu : StoreOk u := ok.touches (onCt_touches s _)
  have hv : StoreOk v := by
    simp only [v]
    split
    · exact hu.placeRecord r
    · exact hu.of_rs rfl
  exact (hv.touches (occur_touches _ _)).touches (applyStaged_touches _ _)

theorem finalClose (ok : StoreOk s) (reason : BillingReason) (lockout : Bool) :
    StoreOk (Machine.finalClose reason lockout s) := by
  unfold Machine.finalClose
  extract_lets u
  have hu : StoreOk u := ok.touches (onEa_touches s _)
  split
  · exact hu
  · exact (hu.realClose _ _ _).touches (onCt_touches _ _)

theorem placeFinal (ok : StoreOk s) : StoreOk (Machine.placeFinal s) := by
  unfold Machine.placeFinal
  split
  · exact ok
  · split
    · exact ((ok.placeRecord _).touches (onCt_touches _ _)).touches (sessionEnd_touches _)
    · exact ok

theorem billingGainsRoom (ok : StoreOk s) : StoreOk (Machine.billingGainsRoom s) := ok.appendHeld.placeFinal

/-! ## Closes and moves -/

theorem commandZeroReached (ok : StoreOk s) : StoreOk (Machine.commandZeroReached s) := by
  unfold Machine.commandZeroReached
  split
  · exact ((ok.touches (onSc_touches s _)).finalClose _ _).touches (answerClose_touches _)
  · exact ok

theorem enterClosing (ok : StoreOk s) (r : CloseReason) : StoreOk (Machine.enterClosing r s) :=
  ((ok.touches (onSc_touches s _)).touches (setState_touches _ _)).commandZeroReached

theorem enterLockout (ok : StoreOk s) (r : LockoutReason) : StoreOk (Machine.enterLockout r s) := by
  unfold Machine.enterLockout
  split
  · unfold addLockoutReason
    split
    · exact ok
    · exact (ok.touches (onSc_touches s _)).touches (raiseAll_touches _ _)
  · extract_lets asks u v w
    have hu : StoreOk u := ok.touches (onSc_touches s _)
    have hv : StoreOk v := by
      simp only [v]
      split
      · exact (hu.touches (onSc_touches u _)).finalClose _ _
      · exact hu.touches (markFinal_touches _ _)
    have hw : StoreOk w := (hv.touches (setState_touches _ _)).touches (heaterLockout_touches _)
    split
    · exact hw.touches (answerClose_touches _)
    · exact hw

theorem takeLevel (ok : StoreOk s) (l : Level) : StoreOk (Machine.takeLevel l s) := by
  unfold Machine.takeLevel
  split
  · exact ok.enterLockout _
  · exact (ok.touches (onSc_touches s _)).touches (holdMove_touches _)

theorem plugTransition (ok : StoreOk s) (l : Plug) : StoreOk (Machine.plugTransition l s) := by
  unfold Machine.plugTransition
  cases l with
  | present =>
    dsimp only
    split
    · exact ok.touches (setState_touches _ _)
    all_goals exact ok
  | absent =>
    dsimp only
    split
    case h_1 => exact ok.touches (setState_touches _ _)
    case h_2 | h_3 | h_4 | h_5 => exact (ok.touches (onSc_touches s _)).enterClosing _
    case h_6 => exact ok.touches (setCommand_touches _ _)
    all_goals exact ok

theorem scTake (ok : StoreOk s) (x : SampleSet) : StoreOk (Machine.scTake x s) := by
  unfold Machine.scTake
  dsimp only
  split
  · exact (ok.touches (onSc_touches s _)).plugTransition _
  · exact (ok.touches (onSc_touches s _)).touches (sampleMove_touches _)

/-! ## The power command -/

theorem takeSetpoint (ok : StoreOk s) (x : SampleSet) : StoreOk (Machine.takeSetpoint x s) := by
  have hrecompute := ok.touches (recompute_touches x.vBus s)
  unfold Machine.takeSetpoint
  split
  case h_3 => exact (hrecompute.touches (setCommand_touches _ _)).commandZeroReached
  case h_1 | h_2 => exact hrecompute.touches (setCommand_touches _ _)
  all_goals exact (ok.touches (setCommand_touches _ _)).touches (recompute_touches _ _)

theorem takeDerate (ok : StoreOk s) (x : SampleSet) : StoreOk (Machine.takeDerate x s) := by
  unfold Machine.takeDerate
  dsimp only
  have hraised (f : Power → Power) : StoreOk (occur .derateChanged (raiseAll .derate (s.onPc f))) :=
    ((ok.touches (onPc_touches s f)).touches (raiseAll_touches _ _)).touches (occur_touches _ _)
  split
  · exact ok
  · split
    · exact (hraised _).enterLockout _
    · exact hraised _

theorem pcTake (ok : StoreOk s) (x : SampleSet) : StoreOk (Machine.pcTake x s) := by
  have hwindow : StoreOk (takeWindow x (Machine.takeDerate x s)) := (ok.takeDerate x).touches (onPc_touches _ _)
  have hexhausted : StoreOk (takeExhaustion (takeWindow x (Machine.takeDerate x s))) := hwindow.touches (onPc_touches _ _)
  exact hexhausted.takeSetpoint x

theorem limitUpdate (ok : StoreOk s) : StoreOk (Machine.limitUpdate s) := by
  have hrecompute := ok.touches (recomputeNow_touches s)
  unfold Machine.limitUpdate
  dsimp only
  split
  case h_1 | h_2 | h_3 => exact (hrecompute.touches (setCommand_touches _ _)).commandZeroReached
  all_goals exact hrecompute

theorem writeOffer (ok : StoreOk s) (x : Nat) : StoreOk (Machine.writeOffer x s) := by
  unfold Machine.writeOffer
  dsimp only
  split
  · exact (ok.touches (onSc_touches s _)).limitUpdate
  · exact ((ok.touches (onSc_touches s _)).touches (occur_touches _ _)).limitUpdate

theorem storeItem (ok : StoreOk s) (k : Item) (v : Nat) : StoreOk (Machine.storeItem k v s) := by
  have hcfg := ok.touches (onCfg_touches s fun i => i.put k v)
  unfold Machine.storeItem
  cases k
  case obcPmax | obcEff =>
    dsimp only [itemEffect]
    split
    · exact hcfg.limitUpdate
    · exact hcfg
  case heatIdleS =>
    dsimp only [itemEffect]
    split
    · exact hcfg.touches (idleChanged_touches _)
    · exact hcfg
  case pulseWhInt | pulseWhEighths => exact hcfg.touches (onEa_touches _ _)
  case snapPeriodS => exact hcfg.touches (onSe_touches _ _)
  case markBilling | markInsulation | markEvents | markReadings => exact hcfg.touches (refreshStream_touches _)
  all_goals exact hcfg

/-! ## The insulation monitor -/

theorem setLevel (ok : StoreOk s) (l : Level) (x : Figures) : StoreOk (Machine.setLevel l x s) := by
  unfold Machine.setLevel
  split
  · exact ok
  · extract_lets u v w
    have hv : StoreOk v := ((ok.touches (onIm_touches s _)).touches (raiseAll_touches _ _)).touches (occur_touches _ _)
    have hw : StoreOk w := by
      simp only [w]
      split
      · exact hv.touches (appendFault_touches _ _ _)
      · exact hv
    exact hw.takeLevel l

theorem takeWorse (ok : StoreOk s) (k : Class) (x : Figures) (leg : Bool) : StoreOk (Machine.takeWorse k x leg s) := by
  unfold Machine.takeWorse
  extract_lets run u
  have hu : StoreOk u := ok.touches (onIm_touches s _)
  split
  · split
    · exact hu.of_rs rfl
    · exact hu.setLevel _ _
  · exact hu

theorem takeBetter (ok : StoreOk s) (k : Class) (x : Figures) : StoreOk (Machine.takeBetter k x s) := by
  unfold Machine.takeBetter
  extract_lets run u
  have hu : StoreOk u := ok.touches (onIm_touches s _)
  split
  · exact hu.setLevel _ _
  · exact hu

theorem takeClass (ok : StoreOk s) (k : Class) (x : Figures) (leg : Bool) : StoreOk (Machine.takeClass k x leg s) := by
  have hempty : StoreOk (emptyRuns s) := ok.touches (onIm_touches s _)
  unfold Machine.takeClass
  split
  case h_4 =>
    split
    · exact hempty
    · split
      · exact ok.takeWorse _ _ _
      · exact ok.takeBetter _ _
  case h_1 | h_2 =>
    split
    · exact ok.takeWorse _ _ _
    · exact ok.setLevel _ _
  case h_3 =>
    split
    · exact hempty
    · exact ok.takeWorse _ _ _
  case h_5 =>
    split
    · exact hempty
    · exact ok.takeBetter _ _

theorem takeLocalisation (ok : StoreOk s) (r : ResultRecord) : StoreOk (Machine.takeLocalisation r s) := by
  unfold Machine.takeLocalisation
  extract_lets rec0 u
  have hu : StoreOk u := ok.touches (onIm_touches s _)
  split
  · exact (((hu.touches (isolateLeg_touches _)).touches (appendFault_touches .heaterLeg rec0 _)).setLevel _ _).touches
      (onIm_touches _ _)
  · exact (hu.touches (releaseLeg_touches _)).setLevel _ _

theorem resultEvent (ok : StoreOk s) (r : ResultRecord) : StoreOk (Machine.resultEvent r s) := by
  have hkept : StoreOk (keepResult r (Machine.offer .insulation (.result r) s)) :=
    (ok.offer _ _).touches (onIm_touches _ _)
  refine touches ?_ (seekVerdict_touches _ _ _)
  unfold applyResult
  split
  · exact hkept.takeLocalisation r
  · split
    · exact hkept.takeClass _ _ _
    · exact hkept

theorem endInvalid (ok : StoreOk s) (why : InvalidReason) (u : Nat) : StoreOk (Machine.endInvalid why u s) :=
  ((ok.touches (endMeasurement_touches s)).touches (stamped_touches _)).resultEvent _

theorem settleB (ok : StoreOk s) (x : ChassisSample) : StoreOk (Machine.settleB x s) :=
  ((ok.touches (endMeasurement_touches s)).touches (stamped_touches _)).resultEvent _

theorem disturb (ok : StoreOk s) : StoreOk (Machine.disturb s) := by
  unfold Machine.disturb
  split
  · split
    · exact ok.of_rs rfl
    · exact ok.endInvalid _ _
  · exact ok

theorem takeReports (before : State) (ok : StoreOk s) : StoreOk (Machine.takeReports before s) := by
  have hcommand : StoreOk (if commandFell before s then Machine.disturb s else s) := by
    split
    · exact ok.disturb
    · exact ok
  unfold Machine.takeReports
  split
  · dsimp only
    split
    · exact hcommand.disturb
    · exact hcommand
  · exact ok

theorem takeChassis (ok : StoreOk s) (x : ChassisSample) : StoreOk (Machine.takeChassis x s) := by
  unfold Machine.takeChassis
  dsimp only
  split
  case h_1 =>
    split
    · split <;> exact ok.of_rs rfl
    · exact ok
  case h_2 =>
    split
    · split
      · exact ok.settleB x
      · exact ok.of_rs rfl
    · exact ok
  all_goals exact ok

theorem imTake (ok : StoreOk s) (x : SampleSet) : StoreOk (Machine.imTake x s) := by
  unfold Machine.imTake
  dsimp only
  split
  · exact ok.touches (runningBegins_touches s)
  · split
    · unfold runningEnds
      dsimp only
      split
      · exact (ok.touches (onIm_touches s _)).endInvalid _ _
      · exact ok.touches (onIm_touches s _)
    · exact ok

theorem levelAges (ok : StoreOk s) : StoreOk (Machine.levelAges s) := (ok.touches (onIm_touches s _)).setLevel _ _

/-! ## The clock -/

theorem closeAtTick (ok : StoreOk s) : StoreOk (Machine.closeAtTick s) := by
  unfold Machine.closeAtTick
  extract_lets u
  have hu : StoreOk u := by
    simp only [u]
    split
    · unfold tickClose
      split
      · exact (ok.realClose _ _ _).touches (openInterval_touches _ _)
      · exact (ok.touches (mergedClose_touches _ _)).touches (lookUpPrice_touches _)
    · exact ok
  split
  · exact hu.touches (lookUpPrice_touches u)
  · exact hu

theorem tick (ok : StoreOk s) : StoreOk (Machine.tick s) := by
  have hcount := ok.touches (countSecond_touches s)
  unfold Machine.tick
  dsimp only
  split
  · exact hcount
  · exact hcount.closeAtTick.touches (countPeriodic_touches _)

theorem setTime (ok : StoreOk s) (day sec : Nat) : StoreOk (Machine.setTime day sec s) := by
  unfold Machine.setTime
  split
  · exact (ok.touches (onCt_touches s _)).touches (lookUpPrice_touches _)
  · split
    · exact ((ok.realClose _ _ _).touches (onCt_touches _ _)).touches (openInterval_touches _ _)
    · exact ((ok.touches (mergedClose_touches _ _)).touches (onCt_touches _ _)).touches (lookUpPrice_touches _)

/-! ## Resets and snapshots -/

/-- The default plan (R163). -/
theorem reset (h : t.rs = Store.reset) : StoreOk t := by
  have hdef := Store.defined_reset
  have hjoin := Store.joined_reset
  rw [← h] at hdef hjoin
  constructor
  · rw [h]
    rfl
  · intro i a hi
    obtain ⟨-, rfl⟩ | ⟨-, rfl⟩ | ⟨-, rfl⟩ | ⟨-, rfl⟩ := hdef i a hi <;> exact ⟨by decide, by decide⟩
  · intro i k a b hne hi hk
    obtain ⟨rfl, rfl⟩ | ⟨rfl, rfl⟩ | ⟨rfl, rfl⟩ | ⟨rfl, rfl⟩ := hdef i a hi <;>
      obtain ⟨rfl, rfl⟩ | ⟨rfl, rfl⟩ | ⟨rfl, rfl⟩ | ⟨rfl, rfl⟩ := hdef k b hk <;>
      first | exact absurd rfl hne | decide
  · intro st j hj
    obtain ⟨hcount, a, ha, hhead⟩ := hjoin st j hj
    exact ⟨a, ha, hhead.1, hhead.2, by rw [hcount]; exact Nat.zero_le _⟩
  · intro st j k hj hk
    obtain ⟨hcount, -⟩ := hjoin st j hj
    rw [hcount] at hk
    cases hk
  · intro st st' j j' hne hj hj'
    rw [h] at hj hj'
    cases st <;> cases st' <;> cases hj <;> cases hj' <;> first | exact absurd rfl hne | decide

theorem resetRises (ok : StoreOk s) : StoreOk (Machine.resetRises s) := by
  unfold Machine.resetRises
  split
  · have hwarm : StoreOk (warmValues s) := ok.of_rs rfl
    have hclose : StoreOk (abortedClose (warmValues s)) := by
      unfold abortedClose
      split
      · exact (hwarm.finalClose _ _).touches (answerClose_touches _)
      · exact hwarm.touches (markFinal_touches _ _)
    exact (((hclose.touches (applyStaged_touches .station _)).touches (applyStaged_touches .fleet _)).touches
      (refreshStream_touches _)).touches (onEa_touches _ _)
  · exact ok

theorem complete (ok : StoreOk s) : StoreOk (Machine.complete s) := by
  unfold Machine.complete
  split
  · exact ok
  · exact (((ok.offer _ _).touches (countUse_touches _ _ _)).touches (onSe_touches _ _)).touches (comeUp_touches _ _ _ _ _)

/-! ## The plan -/

/-- The entry of an area no stream is joined to may be written where the new area is sized and meets no other (R150,
R151). -/
theorem putArea (ok : StoreOk s) {i : Nat} (hi : i ≤ 5) (hfree : s.rs.joined i = false) (x : Option Area)
    (hx : ∀ a, x = some a → a.sized ∧ ∀ k b, k ≠ i → s.rs.defined k = some b → a.meets b = false) :
    StoreOk (s.onRs fun r => r.putArea i x) := by
  have hself : (s.rs.putArea i x).defined i = x := Store.defined_putArea_self hi x
  have hother {k} (h : k ≠ i) : (s.rs.putArea i x).defined k = s.rs.defined k := Store.defined_putArea_other _ h x
  have hjoined {st j} (hj : (s.rs.stream st).join = some j) : j.area ≠ i := by
    intro h
    have := Store.joined_iff.mpr ⟨st, j, hj, h⟩
    rw [hfree] at this
    cases this
  have hmeets (a b : Area) : a.meets b = b.meets a := by simp only [Area.meets, Bool.and_comm]
  constructor <;> simp only [State.onRs_rs, Store.putArea_slots, Store.putArea_stream]
  · exact ok.slots
  · intro k a hk
    by_cases h : k = i
    · subst h
      exact (hx a (hself.symm.trans hk)).1
    · exact ok.sized k a ((hother h).symm.trans hk)
  · intro k n a b hne hk hn
    by_cases h : k = i
    · subst h
      exact (hx a (hself.symm.trans hk)).2 n b hne.symm ((hother hne.symm).symm.trans hn)
    · have hk' := (hother h).symm.trans hk
      by_cases h' : n = i
      · subst h'
        rw [hmeets]
        exact (hx b (hself.symm.trans hn)).2 k a h hk'
      · exact ok.apart k n a b hne hk' ((hother h').symm.trans hn)
  · intro st j hj
    rw [hother (hjoined hj)]
    exact ok.joins st j hj
  · intro st j k hj hk
    have harea : (s.rs.putArea i x).area j.area = s.rs.area j.area := by
      rw [Store.area_eq, Store.area_eq, hother (hjoined hj)]
    have hrec : recordAt j k (s.rs.putArea i x) = recordAt j k s.rs := by
      rw [recordAt, recordAt, harea, Store.putArea_slots]
    rw [hrec]
    exact ok.filled st j k hj hk
  · exact ok.own

theorem answerAreaSet (ok : StoreOk s) (b : List Byte) : StoreOk (Machine.answerAreaSet b s).state := by
  unfold Machine.answerAreaSet
  dsimp only
  split
  · exact ok.touches (draw_touches s)
  · next hnone =>
    unfold areaSetRefusal at hnone
    split at hnone
    · cases hnone
    next hi =>
    split at hnone
    · cases hnone
    next hjoined =>
    split at hnone
    · cases hnone
    next hsize =>
    split at hnone
    · cases hnone
    next hover =>
    refine (ok.putArea (not_lt.mp hi) (Bool.eq_false_iff.mpr hjoined) _ fun a ha => ?_).touches (draw_touches _)
    cases ha
    dsimp only at hsize
    refine ⟨⟨by dsimp only; omega, by dsimp only; omega⟩, fun k c hk hc => ?_⟩
    by_contra h
    exact hover (Store.overlaps_iff.mpr ⟨k, c, hk, hc, Bool.eq_true_of_not_eq_false h⟩)

theorem answerAreaClear (ok : StoreOk s) (b : List Byte) : StoreOk (Machine.answerAreaClear b s).state := by
  unfold Machine.answerAreaClear
  split
  · exact ok.touches (draw_touches s)
  · next hi =>
    split
    · exact ok.touches (draw_touches s)
    · next hjoined =>
      exact (ok.putArea (not_lt.mp hi) (Bool.eq_false_iff.mpr hjoined) none fun a ha => by cases ha).touches
        (draw_touches _)

theorem joinStream (ok : StoreOk s) {st : Stream} {i : Nat} {a : Area} (hst : (s.rs.stream st).join = none)
    (ha : s.rs.defined i = some a) (hfree : s.rs.joined i = false) (p : Port) :
    StoreOk (Machine.joinStream st i a p s) := by
  have hput : StoreOk (s.onRs fun r => r.putStream st { r.stream st with join := some ⟨i, p, a.first, 0⟩ }) := by
    have hdef := Store.defined_congr (Store.putStream_areas s.rs st
      { s.rs.stream st with join := some ⟨i, p, a.first, 0⟩ })
    have hself := Store.stream_putStream_self s.rs st { s.rs.stream st with join := some ⟨i, p, a.first, 0⟩ }
    have hother {x} (h : x ≠ st) :=
      Store.stream_putStream_other s.rs h { s.rs.stream st with join := some ⟨i, p, a.first, 0⟩ }
    have hjoined {st j} (hj : (s.rs.stream st).join = some j) : j.area ≠ i := by
      intro h
      have := Store.joined_iff.mpr ⟨st, j, hj, h⟩
      rw [hfree] at this
      cases this
    constructor <;> simp only [State.onRs_rs, Store.putStream_slots, hdef]
    · exact ok.slots
    · exact ok.sized
    · exact ok.apart
    · intro x j hj
      by_cases h : x = st
      · subst h
        rw [hself, Option.some.injEq] at hj
        subst hj
        exact ⟨a, ha, le_rfl, by have := (ok.sized i a ha).1; dsimp only; omega, Nat.zero_le _⟩
      · rw [hother h] at hj
        exact ok.joins x j hj
    · intro x j k hj hk
      by_cases h : x = st
      · subst h
        rw [hself, Option.some.injEq] at hj
        subst hj
        cases hk
      · rw [hother h] at hj
        have := ok.filled x j k hj hk
        rwa [recordAt, Store.area_congr (Store.putStream_areas _ _ _), Store.putStream_slots]
    · intro x y j j' hne hj hj'
      by_cases h : x = st
      · subst h
        rw [hself, Option.some.injEq] at hj
        rw [hother hne.symm] at hj'
        subst hj
        exact (hjoined hj').symm
      · rw [hother h] at hj
        by_cases h' : y = st
        · subst h'
          rw [hself, Option.some.injEq] at hj'
          subst hj'
          exact hjoined hj
        · rw [hother h'] at hj'
          exact ok.own x y j j' hne hj hj'
  unfold Machine.joinStream
  dsimp only
  split
  · exact (hput.touches (refreshStream_touches _)).billingGainsRoom
  · exact hput.touches (refreshStream_touches _)

theorem answerJoin (ok : StoreOk s) (b : List Byte) : StoreOk (Machine.answerJoin b s).state := by
  have hdraw {w : State} (hw : StoreOk w) : StoreOk w.draw := hw.touches (draw_touches w)
  unfold Machine.answerJoin
  split
  · next a _ _ ha =>
    split
    · exact hdraw ok
    · next hst =>
      split
      · exact hdraw ok
      · next hfree =>
        exact hdraw (ok.joinStream (Option.not_isSome_iff_eq_none.mp hst) ha (Bool.eq_false_iff.mpr hfree) _)
  · exact hdraw ok

theorem answerUnjoin (ok : StoreOk s) (b : List Byte) : StoreOk (Machine.answerUnjoin b s).state := by
  have hdraw {w : State} (hw : StoreOk w) : StoreOk w.draw := hw.touches (draw_touches w)
  unfold Machine.answerUnjoin
  split
  · exact hdraw ok
  · split
    · exact hdraw ok
    · next j hj =>
      split
      · exact hdraw ok
      · split
        · exact hdraw ok
        · exact hdraw (ok.unjoinStream hj)

theorem ackStream (ok : StoreOk s) {st : Stream} {j : Join} (hj : (s.rs.stream st).join = some j) (n : Nat) :
    StoreOk (Machine.ackStream n st j s).state := by
  have hold := ok.takeOldest hj n
  unfold Machine.ackStream
  dsimp only
  split
  · exact hold.billingGainsRoom
  · exact hold

end StoreOk

end Sys2Proof.Machine

/-! PROOFS. Every command keeps the record store and the snapshot tables sound (R148 to R156, R167 to R173). -/

namespace Sys2Proof.Machine

set_option Elab.async false

namespace StoreOk
variable {s t : State}

theorem kept : Kept StoreOk where
  ports _ _ w ok := ok.touches w
  elapse dt s ok := ok.touches (elapse_touches dt s)
  reports s _ ok := ok.takeReports s

theorem exec {c : Instr} (ht : Machine.exec c s = .next t) (ok : StoreOk s) : StoreOk t := by
  have hif (a : Prop) [Decidable a] (u : State) (hu : StoreOk u) : StoreOk (if a then u else s) := by
    split
    · exact hu
    · exact ok
  have htick : StoreOk (nextTick s) := (ok.touches (elapse_touches _ _)).tick
  have hfe (f : FrontEnd → FrontEnd) : StoreOk (s.onFe f) := ok.touches (onFe_touches s f)
  have htake : StoreOk (taking s.fe.dueSc (fun x s => Machine.scTake x (s.onFe FrontEnd.scTook)) s) :=
    kept.taking _ _ s ok fun x _ => (hfe _).scTake x
  have hupdate : StoreOk (pcUpdate s) := kept.taking _ _ s ok fun x _ => (hfe _).pcTake x
  cases c
  case coldReset => cases ht; exact reset rfl
  case resetNFall => cases ht; exact ok.touches (resetFalls_touches s)
  case resetNRise => cases ht; exact ok.resetRises
  case scSampleTaking => cases ht; exact htake
  case plugDebounceChange => cases ht; exact hif _ _ htake
  case pcUpdate => cases ht; exact hupdate
  case derateWindowEnd => cases ht; exact hif _ _ hupdate
  case imSampleTaking => cases ht; exact kept.taking _ _ s ok fun x _ => (hfe _).imTake x
  case chassisSample v =>
    cases ht
    exact kept.atEnd _ _ s ok fun dt _ ok => (ok.touches (onFe_touches _ _)).takeChassis _
  case phaseTimerExpiry => cases ht; exact kept.atEnd _ _ s ok fun dt _ ok => ok.endInvalid _ _
  case levelAgeExpiry => cases ht; exact kept.atEnd _ _ s ok fun dt _ ok => ok.levelAges
  case verificationTimerExpiry => cases ht; exact kept.atEnd _ _ s ok fun dt _ ok => ok.enterClosing _
  case clockTick => cases ht; exact htick
  case boundaryClose => cases ht; exact hif _ _ htick
  case periodClose => cases ht; exact hif _ _ htick
  case periodicTimerExpiry => cases ht; exact hif _ _ htick
  case heldRecordAppend => cases ht; exact kept.event _ s ok fun ok => ok.appendHeld
  case pendingFinalPlaced => cases ht; exact kept.event _ s ok fun ok => ok.placeFinal
  case compositionComplete => cases ht; exact kept.atEnd _ _ s ok fun dt _ ok => ok.complete
  case offerUpdate p b =>
    cases ht
    refine kept.request _ _ _ _ s ok fun u _ ok => ?_
    unfold answerOffer
    split
    · exact ok.writeOffer _
    · exact ok
  case sessionClose p b =>
    cases ht
    refine kept.request _ _ _ _ s ok fun u _ ok => ?_
    unfold answerSessionClose
    split
    case h_5 => exact ok
    case h_6 | h_7 | h_8 => split <;> exact ok
    all_goals exact ok.enterClosing _
  case configSet p b =>
    cases ht
    refine kept.request _ _ _ _ s ok fun u _ ok => ?_
    unfold answerConfigSet
    split
    · exact ok
    · split
      · exact ok
      · exact ok.storeItem _ _
  case timeSet p b =>
    cases ht
    refine kept.request _ _ _ _ s ok fun u _ ok => ?_
    unfold answerTime
    split
    · exact ok
    · exact ok.setTime _ _
  case areaSet p b => cases ht; exact kept.request _ _ _ _ s ok fun u _ ok => ok.answerAreaSet b
  case areaClear p b => cases ht; exact kept.request _ _ _ _ s ok fun u _ ok => ok.answerAreaClear b
  case join p b => cases ht; exact kept.request _ _ _ _ s ok fun u _ ok => ok.answerJoin b
  case unjoin p b => cases ht; exact kept.request _ _ _ _ s ok fun u _ ok => ok.answerUnjoin b
  case streamAck p b =>
    cases ht
    refine kept.request _ _ _ _ s ok fun u _ ok => ?_
    exact consume_keeps p _ _ u ok (fun t w => ok.touches w) fun st j hj => ok.ackStream hj _
  all_goals exact exec_keeps kept _ (fun u v w ok => ok.touches w.frame) ht ok

end StoreOk

/-! ## The snapshot tables -/

theorem desc_putDesc_self (e : SnapshotEngine) (i : Nat) (d : Descriptor) : (e.putDesc i d).desc i = d := by
  simp only [SnapshotEngine.putDesc, SnapshotEngine.desc, vput_get_self]

theorem desc_putDesc_other (e : SnapshotEngine) {i k : Nat} (hi : i ≤ 15) (hk : k ≤ 15) (h : k ≠ i) (d : Descriptor) :
    (e.putDesc i d).desc k = e.desc k := by
  simp only [SnapshotEngine.putDesc, SnapshotEngine.desc, Nat.min_eq_left hi, Nat.min_eq_left hk]
  refine vput_get_other _ _ _ _ ?_
  intro heq
  have := congrArg Fin.val heq
  simp only [Fin.ofNat] at this
  omega

/-- Disabling leaves the descriptors, the service and each first index. -/
structure DisablesOnly (e e' : SnapshotEngine) : Prop where
  descs : e'.descs = e.descs
  service : e'.service = e.service
  first : ∀ k, (e'.vectors.get k).first = (e.vectors.get k).first
  enabled : ∀ k, (e'.vectors.get k).enabled = true → (e.vectors.get k).enabled = true

namespace DisablesOnly
variable {e e' e'' : SnapshotEngine}

theorem refl (e : SnapshotEngine) : DisablesOnly e e := ⟨rfl, rfl, fun _ => rfl, fun _ => id⟩

theorem trans (h : DisablesOnly e e') (h' : DisablesOnly e' e'') : DisablesOnly e e'' :=
  ⟨h'.descs.trans h.descs, h'.service.trans h.service, fun k => (h'.first k).trans (h.first k),
    fun k hk => h.enabled k (h'.enabled k hk)⟩

end DisablesOnly

theorem disable_vector (e : SnapshotEngine) (k n : Fin 12) :
    (e.disable k).vectors.get n = if n = k then { e.vectors.get k with enabled := false } else e.vectors.get n := by
  simp only [SnapshotEngine.disable]
  split
  · next h => rw [h, vput_get_self]
  · next h => rw [vput_get_other _ _ _ _ h]

theorem disable_disablesOnly (e : SnapshotEngine) (k : Fin 12) : DisablesOnly e (e.disable k) := by
  refine ⟨rfl, rfl, fun n => ?_, fun n hn => ?_⟩
  · rw [disable_vector]
    split
    · next h => rw [h]
    · rfl
  · rw [disable_vector] at hn
    split at hn
    · cases hn
    · exact hn

theorem disableWhere_disablesOnly (f : Fin 12 → Bool) (ks : List (Fin 12)) (e : SnapshotEngine) :
    DisablesOnly e (e.disableWhere f ks) := by
  induction ks generalizing e with
  | nil => exact .refl e
  | cons k ks ih =>
    unfold SnapshotEngine.disableWhere
    refine DisablesOnly.trans ?_ (ih _)
    split
    · exact disable_disablesOnly e k
    · exact .refl e

/-- Every source of the list that satisfies the condition is disabled. -/
theorem disableWhere_disabled {f : Fin 12 → Bool} {ks : List (Fin 12)} {k : Fin 12} (hk : k ∈ ks) (hf : f k = true)
    (e : SnapshotEngine) : ((e.disableWhere f ks).vectors.get k).enabled = false := by
  induction ks generalizing e with
  | nil => cases hk
  | cons n ks ih =>
    unfold SnapshotEngine.disableWhere
    rcases List.mem_cons.mp hk with rfl | hmem
    · rw [if_pos hf]
      have hoff : ((e.disable k).vectors.get k).enabled = false := by rw [disable_vector, if_pos rfl]
      by_contra hne
      have := (disableWhere_disablesOnly f ks _).enabled k (Bool.eq_true_of_not_eq_false hne)
      rw [hoff] at this
      cases this
    · exact ih hmem _

theorem mem_sourceList (k : Fin 12) : k ∈ sourceList := by revert k; decide

namespace SnapshotOk
variable {s t : State}

theorem congr (ok : SnapshotOk s) (hv : t.se.vectors = s.se.vectors) (hd : t.se.descs = s.se.descs)
    (hs : t.se.service = s.se.service) : SnapshotOk t where
  first := by rw [hv]; exact ok.first
  live := by
    have hdesc (i : Nat) : t.se.desc i = s.se.desc i := by rw [SnapshotEngine.desc, hd, SnapshotEngine.desc]
    simp only [hv, hdesc]
    exact ok.live
  chain := by rw [hs]; exact ok.chain

/-- What leaves the background of the engine leaves its tables and its service. -/
theorem within {qs : List Block} (ok : SnapshotOk s) (w : Within qs s t) (hq : qs.contains .se = false := by rfl) :
    SnapshotOk t := by
  have hse := Touches.se_eq (s := background s) (t := background t) w hq
  have hvectors := congrArg SnapshotEngine.vectors hse
  have hdescs := congrArg SnapshotEngine.descs hse
  have hservice := congrArg SnapshotEngine.service hse
  exact ok.congr hvectors hdescs hservice

theorem of_se (ok : SnapshotOk s) (h : t.se = s.se) : SnapshotOk t := ok.congr (by rw [h]) (by rw [h]) (by rw [h])

theorem elapse (ok : SnapshotOk s) (dt : Nat) : SnapshotOk (Machine.elapse dt s) := by
  have hse : (Machine.elapse dt s).se = if s.resetLow then s.se else s.se.elapse dt := by
    cases h : s.resetLow <;> simp [Machine.elapse, h]
  split at hse
  · exact ok.of_se hse
  · refine ⟨?_, ?_, fun v hv => ?_⟩
    · rw [hse]; exact ok.first
    · rw [hse]; exact ok.live
    · rw [hse] at hv
      simp only [SnapshotEngine.elapse, Option.map_eq_some_iff] at hv
      obtain ⟨w, hw, rfl⟩ := hv
      exact ok.chain w hw

theorem kept : Kept SnapshotOk where
  ports _ _ w ok := ok.within w.within
  elapse dt _ ok := ok.elapse dt
  reports s t ok := ok.within ((takeReports_quiet s t).within [])

theorem noService (ok : SnapshotOk s) (hv : t.se.vectors = s.se.vectors) (hd : t.se.descs = s.se.descs)
    (hs : t.se.service = none) : SnapshotOk t :=
  ⟨(ok.congr (t := { t with se := { t.se with service := s.se.service } }) hv hd rfl).first,
    (ok.congr (t := { t with se := { t.se with service := s.se.service } }) hv hd rfl).live, fun v h => by
      rw [hs] at h; cases h⟩

theorem beginComposition (ok : SnapshotOk s) (src : Fin 12) (m : Member) (chain : List Nat) {i : Nat} {rest : List Nat}
    (hi : i ≤ 15) (hrest : ∀ n ∈ rest, n ≤ 15) : SnapshotOk (Machine.beginComposition src m chain i rest s) := by
  have hdraw (r : CapturedRecord) : (if fieldDraws r.fieldSet s then s.draw else s).se = s.se := by split <;> rfl
  unfold Machine.beginComposition
  refine ⟨?_, ?_, fun v hv => ?_⟩
  · simp only [State.onSe_se, hdraw]; exact ok.first
  · simp only [State.onSe_se, hdraw]; exact ok.live
  · simp only [State.onSe_se, Option.some.injEq] at hv
    subst hv
    exact ⟨hi, hrest⟩

theorem comeUp (ok : SnapshotOk s) (src : Fin 12) (m : Member) (chain : List Nat) {l : List Nat}
    (hl : ∀ n ∈ l, n ≤ 15) : SnapshotOk (Machine.comeUp src m chain l s) := by
  induction l with
  | nil => exact ok.noService rfl rfl rfl
  | cons i rest ih =>
    obtain ⟨hi, hrest⟩ := List.forall_mem_cons.mp hl
    unfold Machine.comeUp
    split
    · exact ih hrest
    · exact ok.beginComposition src m chain hi hrest

end SnapshotOk

/-- A chain from descriptor `i` over at most `n` more stays in the table (R170). -/
theorem chainFrom_le (e : SnapshotEngine) {n i : Nat} (h : i + n ≤ 15) : ∀ k ∈ chainFrom e n i, k ≤ 15 := by
  induction n generalizing i with
  | zero =>
    intro k hk
    rw [List.mem_singleton.mp hk]
    exact h
  | succ n ih =>
    unfold chainFrom
    split
    · intro k hk
      rcases List.mem_cons.mp hk with rfl | hk
      · omega
      · exact ih (by omega) k hk
    · intro k hk
      rw [List.mem_singleton.mp hk]
      omega

theorem countAfter_spent {d : Descriptor} (h : 1 < d.count ∨ d.repeating = true) :
    ({ d with count := d.countAfter } : Descriptor).spent = false := by
  simp only [Descriptor.spent, Descriptor.countAfter]
  rcases h with h | h
  · rw [if_pos h]
    have : (d.count - 1 == 0) = false := by simp; omega
    simp [this]
  · simp [h]

namespace SnapshotOk
variable {s t : State}

theorem select (ok : SnapshotOk s) : SnapshotOk (Machine.select s) := by
  unfold Machine.select
  split
  · next k _ _ =>
    split
    · exact ok
    · refine comeUp (s := State.onSe _ _) (ok.congr rfl rfl rfl) _ _ _ (chainFrom_le _ ?_)
      have := ok.first k
      omega
  · exact ok

/-- The engine with descriptor `i` replaced, and with it the sources disabled that would name it first while spent (R169,
R173). -/
theorem putDesc (ok : SnapshotOk s) {i : Nat} (hi : i ≤ 15) (d : Descriptor) {e : SnapshotEngine}
    (he : DisablesOnly (s.se.putDesc i d) e)
    (hspent : d.spent = true → ∀ k, (s.se.vectors.get k).first = i → (e.vectors.get k).enabled = false)
    (ht : t.se = e) : SnapshotOk t := by
  have hdesc (n : Nat) : e.desc n = (s.se.putDesc i d).desc n := by
    rw [SnapshotEngine.desc, he.descs, SnapshotEngine.desc]
  have hfirst (k : Fin 12) : (e.vectors.get k).first = (s.se.vectors.get k).first := he.first k
  refine ⟨fun k => ?_, fun k hk => ?_, fun v hv => ?_⟩
  · rw [ht, hfirst]
    exact ok.first k
  · rw [ht] at hk ⊢
    rw [hfirst, hdesc]
    by_cases h : (s.se.vectors.get k).first = i
    · rw [h, desc_putDesc_self]
      by_contra hne
      have := hspent (Bool.eq_true_of_not_eq_false hne) k h
      rw [hk] at this
      cases this
    · rw [desc_putDesc_other _ hi (ok.first k) h]
      exact ok.live k (he.enabled k hk)
  · rw [ht, he.service] at hv
    exact ok.chain v hv

theorem countUse (ok : SnapshotOk s) (src : Fin 12) {i : Nat} (hi : i ≤ 15) : SnapshotOk (Machine.countUse src i s) := by
  have hput (h : 1 < (s.se.desc i).count ∨ (s.se.desc i).repeating = true) {u : State}
      (hu : u.se = s.se.putDesc i { s.se.desc i with count := (s.se.desc i).countAfter }) : SnapshotOk u :=
    ok.putDesc hi _ (.refl _) (fun hspent => by rw [countAfter_spent h] at hspent; cases hspent) hu
  unfold Machine.countUse
  dsimp only
  split
  · next h => exact hput (.inl h) rfl
  · split
    · next h => split <;> exact hput (.inr h) rfl
    · refine ok.putDesc hi { s.se.desc i with count := (s.se.desc i).countAfter }
        (disableWhere_disablesOnly (fun k => k == src || SnapshotEngine.names _ i k) sourceList _) (fun _ k hk => ?_) rfl
      refine disableWhere_disabled (mem_sourceList k) ?_ _
      have hnames : (s.se.putDesc i { s.se.desc i with count := (s.se.desc i).countAfter }).names i k = true := by
        simp only [SnapshotEngine.names, SnapshotEngine.putDesc, hk, beq_self_eq_true]
      rw [Bool.or_eq_true]
      exact .inr hnames

theorem complete (ok : SnapshotOk s) : SnapshotOk (Machine.complete s) := by
  unfold Machine.complete
  split
  · exact ok
  · next v hv =>
    obtain ⟨hdesc, hrest⟩ := ok.chain v hv
    have hoffer : SnapshotOk (Machine.offer (s.se.desc v.record.desc).stream (.captured v.record) s) :=
      ok.within ((offer_quiet _ _ _).within [])
    have hcount := hoffer.countUse (Fin.ofNat 12 v.source) hdesc
    exact comeUp (s := State.onSe _ _) (hcount.congr rfl rfl rfl) _ _ _ hrest

theorem writeDesc (ok : SnapshotOk s) {i : Nat} (hi : i ≤ 15) (d : Descriptor) : SnapshotOk (Machine.writeDesc i d s) := by
  have honly := disableWhere_disablesOnly (disabledBy i d s.se) sourceList (s.se.putDesc i d)
  refine ok.putDesc hi d honly (fun hspent k hk => ?_) rfl
  by_cases henabled : (s.se.vectors.get k).enabled = true
  · refine disableWhere_disabled (mem_sourceList k) ?_ _
    simp [disabledBy, hspent, SnapshotEngine.names, hk, henabled]
  · by_contra hne
    exact henabled (honly.enabled k (Bool.eq_true_of_not_eq_false hne))

theorem writeVector (ok : SnapshotOk s) (k : Fin 12) (on : Bool) {i : Nat} (hi : i ≤ 15)
    (hlive : on = true → (s.se.desc i).spent = false) : SnapshotOk (Machine.writeVector k on i s) := by
  have hvector (n : Fin 12) : ((Machine.writeVector k on i s).se.vectors.get n) =
      if n = k then ⟨on, i⟩ else s.se.vectors.get n := by
    simp only [Machine.writeVector, State.onSe_se]
    split
    · next h => rw [h, vput_get_self]
    · next h => rw [vput_get_other _ _ _ _ h]
  refine ⟨fun n => ?_, fun n => ?_, ok.chain⟩
  · rw [hvector]
    split
    · exact hi
    · exact ok.first n
  · rw [hvector]
    split
    · exact hlive
    · exact ok.live n

theorem tick (ok : SnapshotOk s) : SnapshotOk (Machine.tick s) := by
  have hcount : SnapshotOk (countSecond s) := by
    cases h : s.resetLow
    · exact ok.congr (by simp [countSecond, h]) (by simp [countSecond, h]) (by simp [countSecond, h])
    · exact ok.of_se (by simp [countSecond, h])
  unfold Machine.tick
  dsimp only
  split
  · exact hcount
  · have hclose := hcount.within (closeAtTick_reaches _).within
    unfold countPeriodic
    split
    · exact within (s := State.onSe _ _) (hclose.congr rfl rfl rfl) ((occur_quiet _ _).within [])
    · exact hclose.congr rfl rfl rfl

theorem reset (h : t.se = SnapshotEngine.reset) : SnapshotOk t := by
  refine ⟨?_, ?_, ?_⟩ <;> rw [h]
  · decide
  · decide
  · intro v hv
    cases hv

theorem resetRises (ok : SnapshotOk s) : SnapshotOk (Machine.resetRises s) := by
  unfold Machine.resetRises
  split
  · have hwarm : SnapshotOk (warmValues s) := ok.noService rfl rfl rfl
    have hclose : SnapshotOk (abortedClose (warmValues s)) := by
      unfold abortedClose
      split
      · exact (hwarm.within ((finalClose_quiet _ _ _).within [])).within ((answerClose_quiet _).within [])
      · exact hwarm.within ((markFinal_quiet _ _).within [])
    have hstaged := ((hclose.within ((applyStaged_quiet .station _).within [])).within
      ((applyStaged_quiet .fleet _).within [])).within ((refreshStream_quiet _).within [])
    exact hstaged.of_se rfl
  · exact ok

theorem storeItem (ok : SnapshotOk s) (k : Item) (v : Nat) : SnapshotOk (Machine.storeItem k v s) := by
  have hcfg : SnapshotOk (s.onCfg fun i => i.put k v) := ok.of_se rfl
  unfold Machine.storeItem
  cases k
  case obcPmax | obcEff =>
    dsimp only [itemEffect]
    split
    · exact hcfg.within ((limitUpdate_reaches _).within)
    · exact hcfg
  case heatIdleS =>
    dsimp only [itemEffect]
    split
    · exact hcfg.of_se (idleChanged_touches _).se_eq
    · exact hcfg
  case pulseWhInt | pulseWhEighths => exact hcfg.of_se rfl
  case snapPeriodS =>
    dsimp only [itemEffect]
    exact hcfg.congr rfl rfl rfl
  case markBilling | markInsulation | markEvents | markReadings => exact hcfg.within ((refreshStream_quiet _).within [])
  all_goals exact hcfg

theorem exec {c : Instr} (ht : Machine.exec c s = .next t) (ok : SnapshotOk s) : SnapshotOk t := by
  have hif (a : Prop) [Decidable a] (u : State) (hu : SnapshotOk u) : SnapshotOk (if a then u else s) := by
    split
    · exact hu
    · exact ok
  have htick : SnapshotOk (nextTick s) := (ok.elapse _).tick
  cases c
  case coldReset => cases ht; exact reset rfl
  case resetNFall =>
    cases ht
    unfold resetFalls
    split
    · exact ok
    · exact ok.noService rfl rfl rfl
  case resetNRise => cases ht; exact ok.resetRises
  case clockTick => cases ht; exact htick
  case boundaryClose => cases ht; exact hif _ _ htick
  case periodClose => cases ht; exact hif _ _ htick
  case periodicTimerExpiry => cases ht; exact hif _ _ htick
  case snapshotSelection => cases ht; exact kept.event _ s ok fun ok => ok.select
  case compositionComplete => cases ht; exact kept.atEnd _ _ s ok fun dt _ ok => ok.complete
  case configSet p b =>
    cases ht
    refine kept.request _ _ _ _ s ok fun u _ ok => ?_
    unfold answerConfigSet
    split
    · exact ok
    · split
      · exact ok
      · exact ok.storeItem _ _
  case descSet p b =>
    cases ht
    refine kept.request _ _ _ _ s ok fun u _ ok => ?_
    unfold answerDesc
    split
    · exact ok
    · next d hd =>
      split
      · exact ok
      · refine ok.writeDesc ?_ d
        unfold descOf at hd
        split at hd
        · cases hd
        · split at hd
          · cases hd
          · next h => omega
  case vectorSet p b =>
    cases ht
    refine kept.request _ _ _ _ s ok fun u _ ok => ?_
    unfold answerVector
    split
    · exact ok
    · next hrange =>
      split
      · exact ok
      · next hlive =>
        refine ok.writeVector _ _ (by omega) fun hon => ?_
        rw [hon, Bool.true_and] at hlive
        exact Bool.eq_false_iff.mpr hlive
  all_goals exact exec_keeps kept _ (fun u v w ok => ok.within w.within) ht ok

end SnapshotOk

/-- Settles O60: each of the two invariants is kept by every command and by the passing of time. -/
theorem storeStaysSound : Obligations.StoreStaysSound :=
  ⟨fun _ _ ok ht => step_keeps StoreOk.kept (fun _ _ ok => ok.of_rs rfl) (fun _ _ _ => StoreOk.exec) ht ok,
    fun _ _ ok ht => step_keeps SnapshotOk.kept (fun _ _ ok => ok.of_se rfl) (fun _ _ _ => SnapshotOk.exec) ht ok⟩

end Sys2Proof.Machine

/-! PROOFS. The shape of a command: what an event, the end of a timer, a taking and a request are with RESET_N low and with
RESET_N high, and the statements on steps and resets (R1, R9, R13, R34, R47, R72, R178, R180). -/

namespace Sys2Proof.Machine

set_option Elab.async false

/-! ## The shapes of commands -/

section
variable {s : State}

theorem event_low (h : s.resetLow = true) (f : State → State) : event f s = s := if_pos h

theorem event_high (h : s.resetLow = false) (f : State → State) : event f s = takeReports s (f s) :=
  if_neg (by simp [h])

theorem atEnd_none (f : State → State) (s : State) : atEnd none f s = s := rfl

theorem atEnd_low (h : s.resetLow = true) (left : Option Nat) (f : State → State) : atEnd left f s = s := by
  cases left with
  | none => rfl
  | some dt => exact if_pos h

theorem elapse_resetLow (dt : Nat) (s : State) : (elapse dt s).resetLow = s.resetLow := (elapse_touches dt s).resetLow_eq

/-- The end of a running timer: the time left on it passes, then its event is taken. -/
theorem atEnd_high (h : s.resetLow = false) (dt : Nat) (f : State → State) :
    atEnd (some dt) f s = takeReports (elapse dt s) (f (elapse dt s)) := by
  rw [← event_high ((elapse_resetLow dt s).trans h) f]
  exact if_neg (by simp [h])

theorem taking_low (h : s.resetLow = true) (due : Bool) (f : SampleSet → State → State) : taking due f s = s := by
  unfold taking
  split
  · rfl
  · rw [event_low h, ite_self]

theorem taking_not_due (f : SampleSet → State → State) (h : s.fe.latest = none ∨ due = false) : taking due f s = s := by
  unfold taking
  split
  · rfl
  · next x hx => rw [if_neg (by simpa [hx] using h)]

theorem taking_due {x : SampleSet} (h : s.resetLow = false) (hx : s.fe.latest = some x)
    (f : SampleSet → State → State) : taking true f s = takeReports s (f x s) := by
  rw [← event_high h]
  simp [taking, hx]

theorem request_low (h : s.resetLow = true) (p : Port) (k : Kind) (b : List Byte) (act : State → Answer) :
    request p k b act s = s := if_pos h

theorem request_high (h : s.resetLow = false) (p : Port) (k : Kind) (b : List Byte) (act : State → Answer) :
    request p k b act s =
      replies p k (answer p k b act (found p s)).status (answer p k b act (found p s)).body
        (takeReports (found p s) (answer p k b act (found p s)).state) := if_neg (by simp [h])

/-- A request of a right length on a port of its own is answered by the owning block (R180). -/
theorem answer_of_ok {p : Port} {k : Kind} {b : List Byte} (hlen : lengthOk k b = true) (hport : portOk k p = true)
    (act : State → Answer) (s : State) : answer p k b act s = act s := by simp [answer, hlen, hport]

theorem request_of_ok (h : s.resetLow = false) {p : Port} {k : Kind} {b : List Byte} (hlen : lengthOk k b = true)
    (hport : portOk k p = true) (act : State → Answer) :
    request p k b act s =
      replies p k (act (found p s)).status (act (found p s)).body (takeReports (found p s) (act (found p s)).state) := by
  rw [request_high h, answer_of_ok hlen hport]

/-! ## When there is nothing to report -/

theorem takeReports_self (s : State) : takeReports s s = s := takeReports_of_drive_eq rfl rfl

theorem takeReports_of_idle {t : State} (h : s.im.inPhase = false) : takeReports s t = t := if_neg (by simp [h])

end

/-! ## O1: the step -/

/-- Settles O1. -/
theorem stepRunsTheFrontCommand : Obligations.StepRunsTheFrontCommand := by
  refine ⟨fun c rest s h => ?_, fun s h => ?_⟩ <;> unfold step <;> rw [h]

/-! ## O2: RESET_N low -/

/-- No command touches the queue. -/
theorem exec_pending {c : Instr} {s t : State} (ht : exec c s = .next t) : t.pending = s.pending := by
  have hkept : Kept fun t => t.pending = s.pending :=
    { ports := fun u v w h => (w.pending_eq).trans h
      elapse := fun dt u h => ((elapse_touches dt u).pending_eq).trans h
      reports := fun u v h => ((takeReports_touches u v).pending_eq).trans h }
  refine exec_keeps hkept c (fun u v w h => ?_) ht rfl
  have hq : (workOf c).1.contains .pending = false := by cases c <;> rfl
  exact (w.frame.pending_eq hq).trans h

theorem exec_total (c : Instr) (s : State) : ∃ t, exec c s = .next t := by cases c <;> exact ⟨_, rfl⟩

/-- While RESET_N is low nothing but the tick, the end of the reset and a cold reset acts (R1, R178). -/
theorem exec_low {s : State} (h : s.resetLow = true) {c : Instr} (hcold : c ≠ .coldReset) (hrise : c ≠ .resetNRise)
    (htick : c ≠ .clockTick) : exec c s = .next s := by
  have hif (a : Prop) [Decidable a] {u : State} (hu : u = s) : (Host.Outcome.next (if a then u else s) :
      Host.Outcome State Fault Refusal) = .next s := by rw [hu, ite_self]
  have hevent (f : State → State) : event f s = s := event_low h f
  have hend (left : Option Nat) (f : State → State) : atEnd left f s = s := atEnd_low h left f
  have htake (due : Bool) (f : SampleSet → State → State) : taking due f s = s := taking_low h due f
  cases c
  case coldReset => exact absurd rfl hcold
  case resetNRise => exact absurd rfl hrise
  case clockTick => exact absurd rfl htick
  case resetNFall => exact congrArg _ (if_pos h)
  case tempHoldExpiry w => exact hif _ (hend _ _)
  case plugDebounceChange => exact hif _ (htake _ _)
  case derateWindowEnd => exact hif _ (htake _ _)
  case deferredIdleDisconnect => exact hif _ (hevent _)
  case pendingMeasurementStart => exact hif _ (hevent _)
  case boundaryClose => exact congrArg _ (if_neg (by simp [nextCause, h]))
  case periodClose => exact congrArg _ (if_neg (by simp [nextCause, h]))
  case periodicTimerExpiry => exact congrArg _ (if_neg (by simp [h]))
  case tariffApplyAtSessionEnd =>
    show Host.Outcome.next _ = _
    rw [hevent, ite_self]
  case framingError p received bits => exact hif _ (hevent _)
  case overlongFrame p kind len => exact hif _ (hevent _)
  case crcError p kind body check => exact hif _ (hevent _)
  case unknownKindRequest p kind body =>
    show Host.Outcome.next _ = _
    rw [hevent, ite_self]
  case fetch p body =>
    show Host.Outcome.next _ = _
    rw [hevent, request_low h, ite_self]
  case replyShiftComplete p => exact hif _ (hevent _)
  case heldRecordAppend => exact congrArg _ (hevent _)
  case pendingFinalPlaced => exact congrArg _ (hevent _)
  case snapshotSelection => exact congrArg _ (hevent _)
  case scSampleTaking => exact congrArg _ (htake _ _)
  case pcUpdate => exact congrArg _ (htake _ _)
  case hcSampleTaking => exact congrArg _ (htake _ _)
  case imSampleTaking => exact congrArg _ (htake _ _)
  case eaAllocation => exact congrArg _ (htake _ _)
  case sampleSetDelivery | connectTimerExpiry | settleTimerExpiry | idleTimerExpiry | blankingTimerExpiry |
      cycleCountdownExpiry | chassisSample | phaseTimerExpiry | levelAgeExpiry | limitsValidityExpiry |
      verificationTimerExpiry | pulseHighEnd | pulseLowEnd | compositionComplete | pwmPeriodStart =>
    exact congrArg _ (hend _ _)
  all_goals exact congrArg _ (request_low h _ _ _ _)

/-- The second of day advances with its day (R126). -/
theorem ClockTariff.second_eq (c : ClockTariff) : c.second = { c with
    day := if c.sec = 86399 then (c.day + 1) % 65536 else c.day
    sec := if c.sec = 86399 then 0 else c.sec + 1 } := by
  unfold ClockTariff.second
  split <;> rfl

/-- Settles O2: the queue is none of the blocks a command works on, and with RESET_N low each shape of a command does
nothing. -/
theorem everyCommandAnswersAndResetLowHoldsThePart : Obligations.EveryCommandAnswersAndResetLowHoldsThePart := by
  refine ⟨fun c s => ?_, fun c s h hcold hrise htick => exec_low h hcold hrise htick, fun s h hbase => ?_⟩
  · obtain ⟨t, ht⟩ := exec_total c s
    exact ⟨t, ht, exec_pending ht⟩
  · have hpass : elapse (toNextTick s) s = s.onCt fun c => { c with timebase := c.timebase + toNextTick s } := by
      simp [elapse, h]
    have hsecond : s.ct.timebase + toNextTick s - 1000 = 0 := by
      unfold toNextTick
      omega
    show Host.Outcome.next (tick (elapse (toNextTick s) s)) = _
    rw [hpass]
    simp only [tick, countSecond, State.onCt_resetLow, h, if_true, ClockTariff.second_eq]
    simp only [State.onCt, hsecond, satAdd, max32, h]

/-! ## O3, O57: after a COLD reset -/

theorem desc_reset (i : Nat) : SnapshotEngine.reset.desc i = ⟨false, .session, false, 0, 1, false, false⟩ := by
  simp [SnapshotEngine.desc, SnapshotEngine.reset, Vector.get_eq_getElem]

/-- Settles O3. -/
theorem coldResetGivesTheResetValues : Obligations.ColdResetGivesTheResetValues := by
  intro s
  refine ⟨coldReset s, rfl, rfl, rfl, rfl, rfl, rfl, rfl, rfl, ?_, rfl, rfl, rfl, rfl, rfl, rfl, rfl, rfl, rfl, rfl, rfl, rfl,
    rfl, rfl, rfl, rfl, rfl, ?_, desc_reset, rfl, rfl, rfl, rfl, ?_, rfl⟩
  · intro k
    cases k <;> rfl
  · show ∀ k : Fin 12, SnapshotEngine.reset.vectors.get k = ⟨false, k.val⟩ ∧
      SnapshotEngine.reset.waiting.get k = none ∧ SnapshotEngine.reset.missed.get k = 0
    decide
  · intro p
    cases p <;> rfl

/-- Settles O57. -/
theorem resetMeetsTheInvariants : Obligations.ResetMeetsTheInvariants where
  left := ⟨rfl, Nat.zero_le _, Nat.zero_le _, fun _ => rfl⟩
  right := by
    refine ⟨⟨?_, fun _ => rfl, ?_, fun _ => rfl, fun _ => rfl⟩, ⟨Account.balanced_zero, Account.balanced_zero⟩,
      ItemsOk.defaults rfl, FaultTableOk.coldReset (s := State.reset), RunsOk.monitorKept.coldReset State.reset, SnapshotOk.reset rfl,
      StoreOk.reset rfl⟩
    · intro h
      cases h
    · exact fun _ => ⟨rfl, rfl⟩

/-! ## O4: RESET_N falls -/

theorem losePulses_conserved (a : EnergyAccount) :
    a.losePulses.pulses + a.losePulses.lost = a.pulses + a.lost := by
  simp only [EnergyAccount.losePulses]
  omega

/-- Settles O4. -/
theorem resetFallOpensEveryOutput : Obligations.ResetFallOpensEveryOutput := by
  intro s h
  refine ⟨resetFalls s, rfl, ?_⟩
  have hfall : resetFalls s = { s with
      resetLow := true
      fe := { s.fe with windowMs := 0, insA := false, insB := false, chassisMs := 0, chassisIndex := 0 }
      ea := s.ea.losePulses
      se := { s.se with service := none, justServed := [] }
      ports := s.ports.map PortUnit.newExchange } := if_neg (by simp [h])
  rw [hfall]
  refine ⟨rfl, rfl, rfl, rfl, rfl, rfl, rfl, rfl, rfl, fun _ => rfl, rfl, rfl, losePulses_conserved s.ea, ?_, ?_, rfl, ?_,
    ?_⟩
  · intro hroom
    simp only [EnergyAccount.losePulses, max32]
    omega
  · intro hlost hfull
    simp only [EnergyAccount.losePulses, max32]
    omega
  · intro p
    cases p <;> rfl
  · intro b hb
    cases b <;> first | rfl | simp at hb

/-! ## O10: CHG_EN -/

theorem chgEn_iff (s : State) : chgEn s = true ↔ s.resetLow = false ∧
    (s.sc.state = .preheat ∨ s.sc.state = .charging ∨ s.sc.state = .hold ∨
      (s.sc.state = .closing ∧ s.sc.commandZero = false)) ∧ (s.im.level = .ok ∨ s.im.level = .warning) := by
  have hpermits : s.sc.permits = true ↔ (s.sc.state = .preheat ∨ s.sc.state = .charging ∨ s.sc.state = .hold ∨
      (s.sc.state = .closing ∧ s.sc.commandZero = false)) := by
    cases h : s.sc.state <;> simp [Session.permits, h]
  have hsound : s.im.level.sound = true ↔ (s.im.level = .ok ∨ s.im.level = .warning) := by
    cases s.im.level <;> simp [Level.sound]
  rw [chgEn, Bool.and_eq_true, Bool.and_eq_true, hpermits, hsound, Bool.not_eq_true', and_assoc]

/-- Settles O10: after either reset the level is UNMEASURED. -/
theorem chargePermissionIsGivenExactlyWhen : Obligations.ChargePermissionIsGivenExactlyWhen := by
  refine ⟨chgEn_iff, fun s => ⟨⟨coldReset s, rfl, rfl⟩, fun h => ⟨resetRises s, rfl, ?_⟩⟩⟩
  have hlevel : (resetRises s).im.level = .unmeasured := by
    rw [resetRises_im, if_pos h]
    rfl
  simp [chgEn, hlevel, Level.sound]

end Sys2Proof.Machine

/-! PROOFS. What an operation tells: the notice flags it may write and the snapshot sources it may fire (R166, R183). A flag
other than STREAM, once set, stays set, and a member of the pending set stays in it: a notice or a source an event has told
of stands at the end of the event. -/

namespace Sys2Proof.Machine

set_option Elab.async false

/-! ## Flag sets -/

theorem Notice.bit_eq (n : Notice) : n.bit = BitVec.twoPow 12 n.code := by cases n <;> rfl

theorem Notice.code_inj {n m : Notice} (h : n.code = m.code) : n = m := by
  revert h
  cases n <;> cases m <;> decide

theorem Source.code_inj {a b : Source} (h : a.code = b.code) : a = b := by
  revert h
  cases a <;> cases b <;> decide

theorem Notice.code_lt (n : Notice) : n.code < 12 := by cases n <;> decide

/-- A flag is the bit at its position. -/
theorem flagSet_eq (n : Notice) (f : BitVec 12) : flagSet n f = f.getLsbD n.code := by
  rw [flagSet, n.bit_eq, BitVec.and_twoPow]
  cases h : f.getLsbD n.code with
  | false => rfl
  | true => cases n <;> rfl

theorem Notice.getLsbD_bit (n m : Notice) : m.bit.getLsbD n.code = decide (n = m) := by
  cases n <;> cases m <;> rfl

theorem flagSet_raise (n m : Notice) (f : BitVec 12) : flagSet n (f ||| m.bit) = (flagSet n f || decide (n = m)) := by
  rw [flagSet_eq, flagSet_eq, BitVec.getLsbD_or, Notice.getLsbD_bit]

theorem flagSet_clear (n m : Notice) (f : BitVec 12) : flagSet n (f &&& ~~~ m.bit) = (flagSet n f && !decide (n = m)) := by
  rw [flagSet_eq, flagSet_eq, BitVec.getLsbD_and, BitVec.getLsbD_not, Notice.getLsbD_bit]
  simp [n.code_lt]

/-- Writing one flag of a set: it takes the value, the others stay. -/
theorem flagSet_writeFlag (n m : Notice) (b : Bool) (f : BitVec 12) :
    flagSet n (writeFlag m b f) = if n = m then b else flagSet n f := by
  cases b with
  | true => by_cases h : n = m <;> simp [writeFlag, flagSet_raise, h]
  | false => by_cases h : n = m <;> simp [writeFlag, flagSet_clear, h]

/-! ## What an operation tells -/

/-- What an operation may tell: no flag outside `ns` is written and no source outside `srcs` occurs; flags but STREAM and
members of the pending set stay; the vector table is not written. -/
structure Tells (ns : List Notice) (srcs : List Source) (s t : State) : Prop where
  flags : FlagsBut ns s t
  raised : ∀ p n, n ≠ .stream → flagSet n (s.ports.get p).flags = true → flagSet n (t.ports.get p).flags = true
  vectors : t.se.vectors = s.se.vectors
  still : ∀ src, src ∉ srcs → NotFired src s t
  kept : ∀ src : Source, (s.se.waiting.get src.code).isSome = true → (t.se.waiting.get src.code).isSome = true

theorem FlagsBut.mono {ns ms : List Notice} {s t : State} (h : FlagsBut ns s t)
    (sub : ns.all (fun n => ms.contains n) = true := by rfl) : FlagsBut ms s t := by
  intro p n hn
  refine h p n fun hmem => hn ?_
  simpa using List.all_eq_true.mp sub n hmem

theorem FlagsBut.trans {ns : List Notice} {s t u : State} (h : FlagsBut ns s t) (h' : FlagsBut ns t u) :
    FlagsBut ns s u := fun p n hn => (h' p n hn).trans (h p n hn)

theorem NotFired.trans {src : Source} {s t u : State} (h : NotFired src s t) (h' : NotFired src t u) : NotFired src s u :=
  ⟨h'.1.trans h.1, h'.2.trans h.2⟩

namespace Tells

variable {ns ms : List Notice} {srcs fs : List Source} {s t u : State}

/-- Where neither ports nor snapshot engine change, nothing is told. -/
theorem of_eq (hports : t.ports = s.ports) (hse : t.se = s.se) : Tells ns srcs s t where
  flags p n _ := by rw [hports]
  raised p n _ h := by rwa [hports]
  vectors := by rw [hse]
  still src _ := by rw [NotFired, hse]; exact ⟨rfl, rfl⟩
  kept src h := by rwa [hse]

theorem refl (ns : List Notice) (srcs : List Source) (s : State) : Tells ns srcs s s := of_eq rfl rfl

theorem of_touches {bs : List Block} (h : Touches bs s t) (hports : bs.contains .ports = false := by rfl)
    (hse : bs.contains .se = false := by rfl) : Tells ns srcs s t := of_eq (h.ports_eq hports) (h.se_eq hse)

theorem mono (h : Tells ns srcs s t) (sub : ns.all (fun n => ms.contains n) = true := by rfl)
    (subf : srcs.all (fun x => fs.contains x) = true := by rfl) : Tells ms fs s t where
  flags := h.flags.mono sub
  raised := h.raised
  vectors := h.vectors
  still src hsrc := h.still src fun hmem => hsrc (by simpa using List.all_eq_true.mp subf src hmem)
  kept := h.kept

theorem trans (h : Tells ns srcs s t) (h' : Tells ns srcs t u) : Tells ns srcs s u where
  flags := h.flags.trans h'.flags
  raised p n hn hs := h'.raised p n hn (h.raised p n hn hs)
  vectors := h'.vectors.trans h.vectors
  still src hsrc := (h.still src hsrc).trans (h'.still src hsrc)
  kept src hs := h'.kept src (h.kept src hs)

/-- One more operation that tells no more. -/
theorem step (h : Tells ms fs s t) (h' : Tells ns srcs t u) (sub : ns.all (fun n => ms.contains n) = true := by rfl)
    (subf : srcs.all (fun x => fs.contains x) = true := by rfl) : Tells ms fs s u := h.trans (h'.mono sub subf)

/-- An operation on blocks other than the ports and the snapshot engine, at the end or at the beginning. -/
theorem silent (h : Tells ns srcs s t) {bs : List Block} (h' : Touches bs t u)
    (hports : bs.contains .ports = false := by rfl) (hse : bs.contains .se = false := by rfl) : Tells ns srcs s u :=
  h.trans (of_touches h' hports hse)

theorem ite {c : Prop} [Decidable c] (h : Tells ns srcs s t) (h' : Tells ns srcs s u) :
    Tells ns srcs s (if c then t else u) := by
  split
  · exact h
  · exact h'

/-- A notice raised before still stands. -/
theorem raised_of (h : Tells ns srcs s t) {n : Notice} (hs : Raised n s) (hn : n ≠ .stream := by decide) : Raised n t :=
  fun p => h.raised p n hn (hs p)

/-- A source fired before has still fired. -/
theorem fired_of (h : Tells ns srcs t u) {src : Source} (hs : Fired src s t) : Fired src s u :=
  fun hen => h.kept src (hs hen)

/-- A source that fires after `t` has fired since `s`. -/
theorem fired_since (h : Tells ns srcs s t) {src : Source} (hs : Fired src t u) : Fired src s u := by
  intro hen
  refine hs ?_
  rwa [h.vectors]

end Tells

/-! ## Notices and occurrences -/

section
variable (s : State)

theorem raiseAll_get (n : Notice) (p : Port) : (raiseAll n s).ports.get p = (s.ports.get p).raise n :=
  Ports.get_map _ _ _

theorem flagSet_raiseAll (m n : Notice) (p : Port) :
    flagSet m ((raiseAll n s).ports.get p).flags = (flagSet m (s.ports.get p).flags || decide (m = n)) := by
  rw [raiseAll_get]
  exact flagSet_raise _ _ _

theorem raiseAll_raised (n : Notice) : Raised n (raiseAll n s) := by
  intro p
  rw [flagSet_raiseAll]
  simp

theorem raiseAll_tells (n : Notice) : Tells [n] [] s (raiseAll n s) where
  flags p m hm := by
    have hne : m ≠ n := by simpa using hm
    rw [flagSet_raiseAll]
    simp [hne]
  raised p m _ h := by
    rw [flagSet_raiseAll, h]
    rfl
  vectors := rfl
  still _ _ := ⟨rfl, rfl⟩
  kept _ h := h

theorem stamped_se : (stamped s).se = s.se := (stamped_touches s).se_eq
theorem stamped_ports : (stamped s).ports = s.ports := (stamped_touches s).ports_eq

/-- An occurrence of a source that is disabled (R166). -/
theorem occurFrom_disabled {port : Option Port} {src : Source} (h : occurOutcome src s = .disabled) :
    occurFrom port src s = s := by rw [occurFrom, h]

/-- An occurrence of an enabled source that is not pending joins the pending set (R166). -/
theorem occurFrom_pended {port : Option Port} {src : Source} (h : occurOutcome src s = .pended) :
    occurFrom port src s = (stamped s).onSe fun e =>
      { e with waiting := vput e.waiting src.code (some ⟨stamp s.se.uptime s, port⟩) } := by rw [occurFrom, h]

/-- An occurrence of an enabled source that is pending is missed (R166). -/
theorem occurFrom_missed {port : Option Port} {src : Source} (h : occurOutcome src s = .missed) :
    occurFrom port src s = raiseAll .capture (s.onSe fun e =>
      { e with missed := vput e.missed src.code (satAdd 255 (e.missed.get src.code) 1) }) := by rw [occurFrom, h]

theorem occurOutcome_eq_disabled {src : Source} : occurOutcome src s = .disabled ↔
    (s.se.vectors.get src.code).enabled = false := by
  unfold occurOutcome
  split
  · next h => split <;> simp [h]
  · next h => simpa using h

theorem occurOutcome_eq_pended {src : Source} : occurOutcome src s = .pended ↔
    (s.se.vectors.get src.code).enabled = true ∧ s.se.waiting.get src.code = none := by
  unfold occurOutcome
  split
  · next h => split <;> simp_all
  · next h => simp [h]

theorem occurOutcome_eq_missed {src : Source} : occurOutcome src s = .missed ↔
    (s.se.vectors.get src.code).enabled = true ∧ (s.se.waiting.get src.code).isSome = true := by
  unfold occurOutcome
  split
  · next h => split <;> simp_all
  · next h => simp [h]

theorem occurFrom_tells (port : Option Port) (src : Source) : Tells [.capture] [src] s (occurFrom port src s) := by
  cases h : occurOutcome src s with
  | disabled =>
    rw [occurFrom_disabled s h]
    exact .refl _ _ s
  | pended =>
    rw [occurFrom_pended s h]
    have hstamped : Tells [.capture] [src] s (stamped s) := .of_touches (stamped_touches s)
    refine hstamped.trans ⟨fun _ _ _ => rfl, fun _ _ _ h => h, rfl, fun x hx => ⟨?_, rfl⟩, fun x hx => ?_⟩
    · have hne : x.code ≠ src.code := fun heq => hx (by simp [Source.code_inj heq])
      exact vput_get_other _ _ _ _ hne
    · show Option.isSome ((vput (stamped s).se.waiting src.code _).get x.code) = true
      rw [vput_get]
      split
      · rfl
      · exact hx
  | missed =>
    rw [occurFrom_missed s h]
    have hcount : Tells [.capture] [src] s (s.onSe fun e =>
        { e with missed := vput e.missed src.code (satAdd 255 (e.missed.get src.code) 1) }) := by
      refine ⟨fun _ _ _ => rfl, fun _ _ _ h => h, rfl, fun x hx => ⟨rfl, ?_⟩, fun x hx => hx⟩
      have hne : x.code ≠ src.code := fun heq => hx (by simp [Source.code_inj heq])
      exact vput_get_other _ _ _ _ hne
    exact hcount.step (raiseAll_tells _ _)

theorem occurFrom_fired (port : Option Port) (src : Source) : Fired src s (occurFrom port src s) := by
  intro hen
  cases h : occurOutcome src s with
  | disabled => simp [(occurOutcome_eq_disabled s).mp h] at hen
  | pended =>
    rw [occurFrom_pended s h]
    show Option.isSome ((vput (stamped s).se.waiting src.code _).get src.code) = true
    rw [vput_get_self]
    rfl
  | missed =>
    rw [occurFrom_missed s h]
    exact ((occurOutcome_eq_missed s).mp h).2

theorem occur_tells (src : Source) : Tells [.capture] [src] s (occur src s) := occurFrom_tells s _ _

theorem occur_fired (src : Source) : Fired src s (occur src s) := occurFrom_fired s _ _

/-! ## Streams -/

theorem refreshStream_flags (p : Port) :
    ((refreshStream s).ports.get p).flags = writeFlag .stream (streamCondition p s) (s.ports.get p).flags := by
  cases p <;> rfl

theorem refreshStream_tells : Tells [.stream] [] s (refreshStream s) where
  flags p n hn := by
    have hne : n ≠ .stream := by simpa using hn
    rw [refreshStream_flags, flagSet_writeFlag, if_neg hne]
  raised p n hn h := by rwa [refreshStream_flags, flagSet_writeFlag, if_neg hn]
  vectors := rfl
  still _ _ := ⟨rfl, rfl⟩
  kept _ h := h

/-- STREAM stands at its condition after it has been refreshed (R161). -/
theorem refreshStream_flag (p : Port) :
    flagSet .stream ((refreshStream s).ports.get p).flags = streamCondition p (refreshStream s) := by
  rw [refreshStream_flags, flagSet_writeFlag, if_pos rfl]
  rfl

theorem dropRecord_tells (st : Stream) : Tells [] [] s (dropRecord st s) := .of_eq rfl rfl

theorem appendRecord_tells (st : Stream) (x : Record) (j : Join) : Tells [.stream] [] s (appendRecord st x j s) :=
  (Tells.of_eq rfl rfl : Tells [.stream] [] s (s.onRs _)).step (refreshStream_tells _)

theorem takeOldest_tells (st : Stream) (j : Join) (n : Nat) : Tells [.stream] [] s (takeOldest st j n s) :=
  (Tells.of_eq rfl rfl : Tells [.stream] [] s (s.onRs _)).step (refreshStream_tells _)

theorem offerFull_tells (st : Stream) (x : Record) (j : Join) : Tells [] [] s (offerFull st x j s) := by
  cases st <;> exact .of_eq rfl rfl

theorem offerUnjoined_tells (st : Stream) : Tells [] [] s (offerUnjoined st s) := by
  cases st <;> exact .of_eq rfl rfl

theorem offer_tells (st : Stream) (x : Record) : Tells [.stream] [] s (offer st x s) := by
  unfold offer
  split
  · exact (offerUnjoined_tells s st).mono
  · exact .ite (appendRecord_tells s st x _) (offerFull_tells s st x _).mono

end

end Sys2Proof.Machine

/-! PROOFS. What the operations of the session controller, of billing and of the heater tell, and a change of the session
state as one event (R15, R43, R45, R76, R129, R130, R166, R183). -/

namespace Sys2Proof.Machine

set_option Elab.async false

/-! ## The heater and the tariffs -/

section
variable (s : State)

theorem heaterEvent_tells : Tells [.heater, .capture] [.heaterEvent] s (heaterEvent s) :=
  (raiseAll_tells s _).mono.step (occur_tells _ _)

theorem heaterEvent_raised : Raised .heater (heaterEvent s) := (occur_tells _ _).raised_of (raiseAll_raised s _)

theorem heaterEvent_fired : Fired .heaterEvent s (heaterEvent s) :=
  (raiseAll_tells s _).fired_since (occur_fired _ _)

theorem applyStaged_of_none {k : Payer} (h : (s.ct.kind k).staged = none) : applyStaged k s = s := by
  simp [applyStaged, h]

theorem applyStaged_of_some {k : Payer} {tab : List Period} (h : (s.ct.kind k).staged = some tab) :
    applyStaged k s = occur .tariffApplied (raiseAll .tariff (s.onCt fun c =>
      c.putKind k ⟨some tab, none, ((c.kind k).generation + 1) % 65536⟩)) := by
  simp [applyStaged, h]

theorem applyStaged_ct {k : Payer} {tab : List Period} (h : (s.ct.kind k).staged = some tab) :
    (applyStaged k s).ct = s.ct.putKind k ⟨some tab, none, ((s.ct.kind k).generation + 1) % 65536⟩ := by
  rw [applyStaged_of_some s h, (occur_touches _ _).ct_eq, (raiseAll_touches _ _).ct_eq]
  rfl

theorem applyStaged_tells (k : Payer) : Tells [.tariff, .capture] [.tariffApplied] s (applyStaged k s) := by
  cases h : (s.ct.kind k).staged with
  | none =>
    rw [applyStaged_of_none s h]
    exact .refl _ _ s
  | some tab =>
    rw [applyStaged_of_some s h]
    exact ((Tells.of_touches (onCt_touches s _)).step (raiseAll_tells _ _)).step (occur_tells _ _)

theorem applyStaged_raised {k : Payer} {tab : List Period} (h : (s.ct.kind k).staged = some tab) :
    Raised .tariff (applyStaged k s) := by
  rw [applyStaged_of_some s h]
  exact (occur_tells _ _).raised_of (raiseAll_raised _ _)

theorem applyStaged_fired {k : Payer} {tab : List Period} (h : (s.ct.kind k).staged = some tab) :
    Fired .tariffApplied s (applyStaged k s) := by
  rw [applyStaged_of_some s h]
  exact ((Tells.of_touches (ns := [.tariff]) (srcs := []) (onCt_touches s _)).step
    (raiseAll_tells _ _)).fired_since (occur_fired _ _)

end

theorem ClockTariff.kind_putKind_self (c : ClockTariff) (k : Payer) (x : TariffKind) : (c.putKind k x).kind k = x := by
  cases k <;> rfl

theorem ClockTariff.kind_putKind_other (c : ClockTariff) {k k' : Payer} (x : TariffKind) (h : k' ≠ k) :
    (c.putKind k x).kind k' = c.kind k' := by
  cases k <;> cases k' <;> first | rfl | exact absurd rfl h

/-! ## A change of state -/

/-- The allowance reads the session controller, the derate figures and the items. -/
theorem allowanceOf_congr {s t : State} (v : Nat) (hsc : t.sc = s.sc) (hderate : t.pc.derate = s.pc.derate)
    (hexh : t.pc.exhausted = s.pc.exhausted) (hcfg : t.cfg = s.cfg) : allowanceOf v t = allowanceOf v s := by
  have hstation : lStationOf t = lStationOf s := lStationOf_congr (by rw [hsc]) hcfg
  have hobc : lObcOf t = lObcOf s := lObcOf_congr hderate hexh hcfg
  simp only [allowanceOf, bReqOf, pHeatBatt, hsc, hstation, hobc]

theorem latestVBus_congr {s t : State} (h : t.fe = s.fe) : latestVBus t = latestVBus s := by
  simp only [latestVBus, h]

section
variable (x : SessionState) (s : State)

theorem setState_same {x : SessionState} {s : State} (h : s.sc.state = x) : setState x s = s := if_pos h

/-- A change of state: the state and its notices, the command and the allowance, and the staged table where the open states
are left. -/
theorem setState_of_ne {x : SessionState} {s : State} (h : s.sc.state ≠ x) :
    setState x s =
      if s.sc.state.isOpen && !x.isOpen then applyStaged s.sc.record.payer (stateChangeCommand (moved x s))
      else stateChangeCommand (moved x s) := by
  have hsc : (stateChangeCommand (moved x s)).sc = { s.sc with state := x } := by
    rw [(stateChangeCommand_touches _).sc_eq, moved_sc]
  have hpayer : payerNow (stateChangeCommand (moved x s)) = s.sc.record.payer := by rw [payerNow, hsc]
  rw [← hpayer]
  exact if_neg h

/-- Where the open states are not left, no table is applied. -/
theorem setState_within {x : SessionState} {s : State} (h : s.sc.state ≠ x)
    (hopen : s.sc.state.isOpen = false ∨ x.isOpen = true) : setState x s = stateChangeCommand (moved x s) := by
  rw [setState_of_ne h, if_neg]
  rcases hopen with h | h <;> simp [h]

theorem moved_tells : Tells [.session, .capture] [.stateChanged] s (moved x s) :=
  ((Tells.of_touches (onSc_touches s _)).step (raiseAll_tells _ _)).step (occur_tells _ _)

theorem moved_raised : Raised .session (moved x s) := (occur_tells _ _).raised_of (raiseAll_raised _ _)

theorem moved_fired : Fired .stateChanged s (moved x s) :=
  ((Tells.of_touches (ns := [.session]) (srcs := []) (onSc_touches s _)).step (raiseAll_tells _ _)).fired_since
    (occur_fired _ _)

theorem stateChangeCommand_tells : Tells [] [] s (stateChangeCommand s) := .of_touches (stateChangeCommand_touches s)

/-- What a change of state tells before a staged table is applied. -/
theorem changed_tells : Tells [.session, .capture] [.stateChanged] s (stateChangeCommand (moved x s)) :=
  (moved_tells x s).silent (stateChangeCommand_touches _)

theorem setState_tells : Tells [.session, .tariff, .capture] [.stateChanged, .tariffApplied] s (setState x s) := by
  by_cases h : s.sc.state = x
  · rw [setState_same h]
    exact .refl _ _ s
  · rw [setState_of_ne h]
    exact .ite ((changed_tells x s).mono.step (applyStaged_tells _ _)) (changed_tells x s).mono

/-- A move that does not leave the open states tells of the state alone. -/
theorem setState_tells_within {x : SessionState} {s : State} (hopen : s.sc.state.isOpen = false ∨ x.isOpen = true) :
    Tells [.session, .capture] [.stateChanged] s (setState x s) := by
  by_cases h : s.sc.state = x
  · rw [setState_same h]
    exact .refl _ _ s
  · rw [setState_within h hopen]
    exact changed_tells x s

variable {x s}

theorem setState_raised (h : s.sc.state ≠ x) : Raised .session (setState x s) := by
  have hraised : Raised .session (stateChangeCommand (moved x s)) :=
    (stateChangeCommand_tells _).raised_of (moved_raised x s)
  rw [setState_of_ne h]
  split
  · exact (applyStaged_tells _ _).raised_of hraised
  · exact hraised

theorem setState_fired (h : s.sc.state ≠ x) : Fired .stateChanged s (setState x s) := by
  have hfired : Fired .stateChanged s (stateChangeCommand (moved x s)) :=
    (stateChangeCommand_tells _).fired_of (moved_fired x s)
  rw [setState_of_ne h]
  split
  · exact (applyStaged_tells _ _).fired_of hfired
  · exact hfired

theorem setState_cfg : (setState x s).cfg = s.cfg := (setState_touches x s).cfg_eq

theorem stateChangeCommand_aH (u : State) : (stateChangeCommand u).pc.aH = allowanceOf (latestVBus u) u := by
  unfold stateChangeCommand recomputeNow
  split
  · rw [recompute_pc]
  · rw [recompute_pc]
    exact allowanceOf_congr _ rfl rfl rfl rfl

theorem stateChangeCommand_heater (u : State) : (stateChangeCommand u).hc =
    if allowanceOf (latestVBus u) u = u.pc.aH then u.hc else u.hc.fit (allowanceOf (latestVBus u) u) := by
  have hset : allowanceOf (latestVBus u) (setCommand 0 u) = allowanceOf (latestVBus u) u :=
    allowanceOf_congr _ rfl rfl rfl rfl
  have hv : latestVBus (setCommand 0 u) = latestVBus u := rfl
  unfold stateChangeCommand recomputeNow recompute
  dsimp only
  split
  · split <;> rfl
  · rw [hv, hset]
    split <;> split
    · rfl
    · next h h' => exact absurd h h'
    · next h h' => exact absurd h' h
    · rfl

theorem setState_aH (h : s.sc.state ≠ x) : (setState x s).pc.aH = allowanceOf (latestVBus s) (setState x s) := by
  have hafter : (setState x s).pc.aH = allowanceOf (latestVBus s) (moved x s) := by
    rcases setState_cases x s with ⟨-, h'⟩ | ⟨-, h'⟩
    · exact absurd h' h
    · rw [h'.pc_eq, stateChangeCommand_aH, latestVBus_congr ((moved_touches x s).fe_eq)]
  rw [hafter]
  refine (allowanceOf_congr _ ?_ ?_ ?_ ?_).symm
  · rw [setState_sc, moved_sc]
  · rw [setState_derate, (moved_touches x s).pc_eq]
  · rw [setState_exhausted, (moved_touches x s).pc_eq]
  · rw [setState_cfg, (moved_touches x s).cfg_eq]

theorem setState_heater (h : s.sc.state ≠ x) : (setState x s).hc =
    if (setState x s).pc.aH = s.pc.aH then s.hc else s.hc.fit (setState x s).pc.aH := by
  rcases setState_cases x s with ⟨-, h'⟩ | ⟨-, h'⟩
  · exact absurd h' h
  · rw [h'.hc_eq, h'.pc_eq, stateChangeCommand_aH, stateChangeCommand_heater, (moved_touches x s).hc_eq,
      (moved_touches x s).pc_eq]

theorem setState_ct_within (hopen : s.sc.state.isOpen = false ∨ x.isOpen = true) : (setState x s).ct = s.ct := by
  by_cases h : s.sc.state = x
  · rw [setState_same h]
  · rw [setState_within h hopen, (stateChangeCommand_touches _).ct_eq, (moved_touches x s).ct_eq]

/-- A change of state reaches the tariff tables only where the open states are left. -/
theorem setState_ct (h : s.sc.state ≠ x) : (setState x s).ct =
    if s.sc.state.isOpen && !x.isOpen then
      match (s.ct.kind s.sc.record.payer).staged with
      | none => s.ct
      | some tab => s.ct.putKind s.sc.record.payer
          ⟨some tab, none, ((s.ct.kind s.sc.record.payer).generation + 1) % 65536⟩
    else s.ct := by
  have hct : (stateChangeCommand (moved x s)).ct = s.ct := by
    rw [(stateChangeCommand_touches _).ct_eq, (moved_touches x s).ct_eq]
  rw [setState_of_ne h]
  split
  · split
    · next hnone => rw [applyStaged_of_none _ (by rw [hct, hnone]), hct]
    · next tab htab => rw [applyStaged_ct _ (by rw [hct, htab]), hct]
  · exact hct

end

theorem keepsCommand_state (c : Session) (x : SessionState) :
    keepsCommand { c with state := x } = true ↔
      (x = .preheat ∨ x = .charging ∨ (x = .closing ∧ c.record.closeReason ≠ .unplugged)) := by
  cases x <;> simp [keepsCommand]

/-- Settles O9. -/
theorem sessionStateChangeIsOneEvent : Obligations.SessionStateChangeIsOneEvent := by
  intro x s
  refine ⟨fun h => setState_same h, fun h => ⟨setState_sc x s, setState_raised h, setState_fired h, ?_, setState_aH h,
    setState_heater h, ?_, ?_, (setState_tells x s).flags, setState_touches x s⟩⟩
  · rw [setState_pCmd, if_neg h]
    simp only [keepsCommand_state]
  · intro hstays
    rw [setState_ct h]
    split
    · next hleaves =>
      obtain ⟨hopen, hclosed⟩ : s.sc.state.isOpen = true ∧ x.isOpen = false := by simpa using hleaves
      rcases hstays with h' | h' | h'
      · simp [h'] at hopen
      · simp [h'] at hclosed
      · rw [h']
    · rfl
  · intro tab hopen hclosed htab
    have hleaves : (s.sc.state.isOpen && !x.isOpen) = true := by simp [hopen, hclosed]
    have hct : (stateChangeCommand (moved x s)).ct = s.ct := by
      rw [(stateChangeCommand_touches _).ct_eq, (moved_touches x s).ct_eq]
    have hstaged : ((stateChangeCommand (moved x s)).ct.kind s.sc.record.payer).staged = some tab := by rw [hct, htab]
    refine ⟨?_, ?_, ?_⟩
    · rw [setState_ct h, if_pos hleaves, htab]
    · rw [setState_of_ne h, if_pos hleaves]
      exact applyStaged_raised _ hstaged
    · rw [setState_of_ne h, if_pos hleaves]
      exact (changed_tells x s).fired_since (applyStaged_fired _ hstaged)

end Sys2Proof.Machine

/-! PROOFS. The sample set as delivered and as taken: rounding, clamping, the four temperature channels, and that each
consumer takes a set once (R1 to R9). -/

namespace Sys2Proof.Machine

set_option Elab.async false

/-! ## Rounding and clamping (R3, R4) -/

/-- The nearest multiple of `d` to `n`, the upper one at a tie. -/
theorem half_up_bounds (n : Nat) {d : Nat} (hd : 0 < d) :
    2 * ((2 * n + d) / (2 * d) * d) ≤ 2 * n + d ∧ 2 * n + d < 2 * ((2 * n + d) / (2 * d) * d) + 2 * d := by
  have hdiv := Nat.div_add_mod (2 * n + d) (2 * d)
  have hmod := Nat.mod_lt (2 * n + d) (show 0 < 2 * d by omega)
  have hmul : 2 * d * ((2 * n + d) / (2 * d)) = 2 * ((2 * n + d) / (2 * d) * d) := by ring
  omega

/-- Rounding is to the nearest unit, halves away from zero (R3). -/
theorem roundMean_nearest (m : Mean) (hd : 0 < m.den) :
    2 * (m.num - roundMean m * m.den).natAbs ≤ m.den ∧
      (2 * (m.num - roundMean m * m.den).natAbs = m.den → m.num.natAbs ≤ (roundMean m * m.den).natAbs) := by
  obtain ⟨hlow, hhigh⟩ := half_up_bounds m.num.natAbs hd
  have hcast : ((((2 * m.num.natAbs + m.den) / (2 * m.den) : Nat) : Int)) * m.den =
      (((2 * m.num.natAbs + m.den) / (2 * m.den) * m.den : Nat) : Int) := by push_cast; rfl
  unfold roundMean
  split
  · rw [Int.neg_mul, hcast]
    omega
  · rw [hcast]
    omega

theorem outside_iff (lo hi : Int) (m : Mean) : outside lo hi m = true ↔ roundMean m < lo ∨ hi < roundMean m := by
  simp [outside]

theorem clampInt_nonneg {hi x : Int} (h : 0 ≤ hi) : 0 ≤ clampInt 0 hi x := by
  unfold clampInt
  split
  · exact le_rfl
  · split <;> omega

/-! ## Temperature channels (R5, R6) -/

theorem converted (m : Option Mean) (h : HoldChannel) : Converted m h (deliverTemp m h) (h.convert m) where
  valid := by
    rintro x rfl
    refine ⟨rfl, ?_, rfl⟩
    show (if outside (-500) 1500 x = true then TempMark.saturated else .unmarked) = _
    rw [if_congr (outside_iff _ _ _) rfl rfl]
    split <;> split <;> first | rfl | omega
  counts := by
    rintro rfl
    rfl
  held := by
    rintro v rfl hv hc
    exact ⟨by rw [deliverTemp_none_of_last_some hv, if_pos hc], by rw [HoldChannel.convert_none_last, if_pos hc, hv]⟩
  missing := by
    rintro rfl (hv | hc)
    · exact ⟨deliverTemp_none_of_last_none hv, by rw [HoldChannel.convert_none_last, hv, ite_self]⟩
    · refine ⟨?_, by rw [HoldChannel.convert_none_last, if_neg (by omega)]⟩
      cases hv : h.last with
      | none => exact deliverTemp_none_of_last_none hv
      | some v => rw [deliverTemp_none_of_last_some hv, if_neg (by omega)]

theorem HoldChannel.expires_iff (m : Option Mean) (h : HoldChannel) :
    h.expires m = true ↔ m = none ∧ h.counter = 10 := by simp [HoldChannel.expires]

/-! ## The delivery (R1, R9) -/

theorem windowEnd_high {s : State} (hs : s.resetLow = false) (w : Window) :
    windowEnd w s = (elapse (100 - s.fe.windowMs) s).onFe (FrontEnd.deliver w) := by
  rw [windowEnd, atEnd_high hs]
  exact takeReports_of_drive_eq rfl rfl

/-- Settles O6. -/
theorem sampleSetIsDeliveredWhole : Obligations.SampleSetIsDeliveredWhole := by
  refine ⟨roundMean_nearest, fun w s hs hwin => ?_, fun w s => ?_⟩
  · refine ⟨windowEnd w s, sampleOf w (s.fe.elapse (100 - s.fe.windowMs)), rfl, ?_⟩
    have hv : 0 ≤ channel 0 6500 w.vBus := clampInt_nonneg (by norm_num)
    have hh : 0 ≤ channel 0 5000 w.iHeat := clampInt_nonneg (by norm_num)
    have hms : s.fe.windowMs + (100 - s.fe.windowMs) - 100 = 0 := by omega
    rw [windowEnd_fe hs]
    refine ⟨rfl, rfl, rfl, rfl, rfl, outside_iff _ _ _, Int.toNat_of_nonneg hv, outside_iff _ _ _, rfl, outside_iff _ _ _,
      Int.toNat_of_nonneg hh, outside_iff _ _ _, rfl, converted _ _, converted _ _, converted _ _, converted _ _, hms, rfl,
      rfl, rfl, rfl, rfl, rfl, rfl, rfl, ?_⟩
    rw [windowEnd_high hs]
    exact onFe_touches _ _
  · show Host.Outcome.next (if holdExpires w s.fe = true then windowEnd w s else s) = _
    have hexp : holdExpires w s.fe = true ↔ (w.tPack = none ∧ s.fe.tPack.counter = 10) ∨
        (w.tEl1 = none ∧ s.fe.tEl1.counter = 10) ∨ (w.tEl2 = none ∧ s.fe.tEl2.counter = 10) ∨
        (w.tObc = none ∧ s.fe.tObc.counter = 10) := by
      simp [holdExpires, HoldChannel.expires_iff, or_assoc]
    rw [if_congr hexp rfl rfl]
    split <;> rfl

/-! ## The takings (R9) -/

/-- What a taking leaves of the set: it is the same set, and of the consumers the `k`-th has nothing to take. -/
def TakenOnce (k : Nat) (s t : State) : Prop :=
  (t.fe.latest = s.fe.latest ∧ t.fe.nextSeq = s.fe.nextSeq ∧ t.fe.windowMs = s.fe.windowMs ∧ t.fe.tPack = s.fe.tPack ∧
    t.fe.tEl1 = s.fe.tEl1 ∧ t.fe.tEl2 = s.fe.tEl2 ∧ t.fe.tObc = s.fe.tObc) ∧
  [t.fe.dueSc, t.fe.duePc, t.fe.dueHc, t.fe.dueIm, t.fe.dueEa] =
    [s.fe.dueSc, s.fe.duePc, s.fe.dueHc, s.fe.dueIm, s.fe.dueEa].set k false

/-- All but the switches and their sampler: what the background keeps of the front end. -/
theorem TakenOnce.within {k : Nat} {s t u : State} {qs : List Block} (h : TakenOnce k s t) (w : Within qs t u)
    (hq : qs.contains .fe = false := by rfl) : TakenOnce k s u := by
  have hfe : { u.fe with insA := false, insB := false, chassisMs := 0, chassisIndex := 0 } =
      { t.fe with insA := false, insB := false, chassisMs := 0, chassisIndex := 0 } :=
    Touches.fe_eq (s := background t) (t := background u) w hq
  obtain ⟨⟨hl, hn, hw, h1, h2, h3, h4⟩, hdue⟩ := h
  refine ⟨⟨?_, ?_, ?_, ?_, ?_, ?_, ?_⟩, ?_⟩
  · exact (congrArg FrontEnd.latest hfe).trans hl
  · exact (congrArg FrontEnd.nextSeq hfe).trans hn
  · exact (congrArg FrontEnd.windowMs hfe).trans hw
  · exact (congrArg FrontEnd.tPack hfe).trans h1
  · exact (congrArg FrontEnd.tEl1 hfe).trans h2
  · exact (congrArg FrontEnd.tEl2 hfe).trans h3
  · exact (congrArg FrontEnd.tObc hfe).trans h4
  · exact (congrArg (fun f : FrontEnd => [f.dueSc, f.duePc, f.dueHc, f.dueIm, f.dueEa]) hfe).trans hdue

/-- A taking takes the set off its consumer alone, whatever the consumer then does beyond the front end. -/
theorem takenOnce_taking {k : Nat} {due : Bool} {took : FrontEnd → FrontEnd} {work : SampleSet → State → State}
    {s : State} (hs : s.resetLow = false) (hset : s.fe.latest.isSome = true)
    (htook : ∀ u : State, TakenOnce k u (u.onFe took)) (hdone : due = false → TakenOnce k s s)
    (hwork : ∀ x u, ∃ qs : List Block, qs.contains .fe = false ∧ Within qs u (work x u)) :
    TakenOnce k s (taking due (fun x u => work x (u.onFe took)) s) := by
  obtain ⟨x, hx⟩ := Option.isSome_iff_exists.mp hset
  cases due with
  | false => exact (taking_not_due _ (.inr rfl)).symm ▸ hdone rfl
  | true =>
    rw [taking_due hs hx]
    obtain ⟨qs, hq, hw⟩ := hwork x (s.onFe took)
    exact ((htook s).within hw hq).within ((takeReports_quiet _ _).within [])

/-- Settles O8. -/
theorem eachConsumerTakesASetAtMostOnce : Obligations.EachConsumerTakesASetAtMostOnce := by
  refine ⟨fun s => ⟨fun h => ?_, fun h => ?_, fun h => ?_, fun h => ?_, fun h => ?_⟩, fun s hs hset => ?_⟩
  · exact congrArg Host.Outcome.next (taking_not_due _ h)
  · exact congrArg Host.Outcome.next (taking_not_due _ h)
  · exact congrArg Host.Outcome.next (taking_not_due _ h)
  · exact congrArg Host.Outcome.next (taking_not_due _ h)
  · exact congrArg Host.Outcome.next (taking_not_due _ h)
  · refine ⟨?_, ?_, ?_, ?_, ?_⟩ <;> rintro t ⟨⟩
    · exact takenOnce_taking (k := 0) hs hset (fun u => ⟨⟨rfl, rfl, rfl, rfl, rfl, rfl, rfl⟩, rfl⟩)
        (fun h => ⟨⟨rfl, rfl, rfl, rfl, rfl, rfl, rfl⟩, by rw [h]; rfl⟩)
        fun x u => ⟨[.sc], rfl, (scTake_reaches x u).within⟩
    · exact takenOnce_taking (k := 1) hs hset (fun u => ⟨⟨rfl, rfl, rfl, rfl, rfl, rfl, rfl⟩, rfl⟩)
        (fun h => ⟨⟨rfl, rfl, rfl, rfl, rfl, rfl, rfl⟩, by rw [h]; rfl⟩)
        fun x u => ⟨[.pc], rfl, (pcTake_reaches x u).within⟩
    · exact takenOnce_taking (k := 2) hs hset (fun u => ⟨⟨rfl, rfl, rfl, rfl, rfl, rfl, rfl⟩, rfl⟩)
        (fun h => ⟨⟨rfl, rfl, rfl, rfl, rfl, rfl, rfl⟩, by rw [h]; rfl⟩)
        fun x u => ⟨[.hc], rfl, (hcTake_reaches x u).within⟩
    · exact takenOnce_taking (k := 3) hs hset (fun u => ⟨⟨rfl, rfl, rfl, rfl, rfl, rfl, rfl⟩, rfl⟩)
        (fun h => ⟨⟨rfl, rfl, rfl, rfl, rfl, rfl, rfl⟩, by rw [h]; rfl⟩)
        fun x u => ⟨[.im], rfl, (imTake_reaches x u).within⟩
    · exact takenOnce_taking (k := 4) hs hset (fun u => ⟨⟨rfl, rfl, rfl, rfl, rfl, rfl, rfl⟩, rfl⟩)
        (fun h => ⟨⟨rfl, rfl, rfl, rfl, rfl, rfl, rfl⟩, by rw [h]; rfl⟩)
        fun x u => ⟨[.ea, .ct], rfl, (eaTake_reaches x u).within⟩

end Sys2Proof.Machine

/-! PROOFS. The allocation of a set to the accounts, and the pulse path (R42, R108 to R117, R120 to R122). -/

namespace Sys2Proof.Machine

set_option Elab.async false

/-! ## Accrual (R110, R113) -/

/-- An account after a set: the grid fields as one group, Hb on its own, each frozen or taking its share. -/
theorem Account.accrue_eq (top : Nat) (x : Shares) (a : Account) :
    a.accrue top x =
      let grid := a.gridFrozen || a.g.overflows top x.g
      let pack := a.hbFrozen || a.hb.overflows top x.hb
      { g := if grid then a.g else a.g.add x.g
        bg := if grid then a.bg else a.bg.add x.bg
        hg := if grid then a.hg else a.hg.add x.hg
        lg := if grid then a.lg else a.lg.add x.lg
        hb := if pack then a.hb else a.hb.add x.hb
        gridFrozen := grid
        hbFrozen := pack } := by
  have hgrid : (a.accrueGrid top x).hbFrozen = a.hbFrozen ∧ (a.accrueGrid top x).hb = a.hb := by
    unfold accrueGrid
    split <;> exact ⟨rfl, rfl⟩
  unfold accrue accrueHb
  rw [hgrid.1, hgrid.2]
  unfold accrueGrid
  cases hg : a.gridFrozen || a.g.overflows top x.g <;> cases hb : a.hbFrozen || a.hb.overflows top x.hb <;>
    simp_all

theorem EnergyAccount.accrue_session {a : EnergyAccount} (x : Shares) (h : a.accruing = true) :
    a.accrue x = { a with lifetime := a.lifetime.accrue max40 x, session := a.session.accrue max32 x } := by
  simp [accrue, h]

theorem EnergyAccount.accrue_unassigned {a : EnergyAccount} (x : Shares) (h : a.accruing = false) :
    a.accrue x = { a with
      lifetime := a.lifetime.accrue max40 x
      unassigned := if a.unassignedFrozen || a.unassigned.overflows max32 x.g then a.unassigned else a.unassigned.add x.g
      unassignedFrozen := a.unassignedFrozen || a.unassigned.overflows max32 x.g } := by
  cases hf : a.unassignedFrozen || a.unassigned.overflows max32 x.g <;> simp_all [accrue, accrueUnassigned]

/-! ## The pulse path (R120 to R122) -/

/-- Two accounts that differ in the pulse path alone: accumulator, counts and output. -/
def EnergyAccount.Pulsed (a b : EnergyAccount) : Prop :=
  b = { a with acc := b.acc, pulses := b.pulses, lost := b.lost, pulse := b.pulse, pulseMs := b.pulseMs }

theorem EnergyAccount.Pulsed.trans {a b c : EnergyAccount} (h : a.Pulsed b) (h' : b.Pulsed c) : a.Pulsed c := by
  unfold Pulsed at *
  rw [h', h]

theorem EnergyAccount.takePulse_pulsed (a : EnergyAccount) : a.Pulsed a.takePulse := by
  unfold takePulse
  split <;> rfl

theorem EnergyAccount.turnOut_pulsed (unit : Nat) (a : EnergyAccount) : a.Pulsed (a.turnOut unit) := rfl

theorem EnergyAccount.feedPulses_zero (g : Nat) (a : EnergyAccount) : a.feedPulses 0 g = a := by
  simp only [feedPulses, if_true]

/-- A set of G reaches the pulse path alone. -/
theorem EnergyAccount.feedPulses_pulsed (q g : Nat) (a : EnergyAccount) : a.Pulsed (a.feedPulses q g) := by
  by_cases hq : q = 0
  · rw [hq, feedPulses_zero]
    rfl
  · rw [feedPulses_of_pos hq]
    have hfirst := turnOut_pulsed (q * eighthUnit) a
    have hadd (b : EnergyAccount) : b.Pulsed { b with acc := b.acc + g } := rfl
    split
    · exact hfirst.trans (takePulse_pulsed _)
    · exact ((hfirst.trans (hadd _)).trans (turnOut_pulsed _ _)).trans (takePulse_pulsed _)

/-! ## The taking of a set -/

theorem exec_eaAllocation {s : State} {x : SampleSet} (hs : s.resetLow = false) (hx : s.fe.latest = some x)
    (hdue : s.fe.dueEa = true) : exec .eaAllocation s = .next (eaTake x (s.onFe FrontEnd.eaTook)) := by
  show Host.Outcome.next (taking s.fe.dueEa (fun x u => eaTake x (u.onFe FrontEnd.eaTook)) s) = _
  rw [hdue, taking_due hs hx]
  exact congrArg Host.Outcome.next (takeReports_of_drive_eq rfl rfl)

theorem eaTake_ea (x : SampleSet) (s : State) :
    (eaTake x s).ea = (s.ea.accrue (sharesOf x)).feedPulses (pulseQuantum s.cfg) (sharesOf x).g := rfl

theorem eaTake_ct (x : SampleSet) (s : State) : (eaTake x s).ct =
    if s.ea.accruing then indicate x (priceCrossing (crossed s.ea (s.ea.accrue (sharesOf x))) s.ct) else s.ct := rfl

theorem priceCrossing_eq (b : Bool) (c : ClockTariff) :
    priceCrossing b c = { c with cost := c.cost + if b then c.price else 0 } := by cases b <;> rfl

/-- Settles O37. -/
theorem allocationAccruesEveryShareOnce : Obligations.AllocationAccruesEveryShareOnce := by
  intro s x hs hx hdue g h hg bg lg hb carries plus taken
  have hplus : ∀ e n, e.add n = plus e n := by
    intro e n
    by_cases hc : 36000000 ≤ e.res + n <;> simp [plus, carries, Energy.add, whUnit, hc]
  have htaken : ∀ top a, a.accrue top (sharesOf x) = taken top a := by
    intro top a
    rw [Account.accrue_eq]
    simp only [hplus]
    rfl
  refine ⟨?_, eaTake x (s.onFe FrontEnd.eaTook), exec_eaAllocation hs hx hdue, ?_⟩
  · have hsplit := sharesOf_split x
    show min h g + min _ (g - min h g) + (g - min h g - min _ (g - min h g)) = g
    omega
  · have hea : (eaTake x (s.onFe FrontEnd.eaTook)).ea = { s.ea.accrue (sharesOf x) with
        acc := (eaTake x (s.onFe FrontEnd.eaTook)).ea.acc
        pulses := (eaTake x (s.onFe FrontEnd.eaTook)).ea.pulses
        lost := (eaTake x (s.onFe FrontEnd.eaTook)).ea.lost
        pulse := (eaTake x (s.onFe FrontEnd.eaTook)).ea.pulse
        pulseMs := (eaTake x (s.onFe FrontEnd.eaTook)).ea.pulseMs } :=
      EnergyAccount.feedPulses_pulsed (pulseQuantum s.cfg) (sharesOf x).g (s.ea.accrue (sharesOf x))
    have hframe : Touches [.fe, .ea, .ct] s (eaTake x (s.onFe FrontEnd.eaTook)) :=
      ((onFe_touches s _).mono).step (eaTake_reaches x _).frame
    rw [hea]
    cases hrun : s.ea.accruing with
    | true =>
      have hct : (eaTake x (s.onFe FrontEnd.eaTook)).ct =
          indicate x (priceCrossing (crossed s.ea (s.ea.accrue (sharesOf x))) s.ct) := if_pos hrun
      rw [hct, priceCrossing_eq, crossed, EnergyAccount.accrue_session (sharesOf x) hrun]
      refine ⟨htaken _ _, hrun, fun _ => ⟨htaken _ _, rfl, rfl, ?_⟩, fun h => by simp at h, rfl, hframe⟩
      simp only [bne_iff_ne, ite_not]
      rfl
    | false =>
      have hct : (eaTake x (s.onFe FrontEnd.eaTook)).ct = s.ct := if_neg (by simp [hrun])
      rw [hct, EnergyAccount.accrue_unassigned (sharesOf x) hrun]
      refine ⟨htaken _ _, hrun, fun h => by simp at h, fun _ => ⟨rfl, rfl, rfl, ?_⟩, rfl, hframe⟩
      rw [← hplus]
      rfl

/-! ## Metrology pulses (R120 to R122) -/

/-- The G of a set in the accumulator. -/
def EnergyAccount.gain (g : Nat) (a : EnergyAccount) : EnergyAccount := { a with acc := a.acc + g }

@[simp] theorem EnergyAccount.gain_acc (g : Nat) (a : EnergyAccount) : (a.gain g).acc = a.acc + g := rfl
@[simp] theorem EnergyAccount.gain_pulses (g : Nat) (a : EnergyAccount) : (a.gain g).pulses = a.pulses := rfl
@[simp] theorem EnergyAccount.gain_lost (g : Nat) (a : EnergyAccount) : (a.gain g).lost = a.lost := rfl

/-- A set's G through the pulse path, at a quantum above 0 (R120, R121). -/
theorem EnergyAccount.feedPulses_eq {q unit : Nat} (hq : q ≠ 0) (hunit : unit = q * eighthUnit) (g : Nat)
    (a : EnergyAccount) : a.feedPulses q g =
      if (a.turnOut unit).stalled then (a.turnOut unit).takePulse
      else (((a.turnOut unit).gain g).turnOut unit).takePulse := by
  rw [feedPulses_of_pos hq, ← hunit]
  rfl

section
variable {a : EnergyAccount} {unit : Nat}

/-- Quanta turned out leave the accumulator and join the pending count up to 255, then the lost count (R121). -/
theorem EnergyAccount.turnOut_counts (hpulses : a.pulses ≤ 255) :
    (a.turnOut unit).acc + quantaOut unit a * unit = a.acc ∧
      (a.turnOut unit).pulses = min 255 (a.pulses + quantaOut unit a) ∧
      (a.turnOut unit).lost = a.lost + (a.pulses + quantaOut unit a - 255) := by
  have hle : quantaOut unit a * unit ≤ a.acc :=
    (Nat.mul_le_mul_right unit (Nat.min_le_left _ _)).trans (Nat.div_mul_le_self _ _)
  refine ⟨?_, ?_, ?_⟩ <;> simp only [turnOut] <;> omega

/-- The path is stalled after quanta have been turned out where they used up the room of both counts (R121). -/
theorem EnergyAccount.stalled_turnOut (hpulses : a.pulses ≤ 255) (hlost : a.lost ≤ max32) :
    (a.turnOut unit).stalled = true ↔ 255 - a.pulses + (max32 - a.lost) ≤ a.acc / unit := by
  obtain ⟨-, hp, hl⟩ := turnOut_counts (unit := unit) hpulses
  have hn : quantaOut unit a = min (a.acc / unit) (255 - a.pulses + (max32 - a.lost)) := rfl
  rw [stalled, Bool.and_eq_true, beq_iff_eq, beq_iff_eq, hp, hl]
  omega

/-- G joins what is left in the accumulator: the quanta of both turns are those of the sum, up to the room (R121). -/
theorem quantaOut_feed (hunit : 0 < unit) (g : Nat) (hpulses : a.pulses ≤ 255) (hlost : a.lost ≤ max32)
    (hroom : ¬ 255 - a.pulses + (max32 - a.lost) ≤ a.acc / unit) :
    quantaOut unit a + quantaOut unit ((a.turnOut unit).gain g) =
      min ((a.acc + g) / unit) (255 - a.pulses + (max32 - a.lost)) := by
  obtain ⟨hacc, hp, hl⟩ := EnergyAccount.turnOut_counts (unit := unit) hpulses
  have hn : quantaOut unit a = a.acc / unit := min_eq_left (by omega)
  have hsum : (a.acc + g) / unit = ((a.turnOut unit).acc + g) / unit + quantaOut unit a := by
    rw [← Nat.add_mul_div_right _ _ hunit, ← hacc]
    congr 1
    omega
  have hm : quantaOut unit ((a.turnOut unit).gain g) =
      min (((a.turnOut unit).acc + g) / unit)
        (255 - (a.turnOut unit).pulses + (max32 - (a.turnOut unit).lost)) := rfl
  rw [hm, hp, hl, hsum]
  omega

/-- The output takes a pending pulse where it is READY (R122). -/
theorem EnergyAccount.takePulse_cases (b : EnergyAccount) :
    (b.pulse = .ready → 0 < b.pulses →
      b.takePulse.pulses + 1 = b.pulses ∧ b.takePulse.pulse = .high ∧ b.takePulse.pulseMs = 5) ∧
    (b.pulse ≠ .ready ∨ b.pulses = 0 → b.takePulse = b) ∧
    b.takePulse.acc = b.acc ∧ b.takePulse.lost = b.lost := by
  refine ⟨fun hready hpos => ?_, fun h => ?_, ?_⟩
  · rw [takePulse, if_pos ⟨hready, hpos⟩]
    exact ⟨Nat.sub_add_cancel hpos, rfl, rfl⟩
  · refine if_neg ?_
    rintro ⟨hready, hpos⟩
    rcases h with h | h
    · exact h hready
    · omega
  · unfold takePulse
    split <;> exact ⟨rfl, rfl⟩

/-- Before the output takes a pulse: the quanta a set crosses have left the accumulator for the counts (R121). -/
theorem EnergyAccount.feedPulses_counts {q : Nat} (hq : 0 < q) (hunit : unit = q * eighthUnit) (g : Nat)
    (hpulses : a.pulses ≤ 255) (hlost : a.lost ≤ max32) :
    let room := 255 - a.pulses + (max32 - a.lost)
    let fed := if room ≤ a.acc / unit then 0 else g
    let n := min ((a.acc + fed) / unit) room
    ∃ b : EnergyAccount, a.feedPulses q g = b.takePulse ∧ b.acc + n * unit = a.acc + fed ∧
      b.pulses = min 255 (a.pulses + n) ∧ b.lost = a.lost + (a.pulses + n - 255) ∧ b.pulse = a.pulse ∧
      b.pulseMs = a.pulseMs := by
  intro room fed n
  have hpos : 0 < unit := hunit ▸ Nat.mul_pos hq (by norm_num [eighthUnit])
  have hfeed := feedPulses_eq (Nat.pos_iff_ne_zero.mp hq) hunit g a
  obtain ⟨hacc, hp, hl⟩ := turnOut_counts (unit := unit) hpulses
  have hstall := stalled_turnOut (unit := unit) hpulses hlost
  by_cases hroom : room ≤ a.acc / unit
  · have hfed : fed = 0 := if_pos hroom
    have hn : n = quantaOut unit a := by
      simp only [n, hfed]
      rfl
    refine ⟨a.turnOut unit, ?_, ?_, ?_, ?_, rfl, rfl⟩
    · rw [hfeed, if_pos (hstall.mpr hroom)]
    · rw [hn, hfed, hacc, Nat.add_zero]
    · rw [hn, hp]
    · rw [hn, hl]
  · have hfed : fed = g := if_neg hroom
    have hn : n = quantaOut unit a + quantaOut unit ((a.turnOut unit).gain g) := by
      rw [quantaOut_feed hpos g hpulses hlost hroom]
      simp only [n, hfed]
      rfl
    have hp' : (a.turnOut unit).pulses ≤ 255 := by omega
    obtain ⟨hacc', hpu, hlo⟩ := turnOut_counts (a := (a.turnOut unit).gain g)
      (unit := unit) hp'
    rw [gain_acc] at hacc'
    rw [gain_pulses] at hpu hlo
    rw [gain_lost] at hlo
    have hsum : n * unit = quantaOut unit a * unit +
        quantaOut unit ((a.turnOut unit).gain g) * unit := by rw [hn, Nat.add_mul]
    refine ⟨((a.turnOut unit).gain g).turnOut unit, ?_, ?_, ?_, ?_, rfl, rfl⟩
    · rw [hfeed, if_neg (fun h => hroom (hstall.mp h))]
    · rw [hsum, hfed]
      omega
    · rw [hpu, hn]
      omega
    · rw [hlo, hn]
      omega

end

/-- Accrual leaves the pulse path alone. -/
theorem EnergyAccount.accrue_pulses (x : Shares) (a : EnergyAccount) :
    (a.accrue x).acc = a.acc ∧ (a.accrue x).pulses = a.pulses ∧ (a.accrue x).lost = a.lost ∧
      (a.accrue x).pulse = a.pulse ∧ (a.accrue x).pulseMs = a.pulseMs := by
  cases h : a.accruing with
  | true => rw [accrue_session x h]; exact ⟨rfl, rfl, rfl, rfl, rfl⟩
  | false => rw [accrue_unassigned x h]; exact ⟨rfl, rfl, rfl, rfl, rfl⟩

/-! ## The pulse timers and the PWM period (R42, R122) -/

theorem elapse_ea {s : State} (hs : s.resetLow = false) (dt : Nat) :
    (elapse dt s).ea = { s.ea with pulseMs := s.ea.pulseMs - dt } := by
  simp [elapse, hs]

theorem elapse_pc {s : State} (hs : s.resetLow = false) (dt : Nat) :
    (elapse dt s).pc = { s.pc with pwmMs := s.pc.pwmMs + dt } := by
  simp [elapse, hs]

/-- An event that lowers no command and leaves the heater alone gives no disturbance report. -/
theorem takeReports_of_pCmd_le {s t : State} (hpc : s.pc.pCmd ≤ t.pc.pCmd + 500) (hhc : t.hc = s.hc) :
    takeReports s t = t := by
  have hfell : commandFell s t = false := decide_eq_false (by omega)
  have hdrive : driveOpened s t = false := by simp [driveOpened, hhc]
  simp [takeReports, hfell, hdrive]

/-- An event at the end of a timer that stays in the energy account is that event. -/
theorem atEnd_onEa {s : State} (hs : s.resetLow = false) (dt : Nat) (f : EnergyAccount → EnergyAccount) :
    atEnd (some dt) (fun s => s.onEa f) s = (elapse dt s).onEa f := by
  rw [atEnd_high hs]
  exact takeReports_of_drive_eq rfl rfl

/-- Settles O38. -/
theorem pulsesAreConserved : Obligations.PulsesAreConserved := by
  refine ⟨fun s x hs hx hdue hpulses hlost => ?_, fun s => ⟨fun h => ?_, fun h => ?_⟩, fun s hs => ⟨fun h => ?_,
    fun h hnone => ?_, fun h hsome => ?_, ?_⟩⟩
  · intro q unit g room fed n queued
    refine ⟨eaTake x (s.onFe FrontEnd.eaTook), exec_eaAllocation hs hx hdue, fun hq => ?_, fun hq => ?_⟩
    all_goals obtain ⟨hacc, hp, hl, hpulse, hms⟩ := EnergyAccount.accrue_pulses (sharesOf x) s.ea
    · have hsame : (eaTake x (s.onFe FrontEnd.eaTook)).ea = s.ea.accrue (sharesOf x) := by
        rw [eaTake_ea]
        have hzero : pulseQuantum (s.onFe FrontEnd.eaTook).cfg = 0 := hq
        rw [hzero, EnergyAccount.feedPulses_zero]
        rfl
      rw [hsame]
      exact ⟨hacc, hp, hl, hpulse, hms⟩
    · obtain ⟨b, hb, hbacc, hbp, hbl, hbpulse, hbms⟩ := EnergyAccount.feedPulses_counts hq rfl (sharesOf x).g
        (a := s.ea.accrue (sharesOf x)) (by omega) (by rw [hl]; exact hlost)
      rw [hacc, hp, hl] at hbacc hbp hbl
      have hea : (eaTake x (s.onFe FrontEnd.eaTook)).ea = b.takePulse := hb
      obtain ⟨htake, hstay, hkacc, hklost⟩ := b.takePulse_cases
      rw [hea]
      refine ⟨hkacc ▸ hbacc, hklost.trans hbl, fun hready hpos => ?_, fun hnot => ?_⟩
      · obtain ⟨h1, h2, h3⟩ := htake (by rw [hbpulse, hpulse, hready]) (hbp ▸ hpos)
        exact ⟨h1.trans hbp, h2, h3⟩
      · rw [hstay (by rw [hbpulse, hpulse, hbp]; exact hnot)]
        exact ⟨hbp, hbpulse.trans hpulse, hbms.trans hms⟩
  · show Host.Outcome.next (atEnd (pulseLeft .high s.ea) _ s) = _
    rw [pulseLeft, if_neg h, atEnd_none]
  · show Host.Outcome.next (atEnd (pulseLeft .low s.ea) _ s) = _
    rw [pulseLeft, if_neg h, atEnd_none]
  · show Host.Outcome.next (atEnd (pulseLeft .high s.ea) _ s) = _
    rw [pulseLeft, if_pos h, atEnd_onEa hs]
    rfl
  · show Host.Outcome.next (atEnd (pulseLeft .low s.ea) _ s) = _
    rw [pulseLeft, if_pos h, atEnd_onEa hs, State.onEa, EnergyAccount.endLow,
      (EnergyAccount.takePulse_cases _).2.1 (.inr (by rw [elapse_ea hs]; exact hnone))]
  · show Host.Outcome.next (atEnd (pulseLeft .low s.ea) _ s) = _
    rw [pulseLeft, if_pos h, atEnd_onEa hs, State.onEa, elapse_ea hs, EnergyAccount.endLow, EnergyAccount.takePulse,
      if_pos ⟨rfl, hsome⟩]
  · show Host.Outcome.next (atEnd (some (1 - s.pc.pwmMs)) (fun s => s.onPc Power.periodStart) s) = _
    have hcommand : (elapse (1 - s.pc.pwmMs) s).pc.pCmd = s.pc.pCmd := by rw [elapse_pc hs]
    have hquiet : takeReports (elapse (1 - s.pc.pwmMs) s) ((elapse (1 - s.pc.pwmMs) s).onPc Power.periodStart) =
        (elapse (1 - s.pc.pwmMs) s).onPc Power.periodStart := takeReports_of_pCmd_le (Nat.le_add_right _ _) rfl
    rw [atEnd_high hs, hquiet, ← hcommand]
    rfl

end Sys2Proof.Machine

/-! PROOFS. Requests answered by their block: what the block finds, the refusals of SESSION_OPEN, the fault table's requests
and the tariff tables (R19, R104, R105, R128 to R132, R180). -/

namespace Sys2Proof.Machine

set_option Elab.async false

/-! ## What a request finds and leaves -/

section
variable (p : Port) (s : State)

theorem found_frame : Touches [.ports] s (found p s) := found_touches p s
theorem found_fe : (found p s).fe = s.fe := (found_frame p s).fe_eq
theorem found_pc : (found p s).pc = s.pc := (found_frame p s).pc_eq
theorem found_hc : (found p s).hc = s.hc := (found_frame p s).hc_eq
theorem found_im : (found p s).im = s.im := (found_frame p s).im_eq
theorem found_rs : (found p s).rs = s.rs := (found_frame p s).rs_eq
theorem found_se : (found p s).se = s.se := (found_frame p s).se_eq
theorem found_cfg : (found p s).cfg = s.cfg := (found_frame p s).cfg_eq
theorem found_resetLow : (found p s).resetLow = s.resetLow := (found_frame p s).resetLow_eq

end

/-- Whether a source has fired is read off the snapshot engine before. -/
theorem Fired.of_se {src : Source} {s u t : State} (h : Fired src u t) (hse : u.se = s.se) : Fired src s t := by
  unfold Fired at *
  rwa [hse] at h

theorem NotFired.of_se {src : Source} {s u t : State} (h : NotFired src u t) (hse : u.se = s.se) : NotFired src s t := by
  unfold NotFired at *
  rwa [hse] at h

/-- A request of a right length on a port of its own: the block's answer is the reply, and its event ends with the
disturbance reports (R47, R72, R180). -/
theorem request_answered {s t : State} (h : s.resetLow = false) {p : Port} {k : Kind} {b body : List Byte} {x : Status}
    {act : State → Answer} (hlen : lengthOk k b = true) (hport : portOk k p = true)
    (hact : act (found p s) = ⟨t, x, body⟩) :
    request p k b act s = replies p k x body (takeReports (found p s) t) := by
  rw [request_of_ok h hlen hport, hact]

/-- A request whose event leaves the power command and the heater alone has nothing to report. -/
theorem request_undisturbed {s t : State} (h : s.resetLow = false) {p : Port} {k : Kind} {b body : List Byte} {x : Status}
    {act : State → Answer} (hlen : lengthOk k b = true) (hport : portOk k p = true)
    (hact : act (found p s) = ⟨t, x, body⟩) (hpc : t.pc = s.pc) (hhc : t.hc = s.hc) :
    request p k b act s = replies p k x body t := by
  rw [request_answered h hlen hport hact,
    takeReports_of_drive_eq (hpc.trans (found_pc p s).symm) (hhc.trans (found_hc p s).symm)]

/-! ## SESSION_OPEN refused (R19) -/

theorem exec_sessionOpen_refused {b : List Byte} {s : State} {x : Status} (hs : s.resetLow = false)
    (hlen : lengthOk .sessionOpen b = true) (h : openRefusal (u8 b 0) s = some x) :
    exec (.sessionOpen .c b) s = .next (replies .c .sessionOpen x [] (found .c s)) := by
  have hsame : openRefusal (u8 b 0) (found .c s) = some x := by
    rw [← h, openRefusal, openRefusal, found_sc]
  exact congrArg Host.Outcome.next
    (request_of_answer_unchanged hs hlen rfl (by simp only [answerOpen, hsame, refuse]))

/-- Settles O14. -/
theorem sessionOpenIsRefusedInOrder : Obligations.SessionOpenIsRefusedInOrder := by
  intro b s hs hlen refused
  have refused_of {x : Status} (h : openRefusal (u8 b 0) s = some x) : refused x := exec_sessionOpen_refused hs hlen h
  refine ⟨fun h => refused_of ?_, fun h => refused_of ?_, fun h => refused_of ?_, fun h => ⟨fun hpend => refused_of ?_,
    fun hpend hval => refused_of ?_, fun hpend hval hcode => refused_of ?_⟩, found_frame _ _⟩
  · simp [openRefusal, h]
  · rcases h with h | h | h | h | h <;> simp [openRefusal, h, SessionState.isOpen]
  · simp [openRefusal, h, SessionState.isOpen]
  · simp [openRefusal, h, SessionState.isOpen, hpend]
  · simp [openRefusal, h, SessionState.isOpen, hpend, Session.limitsValid, hval]
  · have hne : ¬ (u8 b 0 = 0 ∨ u8 b 0 = 1) := by omega
    simp [openRefusal, h, SessionState.isOpen, hpend, Session.limitsValid, hval, hne]

/-! ## FAULT_ACK and FAULT_LIST (R104, R105) -/

theorem ackFault_eq (seq : Nat) (m : Insulation) :
    m.ackFault seq = { m with
      faults := m.faults.filter fun e => e.seq ≠ seq
      overflow := if (m.faults.filter fun e => e.seq ≠ seq) = [] then false else m.overflow
      overflowCount := if (m.faults.filter fun e => e.seq ≠ seq) = [] then 0 else m.overflowCount } := by
  have hfilter : (m.faults.filter fun e => e.seq != seq) = m.faults.filter fun e => e.seq ≠ seq := by
    congr 1
    funext e
    by_cases he : e.seq = seq <;> simp [he]
  unfold Insulation.ackFault
  dsimp only
  rw [hfilter]
  cases h : m.faults.filter fun e => e.seq ≠ seq <;> simp

theorem answerFaults_of_some {b : List Byte} {s : State} {e : FaultEntry} (h : s.im.faults[u8 b 0]? = some e) :
    answerFaults b s = ⟨s, .ok, e.wire ++ faultTail s.im⟩ := by simp only [answerFaults, h]

theorem answerFaults_of_none {b : List Byte} {s : State} (h : s.im.faults.length ≤ u8 b 0) :
    answerFaults b s = ⟨s, .empty, faultTail s.im⟩ := by
  simp only [answerFaults, List.getElem?_eq_none h]

/-- Settles O35. -/
theorem faultTableIsAcknowledgedAndListed : Obligations.FaultTableIsAcknowledgedAndListed := by
  refine ⟨fun b s hs hlen => ⟨fun hmem => ?_, fun hnone => ?_⟩, fun p b s hs hlen => ⟨fun e he => ?_, fun hpast => ?_⟩⟩
  · have hany : ((found .v s).im.faults.any fun e => decide (e.seq = u32 b 0)) = true := by
      rw [found_im]
      simpa using hmem
    have hans : answerAck b (found .v s) = ⟨(found .v s).onIm (Insulation.ackFault (u32 b 0)), .ok,
        b1 ((found .v s).im.ackFault (u32 b 0)).faults.length⟩ := if_pos hany
    rw [ackFault_eq, found_im] at hans
    have hok : lengthOk .faultAck b = true := beq_iff_eq.mpr hlen
    refine congrArg Host.Outcome.next ((request_undisturbed hs hok rfl hans (found_pc _ _)
      (found_hc _ _)).trans ?_)
    rw [State.onIm, ackFault_eq, found_im]
  · have hany : ¬ ((found .v s).im.faults.any fun e => decide (e.seq = u32 b 0)) = true := by
      rw [found_im]
      simpa using hnone
    exact congrArg Host.Outcome.next (request_of_answer_unchanged hs (beq_iff_eq.mpr hlen) rfl (if_neg hany))
  · refine congrArg Host.Outcome.next (request_of_answer_unchanged hs (beq_iff_eq.mpr hlen) rfl ?_)
    rw [answerFaults_of_some (by rwa [found_im]), found_im]
    simp only [FaultEntry.wire, faultTail, bTimeMarked, bTime, List.append_assoc]
  · refine congrArg Host.Outcome.next (request_of_answer_unchanged hs (beq_iff_eq.mpr hlen) rfl ?_)
    rw [answerFaults_of_none (by rwa [found_im]), found_im]
    rfl

/-! ## TARIFF_LOAD (R128, R129) -/

theorem periodsAt_eq (b : List Byte) (n i : Nat) :
    periodsAt b n i = (List.range n).map fun j => Period.mk (u16 b (i + 4 * j)) (u16 b (i + 2 + 4 * j)) := by
  induction n generalizing i with
  | zero => rfl
  | succ n ih =>
    rw [periodsAt, ih, List.range_succ_eq_map, List.map_cons, List.map_map]
    refine List.cons_eq_cons.mpr ⟨rfl, List.map_congr_left fun j _ => ?_⟩
    simp only [Function.comp, Nat.succ_eq_add_one]
    congr 2 <;> omega

/-- Each start above the one before it: all in rising order. -/
theorem ascending_iff (t : List Period) : ascending t = true ↔ (t.map Period.start).Pairwise (· < ·) := by
  induction t with
  | nil => simp [ascending]
  | cons x t ih =>
    cases t with
    | nil => simp [ascending]
    | cons y ps =>
      rw [ascending, Bool.and_eq_true, ih, decide_eq_true_eq]
      simp only [List.map_cons, List.pairwise_cons]
      constructor
      · rintro ⟨hxy, hy, hps⟩
        refine ⟨fun a ha => ?_, hy, hps⟩
        rcases List.mem_cons.mp ha with rfl | ha
        · exact hxy
        · exact hxy.trans (hy a ha)
      · rintro ⟨hx, hy, hps⟩
        exact ⟨hx _ (List.mem_cons_self ..), hy, hps⟩

theorem tableOk_iff {n m : Nat} (b : List Byte) (hn : 1 ≤ n) :
    tableOk m (periodsAt b n 2) = true ↔ m = n ∧ u16 b 2 = 0 ∧ (∀ x ∈ periodsAt b n 2, x.start ≤ 1439) ∧
      ((periodsAt b n 2).map Period.start).Pairwise (· < ·) := by
  obtain ⟨k, rfl⟩ : ∃ k, n = k + 1 := ⟨n - 1, by omega⟩
  have hlength : (periodsAt b (k + 1) 2).length = k + 1 := by simp [periodsAt_eq]
  have hhead : (periodsAt b (k + 1) 2).head? = some ⟨u16 b 2, u16 b 4⟩ := rfl
  rw [tableOk, hhead, Bool.and_eq_true, Bool.and_eq_true, Bool.and_eq_true, ascending_iff, hlength, beq_iff_eq, beq_iff_eq,
    List.all_eq_true, and_assoc, and_assoc]
  simp only [decide_eq_true_eq]

theorem loadWaits_iff (k : Payer) (s : State) :
    loadWaits k s = true ↔ s.sc.state.isOpen = true ∧ s.sc.record.payer = k := by
  simp [loadWaits, payerNow]

theorem answerLoad_of_bad {p : Port} {b : List Byte} {s : State}
    (h : ¬ tableOk (u16 b 0) (periodsAt b ((b.length - 2) / 4) 2) = true) : answerLoad p b s = refuse .invalid s := if_neg h

theorem answerLoad_of_good {p : Port} {b : List Byte} {s : State}
    (h : tableOk (u16 b 0) (periodsAt b ((b.length - 2) / 4) 2) = true) :
    answerLoad p b s = ⟨loadTable (loadKind p) (periodsAt b ((b.length - 2) / 4) 2) s, .ok,
      b1 (loadKind p).code ++ bFlag (!loadWaits (loadKind p) s)⟩ := if_pos h

theorem loadTable_pc (k : Payer) (t : List Period) (s : State) : (loadTable k t s).pc = s.pc := (loadTable_touches k t s).pc_eq
theorem loadTable_hc (k : Payer) (t : List Period) (s : State) : (loadTable k t s).hc = s.hc := (loadTable_touches k t s).hc_eq

theorem loadReply (k : Payer) (w : Bool) : b1 k.code ++ bFlag w = [BitVec.ofNat 8 k.code, if w then 1 else 0] := by
  cases k <;> cases w <;> rfl

theorem ClockTariff.putKind_putKind (c : ClockTariff) (k : Payer) (x y : TariffKind) :
    (c.putKind k x).putKind k y = c.putKind k y := by cases k <;> rfl

/-! ## The price of a kind (R132) -/

/-- Past the last start not after the minute nothing changes the price. -/
theorem periodPrice_of_later {r : List Period} {m : Nat} (h : ∀ z ∈ r, m < z.start) (p : Nat) :
    periodPrice r m p = p := by
  induction r generalizing p with
  | nil => rfl
  | cons z r ih =>
    rw [periodPrice, if_neg (by have := h z (List.mem_cons_self ..); omega)]
    exact ih (fun w hw => h w (List.mem_cons_of_mem _ hw)) p

theorem periodPrice_of_last {l r : List Period} {y : Period} {m : Nat} (hy : y.start ≤ m)
    (h : ∀ z ∈ r, m < z.start) (p : Nat) : periodPrice (l ++ y :: r) m p = y.price := by
  induction l generalizing p with
  | nil => rw [List.nil_append, periodPrice, if_pos hy, periodPrice_of_later h]
  | cons z l ih => rw [List.cons_append, periodPrice, ih]

theorem priceOf_of_none {k : Payer} {s : State} (h : (s.ct.kind k).active = none) : priceOf k s = 0 := by
  simp only [priceOf, h]

theorem priceOf_of_cons {k : Payer} {s : State} {x : Period} {xs : List Period}
    (h : (s.ct.kind k).active = some (x :: xs)) :
    priceOf k s = if s.ct.valid then periodPrice xs (minuteOf s.ct.sec) x.price else x.price := by
  simp only [priceOf, h]

/-- Settles O42. -/
theorem tariffTablesAreCheckedStagedAndApplied : Obligations.TariffTablesAreCheckedStagedAndApplied := by
  refine ⟨fun p n b s hs hp h1 h8 hb => ?_, fun s hs => ⟨fun h => ?_, fun tab hclosed htab => ?_⟩,
    fun k s => ⟨priceOf_of_none, fun x xs hact => ⟨fun hval => ?_, fun l r y hval heq hy hr => ?_⟩⟩⟩
  · intro s0 k tab good waits
    have hcount : (b.length - 2) / 4 = n := by omega
    have htab : periodsAt b n 2 = tab := periodsAt_eq b n 2
    have hkind : loadKind p = k := by rcases hp with rfl | rfl <;> rfl
    have hlen : lengthOk .tariffLoad b = true := by
      simp only [lengthOk, hb, Bool.and_eq_true, decide_eq_true_eq, beq_iff_eq]
      omega
    have hport : portOk .tariffLoad p = true := by rcases hp with rfl | rfl <;> rfl
    have hgood : tableOk (u16 b 0) (periodsAt b ((b.length - 2) / 4) 2) = true ↔ good := by
      rw [hcount, tableOk_iff b h1, htab]
    have hwaits : loadWaits k s0 = true ↔ waits := by rw [loadWaits_iff, found_sc]
    refine ⟨fun hbad => ?_, fun hok hw => ?_, fun hok hw => ?_⟩
    · exact congrArg Host.Outcome.next
        (request_of_answer_unchanged hs hlen hport (answerLoad_of_bad (fun h => hbad (hgood.mp h))))
    all_goals have hans := answerLoad_of_good (p := p) (s := s0) (hgood.mpr hok)
    all_goals rw [hcount, htab, hkind, loadReply] at hans
    · have htable : loadTable k tab s0 = { s0 with ct := s.ct.putKind k { s.ct.kind k with staged := some tab } } := by
        rw [loadTable, if_pos (hwaits.mpr hw), State.onCt, found_ct]
      rw [hwaits.mpr hw, htable] at hans
      exact congrArg Host.Outcome.next (request_undisturbed hs hlen hport hans (found_pc p s) (found_hc p s))
    · have hnot : loadWaits k s0 = false := by
        rw [← Bool.not_eq_true, hwaits]
        exact hw
      have htable : loadTable k tab s0 =
          applyStaged k (s0.onCt fun c => c.putKind k { c.kind k with staged := some tab }) := by
        rw [loadTable, if_neg (by simp [hnot])]
      have hstaged : ((s0.onCt fun c => c.putKind k { c.kind k with staged := some tab }).ct.kind k).staged = some tab := by
        simp [ClockTariff.kind_putKind_self]
      have hfirst : Tells [.tariff, .capture] [.tariffApplied] s0
          (s0.onCt fun c => c.putKind k { c.kind k with staged := some tab }) := .of_touches (onCt_touches s0 _)
      rw [hnot] at hans
      refine ⟨loadTable k tab s0, congrArg Host.Outcome.next (request_undisturbed hs hlen hport hans
        ((loadTable_pc ..).trans (found_pc p s)) ((loadTable_hc ..).trans (found_hc p s))), ?_, ?_, ?_, ?_,
        loadTable_touches _ _ _⟩
      all_goals rw [htable]
      · rw [applyStaged_ct _ hstaged, State.onCt_ct, ClockTariff.putKind_putKind, ClockTariff.kind_putKind_self, found_ct]
      · exact applyStaged_raised _ hstaged
      · exact (hfirst.fired_since (applyStaged_fired _ hstaged)).of_se (found_se p s)
      · exact (hfirst.trans (applyStaged_tells _ _)).flags
  · show Host.Outcome.next (if s.sc.state.isOpen then s else event (fun s => applyStaged (payerNow s) s) s) = _
    split
    · rfl
    · next hclosed =>
      have hnone : (s.ct.kind (payerNow s)).staged = none := h.resolve_left hclosed
      rw [event_high hs, applyStaged_of_none s hnone, takeReports_self]
  · refine ⟨applyStaged s.sc.record.payer s, ?_, applyStaged_ct s htab, applyStaged_raised s htab, applyStaged_fired s htab,
      applyStaged_touches _ _⟩
    show Host.Outcome.next (if s.sc.state.isOpen then s else event (fun s => applyStaged (payerNow s) s) s) = _
    rw [if_neg (by simp [hclosed]), event_high hs]
    exact congrArg Host.Outcome.next (takeReports_of_drive_eq (applyStaged_touches _ s).pc_eq (applyStaged_touches _ s).hc_eq)
  · rw [priceOf_of_cons hact, if_neg (by simp [hval])]
  · rw [priceOf_of_cons hact, if_pos hval]
    cases l with
    | nil =>
      obtain ⟨rfl, rfl⟩ := List.cons_eq_cons.mp heq
      exact periodPrice_of_later hr _
    | cons z l =>
      obtain ⟨rfl, rfl⟩ := List.cons_eq_cons.mp heq
      exact periodPrice_of_last hy hr _

end Sys2Proof.Machine

/-! PROOFS. Billing as the session's close uses it: where a record is placed, what a real close leaves, the end of a session,
and the final close asked at P_cmd 0 (R28, R29, R130, R137, R139 to R144). -/

namespace Sys2Proof.Machine

set_option Elab.async false

/-! ## Placing a record (R141) -/

/-- An offer reads and writes the store alone, but for the flags. -/
theorem offer_rs_congr {s t : State} (h : t.rs = s.rs) (st : Stream) (x : Record) :
    (offer st x t).rs = (offer st x s).rs := by
  have hfull (j : Join) : (offerFull st x j t).rs = (offerFull st x j s).rs := by
    cases st <;> simp [offerFull, dropRecord, overwriteRecord, h]
  have hunjoined : (offerUnjoined st t).rs = (offerUnjoined st s).rs := by
    cases st <;> simp [offerUnjoined, dropRecord, h]
  unfold offer
  rw [h]
  split
  · exact hunjoined
  · split
    · simp [appendRecord, refreshStream, h]
    · exact hfull _

theorem billingRoom_congr {s t : State} (h : t.rs = s.rs) : billingRoom t = billingRoom s := by
  simp only [billingRoom, h]

theorem placeable_congr {s t : State} (h : t.rs = s.rs) (hheld : t.ct.held = s.ct.held) :
    placeable t = placeable s := by
  rw [placeable, placeable, billingRoom_congr h, hheld]

theorem placeable_iff (s : State) : placeable s = true ↔ billingRoom s = true ∨ s.ct.held = none := by
  simp [placeable]

theorem not_placeable_iff (s : State) : placeable s = false ↔ billingRoom s = false ∧ s.ct.held ≠ none := by
  simp [placeable, Option.ne_none_iff_isSome]

section
variable {s : State} (r : BillingRecord)

theorem placeRecord_of_room (h : billingRoom s = true) : placeRecord r s = offer .billing (.billing r) s := if_pos h

theorem placeRecord_of_slot (h : billingRoom s = false) (hheld : s.ct.held = none) :
    placeRecord r s = raiseAll .billing (s.onCt fun c => { c with held := some r }) := by
  simp [placeRecord, h, hheld]

theorem placeRecord_tells : Tells [.stream, .billing] [] s (placeRecord r s) := by
  unfold placeRecord
  split
  · exact (offer_tells s _ _).mono
  · split
    · exact (Tells.of_touches (onCt_touches s _)).step (raiseAll_tells _ _)
    · exact .refl _ _ _

end

/-- Step 3 of a real close: the reported cost advanced (R139). -/
def costed (s : State) : State := s.onCt fun c => { c with reported := roundedCost c.cost }

theorem costed_touches (s : State) : Touches [.ct] s (costed s) := onCt_touches s _

/-- Steps 3 and 4 of a real close: the reported cost advanced, the record placed or kept pending (R137, R139, R141, R144). -/
def recorded (r : BillingRecord) (s : State) : State :=
  if placeable (costed s) then placeRecord r (costed s)
  else raiseAll .billing ((costed s).onCt fun c => { c with finalRecord := some r })

section
variable (r : BillingRecord) (s : State)

theorem recorded_touches : Touches [.ct, .rs, .ports] s (recorded r s) := by
  have hcost : Touches [.ct, .rs, .ports] s (costed s) := (costed_touches s).mono
  unfold recorded
  exact .ite (hcost.step (placeRecord_touches r _)) ((hcost.step (onCt_touches _ _)).step (raiseAll_touches _ _))

theorem recorded_tells : Tells [.stream, .billing] [] s (recorded r s) := by
  have hcost : Tells [.stream, .billing] [] s (costed s) := .of_touches (costed_touches s)
  unfold recorded
  exact .ite (hcost.step (placeRecord_tells r)) ((hcost.silent (onCt_touches _ _)).step (raiseAll_tells _ _))

variable {r s}

theorem recorded_of_room (h : billingRoom s = true) :
    (recorded r s).rs = (offer .billing (.billing r) s).rs ∧
      (recorded r s).ct = { s.ct with reported := roundedCost s.ct.cost } := by
  have hplace : placeable (costed s) = true := (placeable_iff _).mpr (.inl h)
  have hroom : billingRoom (costed s) = true := h
  rw [recorded, if_pos hplace, placeRecord_of_room r hroom, (offer_touches _ _ _).ct_eq]
  exact ⟨offer_rs_congr (s := s) (t := costed s) rfl _ _, rfl⟩

theorem recorded_of_slot (h : billingRoom s = false) (hheld : s.ct.held = none) :
    (recorded r s).rs = s.rs ∧
      (recorded r s).ct = { s.ct with reported := roundedCost s.ct.cost, held := some r } ∧
      Raised .billing (recorded r s) := by
  have hplace : placeable (costed s) = true := (placeable_iff _).mpr (.inr hheld)
  have hroom : billingRoom (costed s) = false := h
  have hslot : (costed s).ct.held = none := hheld
  rw [recorded, if_pos hplace, placeRecord_of_slot r hroom hslot]
  exact ⟨rfl, rfl, raiseAll_raised _ _⟩

theorem recorded_kept (h : placeable s = false) :
    (recorded r s).rs = s.rs ∧
      (recorded r s).ct = { s.ct with reported := roundedCost s.ct.cost, finalRecord := some r } ∧
      Raised .billing (recorded r s) := by
  have hplace : placeable (costed s) = false := h
  rw [recorded, if_neg (by simp [hplace])]
  exact ⟨rfl, rfl, raiseAll_raised _ _⟩

/-- What a record placed or kept leaves of the clock unit besides the hold slot and the pending record. -/
theorem recorded_kind (k : Payer) : (recorded r s).ct.kind k = s.ct.kind k := by
  cases hroom : billingRoom s with
  | true => rw [(recorded_of_room hroom).2]; cases k <;> rfl
  | false =>
    cases hheld : s.ct.held with
    | none => rw [(recorded_of_slot hroom hheld).2.1]; cases k <;> rfl
    | some x =>
      rw [(recorded_kept ((not_placeable_iff s).mpr ⟨hroom, by simp [hheld]⟩)).2.1]
      cases k <;> rfl

theorem recorded_cost : (recorded r s).ct.cost = s.ct.cost ∧ (recorded r s).ct.reported = (s.ct.cost + 500) / 1000 := by
  cases hroom : billingRoom s with
  | true => rw [(recorded_of_room hroom).2]; exact ⟨rfl, rfl⟩
  | false =>
    cases hheld : s.ct.held with
    | none => rw [(recorded_of_slot hroom hheld).2.1]; exact ⟨rfl, rfl⟩
    | some x =>
      rw [(recorded_kept ((not_placeable_iff s).mpr ⟨hroom, by simp [hheld]⟩)).2.1]
      exact ⟨rfl, rfl⟩

end

/-! ## Tables applied (R129, R130) -/

/-- The tables of a kind once a staged one has been applied. -/
def TariffKind.applied (k : TariffKind) : TariffKind :=
  match k.staged with
  | none => k
  | some tab => ⟨some tab, none, (k.generation + 1) % 65536⟩

theorem TariffKind.applied_staged (k : TariffKind) : k.applied.staged = none := by
  unfold applied
  split
  · assumption
  · rfl

theorem TariffKind.applied_of_none {k : TariffKind} (h : k.staged = none) : k.applied = k := by simp [applied, h]

theorem TariffKind.applied_of_some {k : TariffKind} {tab : List Period} (h : k.staged = some tab) :
    k.applied = ⟨some tab, none, (k.generation + 1) % 65536⟩ := by simp [applied, h]

theorem ClockTariff.putKind_self (c : ClockTariff) (k : Payer) : c.putKind k (c.kind k) = c := by cases k <;> rfl

theorem applyStaged_ct_eq (k : Payer) (s : State) : (applyStaged k s).ct = s.ct.putKind k (s.ct.kind k).applied := by
  cases h : (s.ct.kind k).staged with
  | none => rw [applyStaged_of_none s h, TariffKind.applied_of_none h, ClockTariff.putKind_self]
  | some tab => rw [applyStaged_ct s h, TariffKind.applied_of_some h]

/-- The clock unit differs in the tables alone. -/
def ClockTariff.TablesOnly (c d : ClockTariff) : Prop := d = { c with station := d.station, fleet := d.fleet }

theorem ClockTariff.TablesOnly.refl (c : ClockTariff) : c.TablesOnly c := rfl

theorem ClockTariff.TablesOnly.trans {c d e : ClockTariff} (h : c.TablesOnly d) (h' : d.TablesOnly e) : c.TablesOnly e := by
  unfold TablesOnly at *
  rw [h', h]

theorem ClockTariff.putKind_tablesOnly (c : ClockTariff) (k : Payer) (x : TariffKind) : c.TablesOnly (c.putKind k x) := by
  cases k <;> rfl

theorem applyStaged_tablesOnly (k : Payer) (s : State) : s.ct.TablesOnly (applyStaged k s).ct := by
  rw [applyStaged_ct_eq]
  exact ClockTariff.putKind_tablesOnly _ _ _

theorem setState_tablesOnly (x : SessionState) (s : State) : s.ct.TablesOnly (setState x s).ct := by
  by_cases h : s.sc.state = x
  · rw [setState_same h]
    exact .refl _
  · rw [setState_ct h]
    split
    · split
      · exact .refl _
      · exact ClockTariff.putKind_tablesOnly _ _ _
    · exact .refl _

/-- With no table staged for the payer, a change of state leaves the clock unit. -/
theorem setState_ct_unstaged {x : SessionState} {s : State} (hnone : (s.ct.kind s.sc.record.payer).staged = none) :
    (setState x s).ct = s.ct := by
  by_cases h : s.sc.state = x
  · rw [setState_same h]
  · rw [setState_ct h, hnone, ite_self]

/-! ## A real close (R137) -/

section
variable (reason : BillingReason) (lockout : Bool) (i : Interval) (s : State)

theorem realClose_eq : realClose reason lockout i s =
    applyStaged s.sc.record.payer (occur .intervalClosed (recorded (formRecord reason lockout i s) s)) := by
  have hpayer : payerNow (recorded (formRecord reason lockout i s) s) = s.sc.record.payer := by
    rw [payerNow, (recorded_touches _ s).sc_eq]
  rw [← hpayer]
  rfl

theorem realClose_tells :
    Tells [.stream, .billing, .tariff, .capture] [.intervalClosed, .tariffApplied] s (realClose reason lockout i s) := by
  rw [realClose_eq]
  exact (((recorded_tells _ s).mono).step (occur_tells _ _)).step (applyStaged_tells _ _)

theorem realClose_rs : (realClose reason lockout i s).rs = (recorded (formRecord reason lockout i s) s).rs := by
  rw [realClose_eq, (applyStaged_touches _ _).rs_eq, (occur_touches _ _).rs_eq]

theorem realClose_ct : (realClose reason lockout i s).ct = (recorded (formRecord reason lockout i s) s).ct.putKind
    s.sc.record.payer (s.ct.kind s.sc.record.payer).applied := by
  rw [realClose_eq, applyStaged_ct_eq, (occur_touches _ _).ct_eq, recorded_kind]

theorem realClose_tablesOnly :
    (recorded (formRecord reason lockout i s) s).ct.TablesOnly (realClose reason lockout i s).ct := by
  rw [realClose_ct]
  exact ClockTariff.putKind_tablesOnly _ _ _

theorem realClose_kind (k : Payer) : (realClose reason lockout i s).ct.kind k =
    if k = s.sc.record.payer then (s.ct.kind k).applied else s.ct.kind k := by
  rw [realClose_ct]
  split
  · next h => rw [h, ClockTariff.kind_putKind_self]
  · next h => rw [ClockTariff.kind_putKind_other _ _ h, recorded_kind]

theorem realClose_fired : Fired .intervalClosed s (realClose reason lockout i s) := by
  rw [realClose_eq]
  exact (recorded_tells _ s).fired_since ((applyStaged_tells _ _).fired_of (occur_fired _ _))

variable {reason lockout i s}

theorem realClose_tariff {tab : List Period} (h : (s.ct.kind s.sc.record.payer).staged = some tab) :
    Raised .tariff (realClose reason lockout i s) ∧ Fired .tariffApplied s (realClose reason lockout i s) := by
  have hstaged : ((occur .intervalClosed (recorded (formRecord reason lockout i s) s)).ct.kind
      s.sc.record.payer).staged = some tab := by rw [(occur_touches _ _).ct_eq, recorded_kind, h]
  rw [realClose_eq]
  exact ⟨applyStaged_raised _ hstaged,
    (((recorded_tells _ s).mono (ms := [.stream, .billing, .capture]) (fs := [.intervalClosed])).step
      (occur_tells _ _)).fired_since (applyStaged_fired _ hstaged)⟩

/-- The record of a real close that finds a place (R137, R141). -/
theorem realClose_placed : RecordPlaced reason lockout i s (realClose reason lockout i s) := by
  have hheld : (realClose reason lockout i s).ct.held = (recorded (formRecord reason lockout i s) s).ct.held := by
    rw [realClose_tablesOnly reason lockout i s]
  have hcost : (realClose reason lockout i s).ct.cost = (recorded (formRecord reason lockout i s) s).ct.cost := by
    rw [realClose_tablesOnly reason lockout i s]
  have hreported : (realClose reason lockout i s).ct.reported =
      (recorded (formRecord reason lockout i s) s).ct.reported := by
    rw [realClose_tablesOnly reason lockout i s]
  have hbilling : Tells [.tariff, .capture] [.intervalClosed, .tariffApplied]
      (recorded (formRecord reason lockout i s) s) (realClose reason lockout i s) := by
    rw [realClose_eq]
    exact ((occur_tells _ _).mono).step (applyStaged_tells _ _)
  constructor
  · intro hroom
    rw [realClose_rs, hheld, (recorded_of_room hroom).1, (recorded_of_room hroom).2]
    exact ⟨rfl, rfl⟩
  · intro hroom hslot
    obtain ⟨hrs, hct, hraised⟩ := recorded_of_slot (r := formRecord reason lockout i s) hroom hslot
    rw [realClose_rs, hheld, hrs, hct]
    exact ⟨rfl, rfl, hbilling.raised_of hraised⟩
  · rw [hcost, hreported]
    exact recorded_cost
  · exact realClose_fired _ _ _ _
  · intro tab htab
    refine ⟨?_, realClose_tariff htab⟩
    rw [realClose_kind, if_pos rfl, TariffKind.applied_of_some htab]
  · refine ⟨fun k hk => ?_, fun hnone => ?_⟩
    · rw [realClose_kind, if_neg hk]
    · rw [realClose_kind, if_pos rfl, TariffKind.applied_of_none hnone]

end

/-- What follows a placed record and leaves store, hold slot, cost and tables leaves it placed. -/
theorem RecordPlaced.after {reason : BillingReason} {lockout : Bool} {i : Interval} {s t u : State} {ns : List Notice}
    {srcs : List Source} (h : RecordPlaced reason lockout i s t) (ht : Tells ns srcs t u) (hrs : u.rs = t.rs)
    (hheld : u.ct.held = t.ct.held) (hcost : u.ct.cost = t.ct.cost) (hreported : u.ct.reported = t.ct.reported)
    (hkind : ∀ k, u.ct.kind k = t.ct.kind k) : RecordPlaced reason lockout i s u := by
  obtain ⟨hstream, hslot, hc, hfired, hstaged, hother, hnone⟩ := h
  constructor
  · intro hroom
    rw [hrs, hheld]
    exact hstream hroom
  · intro hroom hempty
    obtain ⟨h1, h2, h3⟩ := hslot hroom hempty
    exact ⟨hrs.trans h1, hheld.trans h2, ht.raised_of h3⟩
  · rw [hcost, hreported]
    exact hc
  · exact ht.fired_of hfired
  · intro tab htab
    obtain ⟨h1, h2, h3⟩ := hstaged tab htab
    exact ⟨(hkind _).trans h1, ht.raised_of h2, ht.fired_of h3⟩
  · exact ⟨fun k hk => (hkind k).trans (hother k hk), fun h => (hkind _).trans (hnone h)⟩

/-- The record placed at a close is that of the state before, where nothing it is formed from has changed since. -/
theorem RecordPlaced.before {reason : BillingReason} {lockout : Bool} {i : Interval} {s u t : State}
    (h : RecordPlaced reason lockout i u t) (hform : formRecord reason lockout i u = formRecord reason lockout i s)
    (hrs : u.rs = s.rs) (hheld : u.ct.held = s.ct.held) (hcost : u.ct.cost = s.ct.cost)
    (hkind : ∀ k, u.ct.kind k = s.ct.kind k) (hpayer : u.sc.record.payer = s.sc.record.payer)
    (hvectors : u.se.vectors = s.se.vectors) : RecordPlaced reason lockout i s t := by
  have hfire {src : Source} (hf : Fired src u t) : Fired src s t := fun hen => hf (by rwa [hvectors])
  obtain ⟨hstream, hslot, hc, hfired, hstaged, hother, hnone⟩ := h
  rw [hform, offer_rs_congr hrs, billingRoom_congr hrs, hheld] at hstream
  rw [hform, billingRoom_congr hrs, hheld, hrs] at hslot
  rw [hcost] at hc
  rw [hpayer, hkind] at hstaged hnone
  rw [hpayer] at hother
  exact ⟨hstream, hslot, hc, hfire hfired,
    fun tab htab => ⟨(hstaged tab htab).1, (hstaged tab htab).2.1, hfire (hstaged tab htab).2.2⟩,
    fun k hk => (hother k hk).trans (hkind k), hnone⟩

theorem formRecord_congr {reason : BillingReason} {lockout : Bool} {i : Interval} {s u : State}
    (hnumber : u.sc.record.number = s.sc.record.number) (hpayer : u.sc.record.payer = s.sc.record.payer)
    (hkind : u.ct.kind s.sc.record.payer = s.ct.kind s.sc.record.payer) (hea : u.ea.session = s.ea.session)
    (helapsed : u.ct.elapsed = s.ct.elapsed) (hprice : u.ct.price = s.ct.price) (hcost : u.ct.cost = s.ct.cost)
    (hreported : u.ct.reported = s.ct.reported) :
    formRecord reason lockout i u = formRecord reason lockout i s := by
  simp only [formRecord, payerNow, hnumber, hpayer, hkind, hea, helapsed, hprice, hcost, hreported]

end Sys2Proof.Machine

/-! PROOFS. The end of a session and the final close asked at P_cmd 0 (R28, R29, R36, R137, R141, R142, R144). -/

namespace Sys2Proof.Machine

set_option Elab.async false

/-! ## The end of a session (R29) -/

/-- The state in which the end of a session clears what a session alone has. -/
def rested (s : State) : State := if s.sc.state = .closing then setState (restingState s.sc) s else s

theorem sessionEnd_eq (s : State) : sessionEnd s = occur .sessionClosed (raiseAll .session ((rested s).onSc fun c =>
    { c with
      hold := .empty
      gate := false
      commandZero := false
      finalPending := false
      record := { c.record with pause := false } })) := rfl

/-- What ends a session changes after the change of state. -/
theorem sessionEnd_rest (s : State) : Touches (.sc :: signals) (rested s) (sessionEnd s) := by
  rw [sessionEnd_eq]
  exact (((onSc_touches _ _).mono).step (raiseAll_touches _ _)).step (occur_touches _ _)

theorem sessionEnd_rest_tells (s : State) : Tells [.session, .capture] [.sessionClosed] (rested s) (sessionEnd s) := by
  rw [sessionEnd_eq]
  exact ((Tells.of_touches (onSc_touches _ _)).step (raiseAll_tells _ _)).step (occur_tells _ _)

theorem rested_tells (s : State) :
    Tells [.session, .tariff, .capture] [.stateChanged, .tariffApplied] s (rested s) :=
  .ite (setState_tells _ _) (.refl _ _ _)

theorem sessionEnd_tells (s : State) :
    Tells [.session, .tariff, .capture] [.stateChanged, .tariffApplied, .sessionClosed] s (sessionEnd s) :=
  ((rested_tells s).mono).step (sessionEnd_rest_tells s)

theorem sessionEnd_raised (s : State) : Raised .session (sessionEnd s) := by
  rw [sessionEnd_eq]
  exact (occur_tells _ _).raised_of (raiseAll_raised _ _)

theorem sessionEnd_fired (s : State) : Fired .sessionClosed s (sessionEnd s) := by
  rw [sessionEnd_eq]
  have hrest : Tells [.session, .tariff, .capture] [.stateChanged, .tariffApplied] s (rested s) := rested_tells s
  exact ((hrest.silent (onSc_touches _ _)).step (raiseAll_tells _ .session)).fired_since (occur_fired _ _)

theorem restingState_ne (c : Session) : restingState c ≠ .closing := by
  unfold restingState
  split <;> simp

theorem sessionEnd_stateChanged {s : State} (h : s.sc.state = .closing) : Fired .stateChanged s (sessionEnd s) := by
  have hmoves : s.sc.state ≠ restingState s.sc := by rw [h]; exact (restingState_ne _).symm
  refine (sessionEnd_rest_tells s).fired_of ?_
  rw [rested, if_pos h]
  exact setState_fired hmoves

theorem sessionEnd_tablesOnly (s : State) : s.ct.TablesOnly (sessionEnd s).ct := by
  rw [(sessionEnd_rest s).ct_eq, rested]
  split
  · exact setState_tablesOnly _ _
  · exact .refl _

theorem sessionEnd_ct_unstaged {s : State} (h : (s.ct.kind s.sc.record.payer).staged = none) :
    (sessionEnd s).ct = s.ct := by
  rw [(sessionEnd_rest s).ct_eq, rested]
  split
  · exact setState_ct_unstaged h
  · rfl

/-- The end of a session in CLOSING leaves no command (R45). -/
theorem sessionEnd_pCmd {s : State} (h : s.sc.state = .closing) : (sessionEnd s).pc.pCmd = 0 := by
  have hkeeps : keepsCommand { s.sc with state := restingState s.sc } = false := by
    cases hp : s.sc.plug <;> simp [restingState, hp, keepsCommand]
  rw [(sessionEnd_rest s).pc_eq, rested, if_pos h, setState_pCmd, if_neg (by rw [h]; exact (restingState_ne _).symm),
    if_neg (by simp [hkeeps])]

theorem restingState_eq (c : Session) :
    restingState c = (match c.plug with | .present => .connected | .absent => .unplugged) := rfl

/-! ## The final close (R137, R144) -/

section
variable (reason : BillingReason) (lockout : Bool) {s : State}

/-- Accrual ends (R137). -/
def accrualEnded (s : State) : State := s.onEa fun a => { a with accruing := false }

theorem accrualEnded_touches (s : State) : Touches [.ea] s (accrualEnded s) := onEa_touches s _

theorem finalClose_of_none (h : s.ct.interval = none) : finalClose reason lockout s = accrualEnded s := by
  have h' : (s.onEa fun a => { a with accruing := false }).ct.interval = none := h
  simp only [finalClose, h']
  rfl

theorem finalClose_of_some {i : Interval} (h : s.ct.interval = some i) :
    finalClose reason lockout s =
      (realClose reason lockout i (accrualEnded s)).onCt fun c => { c with interval := none } := by
  have h' : (s.onEa fun a => { a with accruing := false }).ct.interval = some i := h
  simp only [finalClose, h']
  rfl

theorem finalClose_tells :
    Tells [.stream, .billing, .tariff, .capture] [.intervalClosed, .tariffApplied] s (finalClose reason lockout s) := by
  cases h : s.ct.interval with
  | none =>
    rw [finalClose_of_none _ _ h]
    exact .of_touches (accrualEnded_touches s)
  | some i =>
    rw [finalClose_of_some _ _ h]
    have hend : Tells [.stream, .billing, .tariff, .capture] [.intervalClosed, .tariffApplied] s (accrualEnded s) :=
      .of_touches (accrualEnded_touches s)
    exact (hend.trans (realClose_tells _ _ _ _)).silent (onCt_touches _ _)

theorem finalClose_ea : (finalClose reason lockout s).ea = { s.ea with accruing := false } := by
  cases h : s.ct.interval with
  | none => rw [finalClose_of_none _ _ h]; rfl
  | some i =>
    rw [finalClose_of_some _ _ h, State.onCt_ea, (realClose_touches _ _ _ _).ea_eq]
    rfl

theorem finalClose_interval : (finalClose reason lockout s).ct.interval = none := by
  cases h : s.ct.interval with
  | none => rw [finalClose_of_none _ _ h]; exact h
  | some i => rw [finalClose_of_some _ _ h]; rfl

/-- A final close that finds a place leaves a pending record of before as it was. -/
theorem finalClose_finalRecord : (finalClose reason lockout s).ct.finalRecord =
    match s.ct.interval with
    | none => s.ct.finalRecord
    | some i => if placeable s then s.ct.finalRecord else some (formRecord reason lockout i s) := by
  cases h : s.ct.interval with
  | none => rw [finalClose_of_none _ _ h]; rfl
  | some i =>
    have hrec : ((realClose reason lockout i (accrualEnded s)).onCt fun c => { c with interval := none }).ct.finalRecord =
        (recorded (formRecord reason lockout i (accrualEnded s)) (accrualEnded s)).ct.finalRecord := by
      rw [State.onCt_ct, realClose_tablesOnly reason lockout i]
    rw [finalClose_of_some _ _ h, hrec]
    dsimp only
    cases hplace : placeable s with
    | true =>
      rcases (placeable_iff s).mp hplace with hroom | hslot
      · rw [(recorded_of_room (s := accrualEnded s) hroom).2]
        rfl
      · cases hroom : billingRoom s with
        | true =>
          rw [(recorded_of_room (s := accrualEnded s) hroom).2]
          rfl
        | false =>
          rw [(recorded_of_slot (s := accrualEnded s) hroom hslot).2.1]
          rfl
    | false =>
      rw [(recorded_kept (s := accrualEnded s) hplace).2.1]
      rfl

theorem finalClose_placed {i : Interval} (h : s.ct.interval = some i) :
    RecordPlaced reason lockout i s (finalClose reason lockout s) := by
  have hreal : RecordPlaced reason lockout i s (realClose reason lockout i (accrualEnded s)) :=
    (realClose_placed (s := accrualEnded s)).before rfl rfl rfl rfl (fun _ => rfl) rfl rfl
  rw [finalClose_of_some _ _ h]
  exact hreal.after (Tells.of_touches (ns := []) (srcs := []) (onCt_touches _ _)) rfl rfl rfl rfl fun k => by cases k <;> rfl

theorem finalClose_keeps {i : Interval} (h : s.ct.interval = some i) (hplace : placeable s = false) :
    (finalClose reason lockout s).rs = s.rs ∧ (finalClose reason lockout s).ct.held = s.ct.held ∧
      Raised .billing (finalClose reason lockout s) := by
  obtain ⟨hrs, hct, hraised⟩ := recorded_kept (r := formRecord reason lockout i (accrualEnded s)) (s := accrualEnded s)
    hplace
  have hheld : ((realClose reason lockout i (accrualEnded s)).onCt fun c => { c with interval := none }).ct.held =
      (recorded (formRecord reason lockout i (accrualEnded s)) (accrualEnded s)).ct.held := by
    rw [State.onCt_ct, realClose_tablesOnly reason lockout i]
  rw [finalClose_of_some _ _ h]
  refine ⟨?_, ?_, ?_⟩
  · rw [State.onCt_rs, realClose_rs, hrs]
    rfl
  · rw [hheld, hct]
    rfl
  · have hreal : Raised .billing (realClose reason lockout i (accrualEnded s)) := by
      rw [realClose_eq]
      exact (applyStaged_tells _ _).raised_of ((occur_tells _ _).raised_of hraised)
    exact (Tells.of_touches (ns := []) (srcs := []) (onCt_touches _ _)).raised_of hreal

/-- Where the final close has ended an interval, no table of the payer's kind waits any more (R130). -/
theorem finalClose_unstaged {i : Interval} (h : s.ct.interval = some i) :
    ((finalClose reason lockout s).ct.kind (finalClose reason lockout s).sc.record.payer).staged = none := by
  have hpayer : (finalClose reason lockout s).sc.record.payer = s.sc.record.payer := by
    rw [(finalClose_touches reason lockout s).sc_eq]
  have hkind (c : ClockTariff) (k : Payer) : ({ c with interval := none } : ClockTariff).kind k = c.kind k := by
    cases k <;> rfl
  rw [hpayer, finalClose_of_some _ _ h, State.onCt_ct, hkind, realClose_kind]
  have hown : s.sc.record.payer = (accrualEnded s).sc.record.payer := rfl
  rw [if_pos hown]
  exact TariffKind.applied_staged _

end

/-! ## The answer to the last close request (R29) -/

theorem answerClose_of_none {s : State} (h : s.ct.finalRecord = none) : answerClose s = sessionEnd s := by
  simp [answerClose, h]

theorem answerClose_of_some {s : State} (h : s.ct.finalRecord.isSome = true) :
    answerClose s = raiseAll .session (s.onSc fun c => { c with finalPending := true }) := by
  simp [answerClose, Option.isSome_iff_ne_none.mp h]

theorem answerClose_tells (s : State) :
    Tells [.session, .tariff, .capture] [.stateChanged, .tariffApplied, .sessionClosed] s (answerClose s) := by
  unfold answerClose
  exact .ite (sessionEnd_tells s) ((Tells.of_touches (onSc_touches s _)).step (raiseAll_tells _ _))

theorem answerClose_raised (s : State) : Raised .session (answerClose s) := by
  unfold answerClose
  split
  · exact sessionEnd_raised s
  · exact raiseAll_raised _ _

theorem answerClose_tablesOnly (s : State) : s.ct.TablesOnly (answerClose s).ct := by
  unfold answerClose
  split
  · exact sessionEnd_tablesOnly s
  · exact .refl _

theorem answerClose_ct_unstaged {s : State} (h : (s.ct.kind s.sc.record.payer).staged = none) :
    (answerClose s).ct = s.ct := by
  unfold answerClose
  split
  · exact sessionEnd_ct_unstaged h
  · rfl

/-- An answer leaves a placed record placed. -/
theorem RecordPlaced.answerClose {reason : BillingReason} {lockout : Bool} {i : Interval} {s t : State}
    (h : RecordPlaced reason lockout i s t) (hnone : (t.ct.kind t.sc.record.payer).staged = none) :
    RecordPlaced reason lockout i s (Machine.answerClose t) := by
  have hct := answerClose_ct_unstaged hnone
  exact h.after (answerClose_tells t) (answerClose_touches t).rs_eq (by rw [hct]) (by rw [hct]) (by rw [hct])
    fun k => by rw [hct]

/-! ## The command-zero condition (R28) -/

theorem commandZeroReached_of_not {s : State} (h : s.sc.state ≠ .closing ∨ s.pc.pCmd ≠ 0 ∨ s.sc.commandZero = true) :
    commandZeroReached s = s := by
  refine if_neg ?_
  rintro ⟨h1, h2, h3⟩
  rcases h with h | h | h
  · exact h h1
  · exact h h2
  · rw [h3] at h
    cases h

/-- The command-zero condition set. -/
def atZero (s : State) : State := s.onSc fun c => { c with commandZero := true }

theorem commandZeroReached_of_zero {s : State} (h : s.sc.state = .closing) (hp : s.pc.pCmd = 0)
    (hz : s.sc.commandZero = false) : commandZeroReached s = answerClose (finalClose .final false (atZero s)) :=
  if_pos ⟨h, hp, hz⟩

theorem commandZeroReached_tells (s : State) :
    Tells [.session, .stream, .billing, .tariff, .capture]
      [.stateChanged, .tariffApplied, .sessionClosed, .intervalClosed] s (commandZeroReached s) := by
  unfold commandZeroReached
  split
  · have hzero : Tells [.session, .stream, .billing, .tariff, .capture]
        [.stateChanged, .tariffApplied, .sessionClosed, .intervalClosed] s (atZero s) := .of_touches (onSc_touches s _)
    exact (hzero.step (finalClose_tells _ _)).step (answerClose_tells _)
  · exact .refl _ _ _

/-- The final close at P_cmd 0, asked in CLOSING (R28, R29). -/
theorem commandZeroReached_closed {s : State} (h : s.sc.state = .closing) (hp : s.pc.pCmd = 0)
    (hz : s.sc.commandZero = false) : ClosedNow s.sc.plug s (commandZeroReached s) := by
  rw [commandZeroReached_of_zero h hp hz]
  have hframe := finalClose_touches .final false (atZero s)
  have hsc : (finalClose .final false (atZero s)).sc = { s.sc with commandZero := true } := hframe.sc_eq
  have hclosing : (finalClose .final false (atZero s)).sc.state = .closing := by rw [hsc]; exact h
  have htells : Tells [.stream, .billing, .tariff, .capture] [.intervalClosed, .tariffApplied] s
      (finalClose .final false (atZero s)) :=
    (Tells.of_touches (ns := [.stream, .billing, .tariff, .capture]) (srcs := [.intervalClosed, .tariffApplied])
      (onSc_touches s fun c => { c with commandZero := true })).trans (finalClose_tells _ _)
  have hpend : (finalClose .final false (atZero s)).ct.finalRecord =
      match s.ct.interval with
      | none => s.ct.finalRecord
      | some i => if placeable s then s.ct.finalRecord else some (formRecord .final false i s) :=
    finalClose_finalRecord _ _
  have hplaced : finalPlaced s = true ↔ (finalClose .final false (atZero s)).ct.finalRecord = none := by
    rw [hpend, finalPlaced]
    cases s.ct.interval with
    | none => simp
    | some i => cases placeable s <;> simp
  have hct := answerClose_tablesOnly (finalClose .final false (atZero s))
  constructor
  · rw [(answerClose_touches _).ea_eq, finalClose_ea]
    rfl
  · rw [hct]
    exact finalClose_interval _ _
  · by_cases hfinal : (finalClose .final false (atZero s)).ct.finalRecord = none
    · rw [answerClose_of_none hfinal]
      exact sessionEnd_pCmd hclosing
    · rw [answerClose_of_some (Option.isSome_iff_ne_none.mpr hfinal)]
      have hpc : (finalClose .final false (atZero s)).pc = s.pc := hframe.pc_eq
      show (finalClose .final false (atZero s)).pc.pCmd = 0
      rw [hpc, hp]
  · exact answerClose_raised _
  · intro hok
    have hnone := hplaced.mp hok
    rw [answerClose_of_none hnone, sessionEnd_tablesOnly, sessionEnd_sc, if_pos hclosing, hsc]
    exact ⟨rfl, rfl, rfl, rfl, rfl, rfl, hnone, htells.fired_since (sessionEnd_fired _)⟩
  · intro hno
    have hsome : (finalClose .final false (atZero s)).ct.finalRecord.isSome = true := by
      rw [Option.isSome_iff_ne_none]
      intro hnone
      rw [hplaced.mpr hnone] at hno
      cases hno
    rw [answerClose_of_some hsome]
    have hzero : (finalClose .final false (atZero s)).sc.commandZero = true := by rw [hsc]
    exact ⟨hclosing, rfl, hzero, hsome⟩
  · intro i hi _
    have hrec : RecordPlaced .final false i s (finalClose .final false (atZero s)) :=
      (finalClose_placed (s := atZero s) .final false hi).before rfl rfl rfl rfl (fun _ => rfl) rfl rfl
    exact hrec.answerClose (finalClose_unstaged (s := atZero s) .final false hi)
  · intro i hi hplace
    obtain ⟨hrs, hheld, hraised⟩ := finalClose_keeps (s := atZero s) .final false hi hplace
    refine ⟨?_, ?_, ?_, (answerClose_tells _).raised_of hraised⟩
    · rw [hct]
      simp only [hpend, hi, hplace]
      rfl
    · rw [(answerClose_touches _).rs_eq, hrs]
      rfl
    · rw [hct]
      exact hheld
  · unfold answerClose
    split
    · rw [sessionEnd_sc, hsc]
      exact ⟨rfl, rfl, rfl, rfl, rfl, rfl, rfl, rfl⟩
    · show (finalClose .final false (atZero s)).sc.record.number = _ ∧ _
      rw [(raiseAll_touches _ _).sc_eq, State.onSc_sc, hsc]
      exact ⟨rfl, rfl, rfl, rfl, rfl, rfl, rfl, rfl⟩

/-- A close asked at P_cmd 0 closes the session as it stood before, where what came before the question changed neither the
accounts, the clock unit nor the store, nor what a close keeps of the session controller. -/
theorem ClosedNow.before {plug : Plug} {s u t : State} {ns : List Notice} {srcs : List Source} (h : ClosedNow plug u t)
    (htells : Tells ns srcs s u) (hea : u.ea = s.ea) (hct : u.ct = s.ct) (hrs : u.rs = s.rs)
    (hrecord : { u.sc.record with pause := s.sc.record.pause, closeReason := s.sc.record.closeReason } = s.sc.record)
    (hlimits : u.sc.limits = s.sc.limits) (hvalidity : u.sc.validity = s.sc.validity)
    (hlockout : u.sc.lockout = s.sc.lockout) : ClosedNow plug s t := by
  obtain ⟨haccrual, hinterval, hcommand, hnotice, hplaced, hwaits, hrec, hkeeps, hkept⟩ := h
  have hnumber : u.sc.record.number = s.sc.record.number := by
    have h := congrArg SessionRecord.number hrecord
    exact h
  have hpayer : u.sc.record.payer = s.sc.record.payer := by
    have h := congrArg SessionRecord.payer hrecord
    exact h
  have hlabel : u.sc.record.label = s.sc.record.label := by
    have h := congrArg SessionRecord.label hrecord
    exact h
  have htime : u.sc.record.openTime = s.sc.record.openTime := by
    have h := congrArg SessionRecord.openTime hrecord
    exact h
  have hoffer : u.sc.record.offer = s.sc.record.offer := by
    have h := congrArg SessionRecord.offer hrecord
    exact h
  have hform (i : Interval) : formRecord .final false i u = formRecord .final false i s :=
    formRecord_congr hnumber hpayer (by rw [hct]) (by rw [hea]) (by rw [hct]) (by rw [hct]) (by rw [hct]) (by rw [hct])
  have hplace : placeable u = placeable s := placeable_congr hrs (by rw [hct])
  have hfinal : finalPlaced u = finalPlaced s := by rw [finalPlaced, finalPlaced, hct, hplace]
  rw [hfinal] at hplaced hwaits
  rw [hct, hplace] at hrec hkeeps
  rw [hrs] at hkeeps
  rw [hnumber, hpayer, hlabel, htime, hoffer, hlimits, hvalidity, hlockout] at hkept
  refine ⟨by rw [haccrual, hea], hinterval, hcommand, hnotice, fun hok => ?_, hwaits, fun i hi hok => ?_,
    fun i hi hok => ?_, hkept⟩
  · obtain ⟨h1, h2, h3, h4, h5, h6, h7, h8⟩ := hplaced hok
    exact ⟨h1, h2, h3, h4, h5, h6, h7, htells.fired_since h8⟩
  · exact (hrec i hi hok).before (hform i) hrs (by rw [hct]) (by rw [hct]) (fun k => by rw [hct]) hpayer htells.vectors
  · obtain ⟨h1, h2, h3, h4⟩ := hkeeps i hi hok
    exact ⟨by rw [h1, hform], h2, h3, h4⟩

end Sys2Proof.Machine

/-! PROOFS. The moves of the session controller that stay within the open states or rest, and the requests and timers that
bring them (R17, R18, R23 to R28, R33, R43 to R45, R142). -/

namespace Sys2Proof.Machine

set_option Elab.async false

/-! ## The passing of time -/

section
variable {s : State}

theorem elapse_sc (hs : s.resetLow = false) (dt : Nat) : (elapse dt s).sc = s.sc.elapse dt := by simp [elapse, hs]
theorem elapse_hc (hs : s.resetLow = false) (dt : Nat) : (elapse dt s).hc = s.hc.elapse dt := by simp [elapse, hs]
theorem elapse_se (hs : s.resetLow = false) (dt : Nat) : (elapse dt s).se = s.se.elapse dt := by simp [elapse, hs]
theorem elapse_im_high (hs : s.resetLow = false) (dt : Nat) : (elapse dt s).im = s.im.elapse dt := by simp [elapse, hs]
theorem elapse_ports (dt : Nat) (s : State) : (elapse dt s).ports = s.ports := (elapse_touches dt s).ports_eq
theorem elapse_rs (dt : Nat) (s : State) : (elapse dt s).rs = s.rs := (elapse_touches dt s).rs_eq
theorem elapse_cfg (dt : Nat) (s : State) : (elapse dt s).cfg = s.cfg := (elapse_touches dt s).cfg_eq

/-- Time tells nothing. -/
theorem elapse_tells (ns : List Notice) (srcs : List Source) (dt : Nat) (s : State) : Tells ns srcs s (elapse dt s) := by
  have hse : (elapse dt s).se.vectors = s.se.vectors ∧ (elapse dt s).se.waiting = s.se.waiting ∧
      (elapse dt s).se.missed = s.se.missed := by
    unfold elapse
    dsimp only
    split <;> exact ⟨rfl, rfl, rfl⟩
  obtain ⟨hv, hw, hm⟩ := hse
  refine ⟨fun p n _ => by rw [elapse_ports], fun p n _ h => by rwa [elapse_ports], hv, fun src _ => ?_, fun src h => ?_⟩
  · rw [NotFired, hw, hm]
    exact ⟨rfl, rfl⟩
  · rwa [hw]

theorem latestVBus_elapse (hs : s.resetLow = false) (dt : Nat) : latestVBus (elapse dt s) = latestVBus s := by
  simp [latestVBus, elapse_fe hs, FrontEnd.elapse]

end

/-! ## The allowance recomputed (R43) -/

theorem recomputeNow_aH {s t : State} (hv : latestVBus s = latestVBus t) (u : State) (hu : recomputeNow s = u) :
    u.pc.aH = allowanceOf (latestVBus t) u := by
  rw [← hu, recomputeNow, recompute_pc, hv]
  exact (allowanceOf_congr _ (recompute_touches _ _).sc_eq (by rw [recompute_pc]) (by rw [recompute_pc])
    (recompute_touches _ _).cfg_eq).symm

theorem recomputeNow_tells (ns : List Notice) (srcs : List Source) (s : State) : Tells ns srcs s (recomputeNow s) :=
  .of_touches (recomputeNow_touches s)

/-! ## The hold-reason move (R24) -/

/-- The state the hold-reason set gives where a member comes or goes. -/
def heldState (c : Session) : SessionState :=
  match c.state with
  | .preheat | .charging => if c.hold.any then .hold else c.state
  | .hold => if c.hold.any then .hold else poweredState c
  | .unplugged | .connected | .verifying | .closing | .lockedOut => c.state

theorem holdMove_eq (s : State) : holdMove s = setState (heldState s.sc) s := by
  unfold holdMove heldState
  cases h : s.sc.state <;> dsimp only
  case preheat | charging =>
    split
    · rfl
    · exact (setState_same h).symm
  case hold =>
    split
    · exact (setState_same h).symm
    · rfl
  all_goals exact (setState_same h).symm

theorem poweredState_open (c : Session) : (poweredState c).isOpen = true := (poweredState_ne c).2

/-- The move stays within the open states. -/
theorem heldState_within (c : Session) : c.state.isOpen = false ∨ (heldState c).isOpen = true := by
  unfold heldState
  cases h : c.state
  case preheat | charging =>
    right
    dsimp only
    split <;> rfl
  case hold =>
    right
    dsimp only
    split
    · rfl
    · exact poweredState_open c
  all_goals first | exact .inl rfl | exact .inr rfl

/-- A move into PREHEAT or CHARGING, or back to the state held, keeps the command; into HOLD it is 0 (R45). -/
theorem setState_pCmd_held {x : SessionState} {s : State} (hx : x = .hold ∨ x = .preheat ∨ x = .charging ∨ x = s.sc.state) :
    (setState x s).pc.pCmd = if x = .hold ∧ s.sc.state ≠ .hold then 0 else s.pc.pCmd := by
  rw [setState_pCmd]
  by_cases hsame : s.sc.state = x
  · rw [if_pos hsame, if_neg]
    rintro ⟨h1, h2⟩
    exact h2 (hsame.trans h1)
  · rw [if_neg hsame]
    rcases hx with rfl | rfl | rfl | rfl
    · exact (if_pos ⟨rfl, hsame⟩).symm
    · rfl
    · rfl
    · exact absurd rfl hsame

theorem heldState_cases (c : Session) :
    heldState c = .hold ∨ heldState c = .preheat ∨ heldState c = .charging ∨ heldState c = c.state := by
  unfold heldState
  cases h : c.state <;> dsimp only
  case hold =>
    split
    · exact .inl rfl
    · unfold poweredState
      split
      · exact .inr (.inr (.inl rfl))
      · exact .inr (.inl rfl)
  case preheat | charging =>
    split
    · exact .inl rfl
    · exact .inr (.inr (.inr rfl))
  all_goals exact .inr (.inr (.inr rfl))

theorem heldState_eq (c : Session) : heldState c =
    if c.state = .hold ∧ c.hold.any = false then (if c.gate then .charging else .preheat)
    else if (c.state = .preheat ∨ c.state = .charging) ∧ c.hold.any = true then .hold
    else c.state := by
  unfold heldState poweredState
  cases h : c.state <;> cases hany : c.hold.any <;> simp

section
variable (s : State)

theorem holdMove_sc : (holdMove s).sc = { s.sc with state := heldState s.sc } := by rw [holdMove_eq, setState_sc]

theorem holdMove_pCmd :
    (holdMove s).pc.pCmd = if heldState s.sc = .hold ∧ s.sc.state ≠ .hold then 0 else s.pc.pCmd := by
  rw [holdMove_eq, setState_pCmd_held (heldState_cases _)]

theorem holdMove_tells : Tells [.session, .capture] [.stateChanged] s (holdMove s) := by
  rw [holdMove_eq]
  exact setState_tells_within (heldState_within _)

theorem holdMove_moved (h : heldState s.sc ≠ s.sc.state) :
    Raised .session (holdMove s) ∧ Fired .stateChanged s (holdMove s) := by
  rw [holdMove_eq]
  exact ⟨setState_raised (Ne.symm h), setState_fired (Ne.symm h)⟩

theorem holdMove_within : Touches [.sc, .pc, .hc, .ports, .se, .free] s (holdMove s) := by
  have hct : (holdMove s).ct = s.ct := by rw [holdMove_eq, setState_ct_within (heldState_within _)]
  intro b hb
  by_cases h : b = .ct
  · subst h
    exact hct
  · exact holdMove_touches s b (by cases b <;> simp_all [moveBlocks])

end

/-! ## LIMITS (R17, R18) -/

theorem clampedStatus (c : Bool) (s : State) : accept c s = ⟨s, if c then .clamped else .ok, []⟩ := rfl

/-- The state in which an accepted LIMITS record makes the hold-reason move. -/
def limitsStored (l : LimitsRecord) (s : State) : State :=
  setStale false (if s.sc.limits = some l then s.onSc fun c => { c with limits := some l, validity := some 2000 }
    else occur .limitsChanged (s.onSc fun c => { c with limits := some l, validity := some 2000 }))

theorem storeLimits_eq (l : LimitsRecord) (s : State) :
    storeLimits l s = recomputeNow (holdMove (limitsStored l s)) := rfl

section
variable (l : LimitsRecord) (s : State)

theorem limitsStored_touches : Touches (.sc :: signals) s (limitsStored l s) := by
  have h : Touches (.sc :: signals) s (s.onSc fun c => { c with limits := some l, validity := some 2000 }) :=
    (onSc_touches s _).mono
  exact (Touches.ite h (h.step (occur_touches _ _))).step (onSc_touches _ _)

theorem limitsStored_sc : (limitsStored l s).sc = { s.sc with
    limits := some l
    validity := some 2000
    hold := if s.sc.state.isOpen then { s.sc.hold with limitsStale := false } else s.sc.hold } := by
  have hsc : (if s.sc.limits = some l then s.onSc fun c => { c with limits := some l, validity := some 2000 }
      else occur .limitsChanged (s.onSc fun c => { c with limits := some l, validity := some 2000 })).sc =
      { s.sc with limits := some l, validity := some 2000 } := by
    split
    · rfl
    · rw [(occur_touches _ _).sc_eq, State.onSc_sc]
  unfold limitsStored setStale
  rw [State.onSc_sc, hsc]
  dsimp only
  split <;> rfl

theorem limitsStored_tells_same (h : s.sc.limits = some l) : Tells [] [] s (limitsStored l s) := by
  unfold limitsStored
  rw [if_pos h]
  exact (Tells.of_touches (onSc_touches s _)).silent (onSc_touches _ _)

theorem limitsStored_tells : Tells [.capture] [.limitsChanged] s (limitsStored l s) := by
  unfold limitsStored
  have h : Tells [.capture] [.limitsChanged] s (s.onSc fun c => { c with limits := some l, validity := some 2000 }) :=
    .of_touches (onSc_touches s _)
  exact (Tells.ite h (h.step (occur_tells _ _))).silent (onSc_touches _ _)

theorem limitsStored_fired (h : s.sc.limits ≠ some l) : Fired .limitsChanged s (limitsStored l s) := by
  unfold limitsStored
  rw [if_neg h]
  have hfirst : Tells [] [] s (s.onSc fun c => { c with limits := some l, validity := some 2000 }) :=
    .of_touches (onSc_touches s _)
  exact (Tells.of_touches (ns := []) (srcs := []) (onSc_touches _ _)).fired_of (hfirst.fired_since (occur_fired _ _))

end

/-- The state in which a stale LIMITS record makes the hold-reason move. -/
def limitsGone (s : State) : State := setStale true (raiseAll .limitsStale (s.onSc fun c => { c with validity := none }))

theorem limitsExpire_eq (s : State) : limitsExpire s = recomputeNow (holdMove (limitsGone s)) := rfl

section
variable (s : State)

theorem limitsGone_touches : Touches [.sc, .ports] s (limitsGone s) :=
  (((onSc_touches s _).mono).step (raiseAll_touches _ _)).step (onSc_touches _ _)

theorem limitsGone_sc : (limitsGone s).sc = { s.sc with
    validity := none
    hold := if s.sc.state.isOpen then { s.sc.hold with limitsStale := true } else s.sc.hold } := by
  show (if s.sc.state.isOpen then _ else _) = _
  split <;> rfl

theorem limitsGone_tells : Tells [.limitsStale] [] s (limitsGone s) :=
  ((Tells.of_touches (onSc_touches s _)).step (raiseAll_tells _ _)).silent (onSc_touches _ _)

theorem limitsGone_raised : Raised .limitsStale (limitsGone s) :=
  (Tells.of_touches (ns := []) (srcs := []) (onSc_touches _ _)).raised_of (raiseAll_raised _ _)

end

/-- A LIMITS_STALE reason holds a session in HOLD. -/
theorem heldState_stale (c : Session) (h : c.state.isOpen = true → c.hold.limitsStale = true) :
    heldState c = if c.state = .preheat ∨ c.state = .charging then .hold else c.state := by
  have hany (hopen : c.state.isOpen = true) : c.hold.any = true := by simp [HoldSet.any, h hopen]
  unfold heldState
  cases hstate : c.state
  case preheat | charging | hold => simp [hany (by rw [hstate]; rfl)]
  all_goals rfl

theorem limitsClamped_iff (b : List Byte) :
    (if limitsClamped b then Status.clamped else .ok) =
      if limitsOf b = ⟨u16 b 0, u16 b 2, s16 b 4, u16 b 6⟩ then .ok else .clamped := by
  unfold limitsClamped
  by_cases h : limitsOf b = ⟨u16 b 0, u16 b 2, s16 b 4, u16 b 6⟩ <;> simp [h]

/-- Settles O13. -/
theorem limitsAreStoredValidAndGrowStale : Obligations.LimitsAreStoredValidAndGrowStale := by
  refine ⟨fun b s hs hb => ?_, fun s h => ?_, fun s dt hs hrun => ?_⟩
  · intro s0 l st hold
    have hlen : lengthOk .limits b = true := beq_iff_eq.mpr hb
    have hsc : (limitsStored l s0).sc = { s.sc with limits := some l, validity := some 2000, hold := hold } := by
      rw [limitsStored_sc, found_sc]
    have htsc : (storeLimits l s0).sc = { s.sc with
        limits := some l, validity := some 2000, hold := hold, state := heldState (limitsStored l s0).sc } := by
      rw [storeLimits_eq, (recomputeNow_touches _).sc_eq, holdMove_sc, hsc]
    have htells : Tells [.session, .capture] [.limitsChanged, .stateChanged] s0 (storeLimits l s0) := by
      rw [storeLimits_eq]
      exact (((limitsStored_tells l s0).mono).step (holdMove_tells _)).trans (recomputeNow_tells _ _ _)
    have hheld : heldState (limitsStored l s0).sc =
        if s.sc.state = .hold ∧ hold.any = false then (if s.sc.gate then .charging else .preheat)
        else if (s.sc.state = .preheat ∨ s.sc.state = .charging) ∧ hold.any = true then .hold
        else s.sc.state := by rw [heldState_eq, hsc]
    have hbus : latestVBus (holdMove (limitsStored l s0)) = latestVBus s :=
      latestVBus_congr (((holdMove_touches _).fe_eq).trans (((limitsStored_touches l s0).fe_eq).trans (found_fe _ _)))
    have hafter : Tells [.session, .capture] [.stateChanged] (limitsStored l s0) (storeLimits l s0) := by
      rw [storeLimits_eq]
      exact (holdMove_tells _).trans (recomputeNow_tells _ _ _)
    refine ⟨storeLimits l s0, ?_, ?_, fun hne => ?_, fun heq => ?_, ?_, ?_, fun hmoves => ?_, htells.flags, ?_⟩
    · refine congrArg Host.Outcome.next (request_answered hs hlen rfl ?_)
      rw [clampedStatus, limitsClamped_iff]
      rfl
    · rw [htsc, hheld]
    · refine (hafter.fired_of (limitsStored_fired l s0 ?_)).of_se (found_se _ _)
      rwa [found_sc]
    · have hsame : Tells [.session, .capture] [.stateChanged] s0 (storeLimits l s0) :=
        ((limitsStored_tells_same l s0 (by rwa [found_sc])).mono).trans hafter
      exact (hsame.still _ (by decide)).of_se (found_se _ _)
    · rw [recomputeNow_aH hbus (storeLimits l s0) rfl]
    · rw [htsc, storeLimits_eq, recomputeNow, recompute_pc]
      dsimp only
      rw [holdMove_pCmd, (limitsStored_touches l s0).pc_eq, found_pc, hsc]
    · rw [htsc] at hmoves
      have hmove : heldState (limitsStored l s0).sc ≠ (limitsStored l s0).sc.state := by
        rw [hsc] at hmoves ⊢
        exact hmoves
      obtain ⟨h1, h2⟩ := holdMove_moved (limitsStored l s0) hmove
      have hrec := recomputeNow_tells [] [] (holdMove (limitsStored l s0))
      exact ⟨hrec.raised_of h1, ((limitsStored_tells l s0).fired_since (hrec.fired_of h2)).of_se (found_se _ _)⟩
    · have h1 : Touches [.sc, .pc, .hc, .se, .ports, .free] s s0 := (found_frame _ s).mono
      rw [storeLimits_eq]
      exact ((h1.step (limitsStored_touches l s0)).step (holdMove_within _)).step (recomputeNow_touches _)
  · show Host.Outcome.next (atEnd s.sc.validity limitsExpire s) = _
    rw [h, atEnd_none]
  · intro u
    have husc : u.sc = s.sc.elapse dt := elapse_sc hs dt
    have hgone : (limitsGone u).sc = { u.sc with
        validity := none
        hold := if s.sc.state.isOpen then { s.sc.hold with limitsStale := true } else s.sc.hold } := by
      rw [limitsGone_sc, husc]
      rfl
    have hheld : heldState (limitsGone u).sc =
        if s.sc.state = .preheat ∨ s.sc.state = .charging then .hold else s.sc.state := by
      rw [heldState_stale, hgone, husc]
      · rfl
      · rw [hgone, husc]
        intro hopen
        exact congrArg HoldSet.limitsStale (if_pos hopen)
    have htsc : (limitsExpire u).sc = { u.sc with
        validity := none
        hold := if s.sc.state.isOpen then { s.sc.hold with limitsStale := true } else s.sc.hold
        state := if s.sc.state = .preheat ∨ s.sc.state = .charging then .hold else s.sc.state } := by
      rw [limitsExpire_eq, (recomputeNow_touches _).sc_eq, holdMove_sc, hheld, hgone]
    have hbus : latestVBus (holdMove (limitsGone u)) = latestVBus s :=
      (latestVBus_congr (((holdMove_touches _).fe_eq).trans ((limitsGone_touches u).fe_eq))).trans
        (latestVBus_elapse hs dt)
    have hrec := recomputeNow_tells [.limitsStale, .session, .capture] [.stateChanged] (holdMove (limitsGone u))
    have hafter : Tells [.limitsStale, .session, .capture] [.stateChanged] (limitsGone u) (limitsExpire u) := by
      rw [limitsExpire_eq]
      exact ((holdMove_tells _).mono).trans hrec
    refine ⟨limitsExpire u, ?_, htsc, ?_, ?_, hafter.raised_of (limitsGone_raised u), ?_,
      recomputeNow_aH hbus (limitsExpire u) rfl, ?_, ?_⟩
    · show Host.Outcome.next (atEnd s.sc.validity limitsExpire s) = _
      rw [hrun, atEnd_high hs]
    · rw [htsc, husc]
      rfl
    · rw [htsc]
      rfl
    · rw [limitsExpire_eq, recomputeNow, recompute_pc]
      dsimp only
      rw [holdMove_pCmd, (limitsGone_touches u).pc_eq, hheld, hgone, husc, elapse_pc hs]
      show (if _ ∧ s.sc.state ≠ .hold then 0 else s.pc.pCmd) = _
      by_cases hpow : s.sc.state = .preheat ∨ s.sc.state = .charging
      · rcases hpow with hpow | hpow <;> simp [hpow]
      · simp [hpow]
    · exact ((elapse_tells _ [.stateChanged] dt s).trans (((limitsGone_tells u).mono).trans hafter)).flags
    · rw [limitsExpire_eq]
      exact (((limitsGone_touches u).mono).step (holdMove_within _)).step (recomputeNow_touches _)

end Sys2Proof.Machine

/-! PROOFS. Closing a session, the offer and the pause, the release from lockout and the pending records (R23, R25 to R29,
R33, R44, R46, R142). -/

namespace Sys2Proof.Machine

set_option Elab.async false

/-! ## Entry into CLOSING (R28) -/

/-- The session controller as it enters CLOSING with a reason. -/
def closingFor (r : CloseReason) (s : State) : State :=
  s.onSc fun c => { c with verify := none, record := { c.record with closeReason := r } }

theorem enterClosing_eq (r : CloseReason) (s : State) :
    enterClosing r s = commandZeroReached (setState .closing (closingFor r s)) := rfl

/-- What the answer to the last close request leaves of the session controller. -/
theorem answerClose_sc (s : State) : (answerClose s).sc =
    if s.ct.finalRecord.isNone then
      { s.sc with
        state := if s.sc.state = .closing then restingState s.sc else s.sc.state
        hold := .empty
        gate := false
        commandZero := false
        finalPending := false
        record := { s.sc.record with pause := false } }
    else { s.sc with finalPending := true } := by
  unfold answerClose
  split
  · exact sessionEnd_sc s
  · rfl

/-- Neither the reason of the close nor the verification timer nor the mark of a plug loss changes when the final close is
asked. -/
theorem commandZeroReached_keeps (s : State) :
    (commandZeroReached s).sc.record.closeReason = s.sc.record.closeReason ∧
      (commandZeroReached s).sc.verify = s.sc.verify ∧ (commandZeroReached s).sc.lossNow = s.sc.lossNow ∧
      (commandZeroReached s).sc.plug = s.sc.plug ∧ (commandZeroReached s).sc.plugCount = s.sc.plugCount := by
  unfold commandZeroReached
  split
  · have hsc : (finalClose .final false (atZero s)).sc = { s.sc with commandZero := true } :=
      (finalClose_touches .final false (atZero s)).sc_eq
    show (answerClose (finalClose .final false (atZero s))).sc.record.closeReason = _ ∧ _
    rw [show (answerClose (finalClose .final false (s.onSc fun c => { c with commandZero := true }))) =
      answerClose (finalClose .final false (atZero s)) from rfl, answerClose_sc, hsc]
    split <;> exact ⟨rfl, rfl, rfl, rfl, rfl⟩
  · exact ⟨rfl, rfl, rfl, rfl, rfl⟩

section
variable {r : CloseReason} {s : State}

/-- CLOSING entered, before the command is looked at. -/
theorem closing_sc : (setState .closing (closingFor r s)).sc =
    { s.sc with state := .closing, verify := none, record := { s.sc.record with closeReason := r } } := by
  rw [setState_sc]
  rfl

theorem closing_tells : Tells [.session, .capture] [.stateChanged] s (setState .closing (closingFor r s)) :=
  (Tells.of_touches (onSc_touches s _)).trans (setState_tells_within (.inr rfl))

theorem closing_within : Touches [.sc, .pc, .hc, .ports, .se, .free] s (setState .closing (closingFor r s)) := by
  have hframe : Touches moveBlocks s (setState .closing (closingFor r s)) :=
    ((onSc_touches s _).mono).step (setState_touches _ _)
  have hct : (setState .closing (closingFor r s)).ct = s.ct := setState_ct_within (s := closingFor r s) (.inr rfl)
  intro b hb
  by_cases h : b = .ct
  · subst h
    exact hct
  · exact hframe b (by cases b <;> simp_all [moveBlocks])

end

section
variable {r : CloseReason} {s : State} (hopen : s.sc.state = .verifying ∨ s.sc.state = .preheat ∨
  s.sc.state = .charging ∨ s.sc.state = .hold)
include hopen

theorem closingFor_ne : (closingFor r s).sc.state ≠ .closing := by
  rcases hopen with h | h | h | h <;> simp [closingFor, h]

theorem closing_pCmd : (setState .closing (closingFor r s)).pc.pCmd = if r = .unplugged then 0 else s.pc.pCmd := by
  rw [setState_pCmd, if_neg (closingFor_ne hopen)]
  cases r <;> rfl

theorem closing_moved : Raised .session (setState .closing (closingFor r s)) ∧
    Fired .stateChanged s (setState .closing (closingFor r s)) := by
  have hfirst : Tells [] [] s (closingFor r s) := .of_touches (onSc_touches s _)
  exact ⟨setState_raised (closingFor_ne hopen), hfirst.fired_since (setState_fired (closingFor_ne hopen))⟩

/-- A close that leaves P_cmd at 0 asks the final close at once (R28). -/
theorem enterClosing_closed (hzero : r = .unplugged ∨ s.pc.pCmd = 0) (hflag : s.sc.commandZero = false) :
    (enterClosing r s).sc.record.closeReason = r ∧ (enterClosing r s).sc.verify = none ∧
      ClosedNow s.sc.plug s (enterClosing r s) := by
  have hsc := closing_sc (r := r) (s := s)
  have hpc : (setState .closing (closingFor r s)).pc.pCmd = 0 := by
    rw [closing_pCmd hopen]
    split
    · rfl
    · next h => exact hzero.resolve_left h
  have hframe := closing_within (r := r) (s := s)
  obtain ⟨hreason, hverify, -⟩ := commandZeroReached_keeps (setState .closing (closingFor r s))
  have hclosed := commandZeroReached_closed (s := setState .closing (closingFor r s)) (by rw [hsc]) hpc
    (by rw [hsc]; exact hflag)
  rw [enterClosing_eq]
  refine ⟨hreason.trans (by rw [hsc]), hverify.trans (by rw [hsc]), ?_⟩
  have hplug : (setState .closing (closingFor r s)).sc.plug = s.sc.plug := by rw [hsc]
  rw [hplug] at hclosed
  exact hclosed.before (closing_tells) hframe.ea_eq hframe.ct_eq hframe.rs_eq (by rw [hsc]) (by rw [hsc])
    (by rw [hsc]) (by rw [hsc])

/-- A close above 0 only enters CLOSING (R28). -/
theorem enterClosing_above (hr : r ≠ .unplugged) (hp : 0 < s.pc.pCmd) :
    enterClosing r s = setState .closing (closingFor r s) := by
  have hcommand := closing_pCmd (r := r) hopen
  rw [if_neg hr] at hcommand
  exact commandZeroReached_of_not (.inr (.inl (by rw [← closingFor, hcommand]; omega)))

end

/-! ## VERIFICATION_TIMER_EXPIRY and SESSION_CLOSE (R23, R27) -/

theorem exec_sessionClose {s t : State} {x : Status} (hs : s.resetLow = false)
    (h : answerSessionClose (found .c s) = ⟨t, x, []⟩) :
    exec (.sessionClose .c []) s = .next (replies .c .sessionClose x [] (takeReports (found .c s) t)) :=
  congrArg Host.Outcome.next (request_answered hs rfl rfl h)

theorem answerSessionClose_closes {s : State} (h : s.sc.state = .verifying ∨ s.sc.state = .preheat ∨
    s.sc.state = .charging ∨ s.sc.state = .hold) :
    answerSessionClose s = ⟨enterClosing .requested s, .ok, []⟩ := by
  rcases h with h | h | h | h <;> simp [answerSessionClose, h, accept]

/-- Settles O16. -/
theorem closingWaitsForTheCommandToReachZero : Obligations.ClosingWaitsForTheCommandToReachZero := by
  refine ⟨fun s h => ?_, fun s dt hs hver hrun hflag hp => ?_, fun s hs => ⟨fun hopen => ⟨fun hp hflag => ?_,
    fun hp => ?_⟩, fun hclosing => ?_, fun hclosed => ?_⟩⟩
  · show Host.Outcome.next (atEnd (if s.sc.state = .verifying then s.sc.verify else none) _ s) = _
    rcases h with h | h
    · rw [if_neg h, atEnd_none]
    · rw [h, ite_self, atEnd_none]
  · intro u
    have husc : u.sc = s.sc.elapse dt := elapse_sc hs dt
    have hstate : u.sc.state = .verifying := by rw [husc]; exact hver
    have hup : u.pc.pCmd = 0 := by rw [elapse_pc hs]; exact hp
    obtain ⟨h1, h2, h3⟩ := enterClosing_closed (r := .verifyTimeout) (.inl hstate) (.inr hup)
      (by rw [husc]; exact hflag)
    have hplug : u.sc.plug = s.sc.plug := by rw [husc]; rfl
    refine ⟨enterClosing .verifyTimeout u, ?_, h1, h2, hplug ▸ h3⟩
    show Host.Outcome.next (atEnd (if s.sc.state = .verifying then s.sc.verify else none) _ s) = _
    rw [if_pos hver, hrun, atEnd_high hs]
  · have hfound : (found .c s).sc = s.sc := found_sc _ _
    obtain ⟨h1, h2, h3⟩ := enterClosing_closed (r := .requested) (s := found .c s) (by rw [hfound]; exact hopen)
      (.inr (by rw [found_pc]; exact hp)) (by rw [hfound]; exact hflag)
    rw [hfound] at h3
    exact ⟨_, exec_sessionClose hs (answerSessionClose_closes (by rw [hfound]; exact hopen)), h1, h2, h3⟩
  · have hopen' : (found .c s).sc.state = .verifying ∨ (found .c s).sc.state = .preheat ∨
        (found .c s).sc.state = .charging ∨ (found .c s).sc.state = .hold := by rw [found_sc]; exact hopen
    have hp' : 0 < (found .c s).pc.pCmd := by rw [found_pc]; exact hp
    have heq := enterClosing_above (r := .requested) hopen' (by simp) hp'
    obtain ⟨hraised, hfired⟩ := closing_moved (r := .requested) hopen'
    refine ⟨_, exec_sessionClose hs (answerSessionClose_closes hopen'), ?_⟩
    rw [heq]
    refine ⟨by rw [closing_sc, found_sc], ?_, hraised, hfired.of_se (found_se _ _), (closing_tells).flags,
      closing_within⟩
    rw [closing_pCmd hopen', found_pc]
    rfl
  · refine congrArg Host.Outcome.next (request_of_answer_unchanged hs rfl rfl ?_)
    simp [answerSessionClose, found_sc, hclosing, accept]
  · refine congrArg Host.Outcome.next (request_of_answer_unchanged hs rfl rfl ?_)
    rcases hclosed with h | h | h <;> simp only [answerSessionClose, found_sc, h, accept, refuse] <;> split <;> rfl

/-! ## The limit update (R44) -/

/-- The stages recomputed and the command lowered to both limits in whole tens (R44). -/
def limited (s : State) : State :=
  setCommand (quantise (min s.pc.pCmd (min (lStationOf s) (lObcOf s)))) (recomputeNow s)

theorem limited_touches (s : State) : Touches [.pc, .hc] s (limited s) :=
  (recomputeNow_touches s).trans ((setCommand_touches _ _).mono)

theorem limited_pCmd (s : State) : (limited s).pc.pCmd = quantise (min s.pc.pCmd (min (lStationOf s) (lObcOf s))) := rfl

theorem limited_aH (s : State) : (limited s).pc.aH = allowanceOf (latestVBus s) (limited s) := by
  have h : (limited s).pc.aH = allowanceOf (latestVBus s) (recomputeNow s) := recomputeNow_aH rfl (recomputeNow s) rfl
  rw [h]
  exact allowanceOf_congr _ rfl rfl rfl rfl

theorem limitUpdate_limits {s : State} (h : s.sc.state = .preheat ∨ s.sc.state = .charging ∨ s.sc.state = .closing) :
    limitUpdate s = commandZeroReached (limited s) := by
  have hsc : (recomputeNow s).sc = s.sc := (recomputeNow_touches s).sc_eq
  have hpc : (recomputeNow s).pc.pCmd = s.pc.pCmd ∧ (recomputeNow s).pc.lStation = lStationOf s ∧
      (recomputeNow s).pc.lObc = lObcOf s := by
    rw [recomputeNow, recompute_pc]
    exact ⟨rfl, rfl, rfl⟩
  obtain ⟨h1, h2, h3⟩ := hpc
  unfold limitUpdate
  dsimp only
  rw [hsc, h1, h2, h3]
  rcases h with h | h | h <;> rw [h] <;> rfl

theorem limitUpdate_recomputes {s : State} (h1 : s.sc.state ≠ .preheat) (h2 : s.sc.state ≠ .charging)
    (h3 : s.sc.state ≠ .closing) : limitUpdate s = recomputeNow s := by
  have hsc : (recomputeNow s).sc = s.sc := (recomputeNow_touches s).sc_eq
  unfold limitUpdate
  dsimp only
  rw [hsc]
  cases h : s.sc.state <;> first | rfl | exact absurd h h1 | exact absurd h h2 | exact absurd h h3

/-- A limit update that does not ask the final close: the command is the least of itself and both limits in tens where it is
limited at all. -/
theorem limitUpdate_still {s : State} (hopen : s.sc.state.isOpen = true)
    (h : s.sc.state ≠ .closing ∨ 0 < (limited s).pc.pCmd ∨ s.sc.commandZero = true) :
    Touches [.pc, .hc] s (limitUpdate s) ∧ (limitUpdate s).pc.aH = allowanceOf (latestVBus s) (limitUpdate s) ∧
      (limitUpdate s).pc.pCmd =
        if s.sc.state = .verifying ∨ s.sc.state = .hold then s.pc.pCmd else (limited s).pc.pCmd := by
  have hsc : (limited s).sc = s.sc := (limited_touches s).sc_eq
  by_cases hlim : s.sc.state = .preheat ∨ s.sc.state = .charging ∨ s.sc.state = .closing
  · have hstay : commandZeroReached (limited s) = limited s := by
      refine commandZeroReached_of_not ?_
      rw [hsc]
      rcases h with h | h | h
      · exact .inl h
      · exact .inr (.inl (by omega))
      · exact .inr (.inr h)
    rw [limitUpdate_limits hlim, hstay]
    refine ⟨limited_touches s, limited_aH s, ?_⟩
    rw [if_neg]
    rcases hlim with hlim | hlim | hlim <;> simp [hlim]
  · have hother : s.sc.state = .verifying ∨ s.sc.state = .hold := by
      cases hst : s.sc.state <;> simp_all [SessionState.isOpen]
    have heq : limitUpdate s = recomputeNow s :=
      limitUpdate_recomputes (fun h => hlim (.inl h)) (fun h => hlim (.inr (.inl h))) (fun h => hlim (.inr (.inr h)))
    rw [heq, if_pos hother]
    exact ⟨recomputeNow_touches s, recomputeNow_aH rfl _ rfl, by rw [recomputeNow, recompute_pc]⟩

theorem limited_tells (ns : List Notice) (srcs : List Source) (s : State) : Tells ns srcs s (limited s) :=
  .of_touches (limited_touches s)

/-- A limit update that leaves CLOSING at 0 asks the final close (R28, R44). -/
theorem limitUpdate_closed {s : State} (h : s.sc.state = .closing) (hp : (limited s).pc.pCmd = 0)
    (hz : s.sc.commandZero = false) : ClosedNow s.sc.plug s (limitUpdate s) := by
  have hframe := limited_touches s
  have hsc : (limited s).sc = s.sc := hframe.sc_eq
  rw [limitUpdate_limits (.inr (.inr h))]
  have hclosed := commandZeroReached_closed (s := limited s) (by rw [hsc, h]) hp (by rw [hsc, hz])
  rw [hsc] at hclosed
  exact hclosed.before (limited_tells [] [] s) hframe.ea_eq hframe.ct_eq hframe.rs_eq (by rw [hsc]) (by rw [hsc])
    (by rw [hsc]) (by rw [hsc])

theorem limitUpdate_tells (s : State) :
    Tells [.session, .stream, .billing, .tariff, .capture]
      [.stateChanged, .tariffApplied, .sessionClosed, .intervalClosed] s (limitUpdate s) := by
  by_cases hlim : s.sc.state = .preheat ∨ s.sc.state = .charging ∨ s.sc.state = .closing
  · rw [limitUpdate_limits hlim]
    exact (limited_tells _ _ s).trans (commandZeroReached_tells _)
  · rw [limitUpdate_recomputes (fun h => hlim (.inl h)) (fun h => hlim (.inr (.inl h))) (fun h => hlim (.inr (.inr h)))]
    exact recomputeNow_tells _ _ s

end Sys2Proof.Machine

/-! PROOFS. OFFER_UPDATE, STATION_PAUSE, LOCKOUT_RELEASE, and the placing of the records that wait (R25, R26, R29, R33, R142). -/

namespace Sys2Proof.Machine

set_option Elab.async false

/-! ## OFFER_UPDATE (R26) -/

/-- A new offer written, with its occurrence (R26). -/
def offerWritten (x : Nat) (s : State) : State :=
  if s.sc.record.offer = x then s.onSc fun c => { c with record := { c.record with offer := x } }
  else occur .offerChanged (s.onSc fun c => { c with record := { c.record with offer := x } })

theorem writeOffer_eq (x : Nat) (s : State) : writeOffer x s = limitUpdate (offerWritten x s) := rfl

section
variable (x : Nat) (s : State)

theorem offerWritten_touches : Touches (.sc :: signals) s (offerWritten x s) := by
  have h : Touches (.sc :: signals) s (s.onSc fun c => { c with record := { c.record with offer := x } }) :=
    (onSc_touches s _).mono
  exact .ite h (h.step (occur_touches _ _))

theorem offerWritten_sc : (offerWritten x s).sc = { s.sc with record := { s.sc.record with offer := x } } := by
  unfold offerWritten
  split
  · rfl
  · rw [(occur_touches _ _).sc_eq, State.onSc_sc]

theorem offerWritten_tells : Tells [.capture] [.offerChanged] s (offerWritten x s) := by
  have h : Tells [.capture] [.offerChanged] s (s.onSc fun c => { c with record := { c.record with offer := x } }) :=
    .of_touches (onSc_touches s _)
  exact .ite h (h.step (occur_tells _ _))

variable {x s}

theorem offerWritten_same (h : s.sc.record.offer = x) : NotFired .offerChanged s (offerWritten x s) := by
  unfold offerWritten
  rw [if_pos h]
  exact ⟨rfl, rfl⟩

theorem offerWritten_fired (h : s.sc.record.offer ≠ x) : Fired .offerChanged s (offerWritten x s) := by
  unfold offerWritten
  rw [if_neg h]
  exact (Tells.of_touches (ns := []) (srcs := []) (onSc_touches s _)).fired_since (occur_fired _ _)

end

theorem lStationOf_offerWritten (x : Nat) (s : State) : lStationOf (offerWritten x s) = x * s.cfg.obcEff / 1024 := by
  rw [lStationOf, offerWritten_sc, (offerWritten_touches x s).cfg_eq]

theorem limited_offerWritten (x : Nat) (s : State) : (limited (offerWritten x s)).pc.pCmd =
    min s.pc.pCmd (min (x * s.cfg.obcEff / 1024) (lObcOf s)) / 10 * 10 := by
  have hobc : lObcOf (offerWritten x s) = lObcOf s :=
    lObcOf_congr (by rw [(offerWritten_touches x s).pc_eq]) (by rw [(offerWritten_touches x s).pc_eq])
      (offerWritten_touches x s).cfg_eq
  rw [limited_pCmd, lStationOf_offerWritten, hobc, (offerWritten_touches x s).pc_eq]
  rfl

theorem answerOffer_open {b : List Byte} {s : State} (h : s.sc.state.isOpen = true) :
    answerOffer b s = ⟨writeOffer (min 22000 (u32 b 0)) s, if 22000 < u32 b 0 then .clamped else .ok, []⟩ := by
  rw [answerOffer, if_pos h, accept]
  refine congrArg₂ _ (if_congr ?_ rfl rfl) rfl
  exact decide_eq_true_iff

theorem answerPause_open {b : List Byte} {s : State} (h : s.sc.state.isOpen = true) :
    answerPause b s = ⟨writePause (flag b 0) s, .ok, []⟩ := if_pos h

theorem flag_eq (b : List Byte) (i : Nat) : flag b i = decide (u8 b i ≠ 0) := by
  unfold flag
  by_cases h : u8 b i = 0 <;> simp [h]

/-- The pause flag and its hold reason written (R24, R25). -/
def pauseWritten (x : Bool) (s : State) : State :=
  s.onSc fun c => { c with record := { c.record with pause := x }, hold := { c.hold with stationPause := x } }

theorem writePause_same {x : Bool} {s : State} (h : s.sc.record.pause = x) : writePause x s = s := if_pos h

theorem writePause_ne {x : Bool} {s : State} (h : s.sc.record.pause ≠ x) :
    writePause x s = holdMove (pauseWritten x s) := if_neg h

/-- Settles O17. -/
theorem offerAndPauseActAtOnce : Obligations.OfferAndPauseActAtOnce := by
  refine ⟨fun b s hs hb => ?_, fun b s hs hb => ?_⟩
  · intro s0 x st p
    have hlen : lengthOk .offerUpdate b = true := beq_iff_eq.mpr hb
    have hbus : latestVBus (offerWritten x s0) = latestVBus s :=
      latestVBus_congr (((offerWritten_touches x s0).fe_eq).trans (found_fe _ _))
    have hlim : (limited (offerWritten x s0)).pc.pCmd = p := by
      have hobc : lObcOf s0 = lObcOf s :=
        lObcOf_congr (by rw [found_pc]) (by rw [found_pc]) (found_cfg _ _)
      rw [limited_offerWritten, hobc, found_pc, found_cfg]
    have hsc : (offerWritten x s0).sc = { s.sc with record := { s.sc.record with offer := x } } := by
      rw [offerWritten_sc, found_sc]
    have hexec (hopen : s.sc.state.isOpen = true) : exec (.offerUpdate .c b) s =
        .next (replies .c .offerUpdate st [] (takeReports s0 (writeOffer x s0))) :=
      congrArg Host.Outcome.next (request_answered hs hlen rfl (answerOffer_open (by rw [found_sc]; exact hopen)))
    have hfired {t : State} (hne : s.sc.record.offer ≠ x)
        (ht : ∃ ns srcs, Tells ns srcs (offerWritten x s0) t) : Fired .offerChanged s t := by
      obtain ⟨ns, srcs, ht⟩ := ht
      exact (ht.fired_of (offerWritten_fired (by rw [found_sc]; exact hne))).of_se (found_se _ _)
    have hstill {t : State} (heq : s.sc.record.offer = x)
        (ht : NotFired .offerChanged (offerWritten x s0) t) : NotFired .offerChanged s t :=
      ((offerWritten_same (by rw [found_sc]; exact heq)).trans ht).of_se (found_se _ _)
    refine ⟨fun hclosed => ?_, fun hopen hno => ?_, fun hclosing hp hz => ?_⟩
    · refine congrArg Host.Outcome.next (request_of_answer_unchanged hs hlen rfl ?_)
      simp [answerOffer, found_sc, hclosed, refuse]
    · obtain ⟨hframe, haH, hpCmd⟩ := limitUpdate_still (s := offerWritten x s0) (by rw [hsc]; exact hopen)
        (by rw [hsc, hlim]; exact hno)
      rw [hlim, hsc, (offerWritten_touches x s0).pc_eq, found_pc] at hpCmd
      have htells : Tells [] [] (offerWritten x s0) (writeOffer x s0) := .of_touches hframe
      refine ⟨writeOffer x s0, hexec hopen, ?_, hpCmd, ?_, fun hne => hfired hne ⟨_, _, htells⟩,
        fun heq => hstill heq (htells.still _ (by decide)), ?_, ?_⟩
      · rw [writeOffer_eq, hframe.sc_eq, hsc]
      · rw [writeOffer_eq, haH, hbus]
      · exact ((offerWritten_tells x s0).step htells).flags
      · rw [writeOffer_eq]
        exact ((offerWritten_touches x s0).mono).step hframe
    · have hopen : s.sc.state.isOpen = true := by rw [hclosing]; rfl
      have hclosed := limitUpdate_closed (s := offerWritten x s0) (by rw [hsc]; exact hclosing) (by rw [hlim, hp])
        (by rw [hsc]; exact hz)
      have htells := limitUpdate_tells (offerWritten x s0)
      refine ⟨writeOffer x s0, hexec hopen, fun hne => hfired hne ⟨_, _, htells⟩,
        fun heq => hstill heq (htells.still _ (by decide)), ?_⟩
      have hplug : (offerWritten x s0).sc.plug = s.sc.plug := by rw [hsc]
      rw [hplug] at hclosed
      have hframe := offerWritten_touches x s0
      have hwrites := offerWritten_tells x s0
      refine hclosed.before (ns := [.capture]) (srcs := [.offerChanged])
        ⟨hwrites.flags, hwrites.raised, hwrites.vectors, hwrites.still, hwrites.kept⟩ hframe.ea_eq hframe.ct_eq
        hframe.rs_eq ?_ ?_ ?_ ?_ <;> rw [offerWritten_sc]
  · intro s0 x hold
    have hlen : lengthOk .stationPause b = true := beq_iff_eq.mpr hb
    have hx : flag b 0 = x := flag_eq b 0
    refine ⟨fun hclosed => ?_, fun hopen hsame => ?_, fun hopen hne => ?_⟩
    · refine congrArg Host.Outcome.next (request_of_answer_unchanged hs hlen rfl ?_)
      simp [answerPause, found_sc, hclosed, refuse]
    · refine congrArg Host.Outcome.next (request_of_answer_unchanged hs hlen rfl ?_)
      rw [answerPause_open (by rw [found_sc]; exact hopen), hx, writePause_same (by rw [found_sc]; exact hsame)]
    · have hwrite : writePause (flag b 0) s0 = holdMove (pauseWritten x s0) := by
        rw [hx, writePause_ne (by rw [found_sc]; exact hne)]
      have hsc : (pauseWritten x s0).sc = { s.sc with record := { s.sc.record with pause := x }, hold := hold } := by
        rw [pauseWritten, State.onSc_sc, found_sc]
      have hheld : heldState (pauseWritten x s0).sc =
          if s.sc.state = .hold ∧ hold.any = false then (if s.sc.gate then .charging else .preheat)
          else if (s.sc.state = .preheat ∨ s.sc.state = .charging) ∧ hold.any = true then .hold
          else s.sc.state := by rw [heldState_eq, hsc]
      have hfirst : Tells [.session, .capture] [.stateChanged] s0 (pauseWritten x s0) := .of_touches (onSc_touches s0 _)
      refine ⟨holdMove (pauseWritten x s0), ?_, ?_, ?_, fun hmoves => ?_, (hfirst.trans (holdMove_tells _)).flags, ?_⟩
      · refine congrArg Host.Outcome.next (request_answered hs hlen rfl ?_)
        rw [answerPause_open (by rw [found_sc]; exact hopen), hwrite]
      · rw [holdMove_sc, hheld, hsc]
      · rw [holdMove_sc, holdMove_pCmd, hsc]
        show (if _ then 0 else s0.pc.pCmd) = _
        rw [found_pc]
      · rw [holdMove_sc] at hmoves
        have hmove : heldState (pauseWritten x s0).sc ≠ (pauseWritten x s0).sc.state := by
          rw [hsc] at hmoves ⊢
          exact hmoves
        obtain ⟨h1, h2⟩ := holdMove_moved (pauseWritten x s0) hmove
        exact ⟨h1, (hfirst.fired_since h2).of_se (found_se _ _)⟩
      · exact ((onSc_touches s0 _).mono).step (holdMove_within _)

/-! ## LOCKOUT_RELEASE (R33) -/

theorem Heater.turnOff_leg (l : ElemState) (k : ElemId) (h : Heater) : (h.turnOff l k).leg = h.leg := by
  unfold turnOff
  split
  · cases k <;> rfl
  · rfl

theorem Heater.allOff_leg (h : Heater) : h.allOff.leg = h.leg := (turnOff_leg _ _ _).trans (turnOff_leg _ _ _)

/-- The fit leaves the leg as it is (R65). -/
theorem Heater.fit_leg (a : Nat) (h : Heater) : (h.fit a).leg = h.leg := by
  unfold fit
  dsimp only
  split
  · rfl
  · split
    · split <;> split <;> simp only [turnOff_leg]
    · exact allOff_leg h

/-- One byte of the wire for a figure that fits it. -/
theorem b1_of_lt {n : Nat} (h : n < 256) : b1 n = [BitVec.ofNat 8 n] := by
  have hmin : min n 255 = n := by omega
  simp [b1, be, hmin]

theorem setSum_five (a b c d : Bool) :
    setSum [false, a, b, c, d] < 32 ∧ (setSum [false, a, b, c, d]).testBit 0 = false ∧
      (setSum [false, a, b, c, d]).testBit 1 = a ∧ (setSum [false, a, b, c, d]).testBit 2 = b ∧
      (setSum [false, a, b, c, d]).testBit 3 = c ∧ (setSum [false, a, b, c, d]).testBit 4 = d := by
  revert a b c d
  decide

section
variable (s : State)

theorem releaseTooHot_iff : releaseTooHot s = true ↔
    ∀ x, s.fe.latest = some x → x.tObc.mark = .missing ∨ (s.cfg.derateTTrip : Int) - 50 ≤ x.tObc.value := by
  unfold releaseTooHot
  cases h : s.fe.latest with
  | none => simp
  | some x => simp

theorem level_unsound_iff (l : Level) : (!l.sound) = true ↔ l ≠ .ok ∧ l ≠ .warning := by
  cases l <;> simp [Level.sound]

theorem faultEntry_iff : (s.im.faults.any fun e => e.kind = .fault) = true ↔ ∃ e ∈ s.im.faults, e.kind = .fault := by
  simp

theorem releaseBlocks_any : (releaseBlocks s).any id = true ↔
    (s.im.level ≠ .ok ∧ s.im.level ≠ .warning) ∨ (∃ e ∈ s.im.faults, e.kind = .fault) ∨
      (∀ x, s.fe.latest = some x → x.tObc.mark = .missing ∨ (s.cfg.derateTTrip : Int) - 50 ≤ x.tObc.value) ∨
      s.sc.finalPending = true := by
  rw [← level_unsound_iff, ← faultEntry_iff, ← releaseTooHot_iff]
  simp [releaseBlocks]

theorem releaseBlocks_found (p : Port) : releaseBlocks (found p s) = releaseBlocks s := by
  simp only [releaseBlocks, releaseTooHot, found_im, found_fe, found_sc, found_cfg]

end

/-- Settles O18. -/
theorem lockoutReleaseNamesWhatBlocksIt : Obligations.LockoutReleaseNamesWhatBlocksIt := by
  intro s hs s0 level entry hot
  have hsc : s0.sc = s.sc := found_sc _ _
  refine ⟨fun h => ?_, fun h hblock => ?_, fun h hlevel hentry hhot hpend => ?_⟩
  · refine congrArg Host.Outcome.next (request_of_answer_unchanged hs rfl rfl ?_)
    rw [answerRelease, if_pos (by rw [found_sc]; exact h)]
    rfl
  · have hany : (releaseBlocks s0).any id = true := by
      rw [releaseBlocks_found, releaseBlocks_any]
      exact hblock
    obtain ⟨h32, h0, h1, h2, h3, h4⟩ := setSum_five (!s.im.level.sound) (s.im.faults.any fun e => e.kind = .fault)
      (releaseTooHot s) s.sc.finalPending
    refine ⟨setSum (false :: releaseBlocks s), ?_, h32, h0, ?_, ?_, ?_, ?_⟩
    · refine congrArg Host.Outcome.next (request_of_answer_unchanged hs rfl rfl ?_)
      have hbyte : b1 (setSum (false :: releaseBlocks s)) = [BitVec.ofNat 8 (setSum (false :: releaseBlocks s))] :=
        b1_of_lt (Nat.lt_trans h32 (by norm_num))
      rw [answerRelease, if_neg (by rw [found_sc]; simp [h]), if_pos hany, releaseBlocks_found, hbyte]
    · rw [releaseBlocks, h1, level_unsound_iff]
    · rw [releaseBlocks, h2, faultEntry_iff]
    · rw [releaseBlocks, h3, releaseTooHot_iff]
    · rw [releaseBlocks, h4]
  · have hany : ¬ (releaseBlocks s0).any id = true := by
      rw [releaseBlocks_found, releaseBlocks_any]
      rintro (h' | h' | h' | h')
      · exact hlevel h'
      · exact hentry h'
      · exact hhot h'
      · rw [hpend] at h'
        cases h'
    have hfirst : Tells [.session, .capture] [.stateChanged] s0 (s0.onSc fun c => { c with lockout := .empty }) :=
      .of_touches (onSc_touches s0 _)
    have hstate : (s0.onSc fun c => { c with lockout := .empty }).sc.state = .lockedOut := by
      rw [State.onSc_sc, hsc]
      exact h
    have hne : (s0.onSc fun c => { c with lockout := .empty }).sc.state ≠ restingState s0.sc := by
      rw [hstate, restingState]
      split <;> simp
    have hclosed : (s0.onSc fun c => { c with lockout := .empty }).sc.state.isOpen = false := by rw [hstate]; rfl
    have hbus : latestVBus (s0.onSc fun c => { c with lockout := .empty }) = latestVBus s :=
      latestVBus_congr (found_fe _ _)
    refine ⟨releaseLockout s0, ?_, ?_, ?_, ?_, ?_, setState_raised hne,
      (hfirst.fired_since (setState_fired hne)).of_se (found_se _ _),
      (hfirst.trans (setState_tells_within (.inl hclosed))).flags, ?_⟩
    · refine congrArg Host.Outcome.next (request_answered hs rfl rfl ?_)
      rw [answerRelease, if_neg (by rw [found_sc]; simp [h]), if_neg hany]
      rfl
    · rw [releaseLockout, setState_sc, State.onSc_sc, hsc]
      rfl
    · rw [releaseLockout, setState_pCmd, if_neg hne, if_neg]
      rw [restingState]
      split <;> simp [keepsCommand]
    · rw [releaseLockout, setState_aH hne, hbus]
    · rw [releaseLockout, setState_heater hne]
      have hhc : (s0.onSc fun c => { c with lockout := .empty }).hc = s.hc := found_hc _ _
      rw [hhc]
      split
      · rfl
      · exact Heater.fit_leg _ _
    · have hct : (releaseLockout s0).ct = s0.ct :=
        setState_ct_within (s := s0.onSc fun c => { c with lockout := .empty }) (.inl hclosed)
      intro blk hblk
      by_cases hblkct : blk = .ct
      · subst hblkct
        exact hct
      · have hframe : Touches moveBlocks s0 (releaseLockout s0) :=
          ((onSc_touches s0 _).mono).step (setState_touches _ _)
        exact hframe blk (by cases blk <;> simp_all [moveBlocks])

/-! ## HELD_RECORD_APPEND and PENDING_FINAL_PLACED (R29, R142) -/

theorem placeFinal_of_some {s : State} {r : BillingRecord} (h : s.ct.finalRecord = some r) (hplace : placeable s = true) :
    placeFinal s = sessionEnd ((placeRecord r s).onCt fun c => { c with finalRecord := none }) := by
  simp [placeFinal, h, hplace]

theorem placeFinal_of_none {s : State} (h : s.ct.finalRecord = none ∨ placeable s = false) : placeFinal s = s := by
  unfold placeFinal
  split
  · rfl
  · next r hr => rcases h with h | h <;> simp_all

theorem appendHeld_of_none {s : State} (h : s.ct.held = none ∨ billingRoom s = false) : appendHeld s = s := by
  unfold appendHeld
  split
  · rfl
  · next r hr => rcases h with h | h <;> simp_all

theorem appendHeld_of_some {s : State} {r : BillingRecord} (h : s.ct.held = some r) (hroom : billingRoom s = true) :
    appendHeld s = { offer .billing (.billing r) s with ct := { s.ct with held := none } } := by
  have hct : (offer .billing (.billing r) s).ct = s.ct := (offer_touches _ _ _).ct_eq
  simp only [appendHeld, h, hroom, if_true, State.onCt, hct]

/-- What the placing of the pending final record leaves (R29, R142). -/
structure FinalPlaced (r : BillingRecord) (s t : State) : Prop where
  taken : t.ct.finalRecord = none
  stream : billingRoom s = true → t.rs = (offer .billing (.billing r) s).rs ∧ t.ct.held = s.ct.held
  slot : billingRoom s = false → s.ct.held = none → t.rs = s.rs ∧ t.ct.held = some r ∧ Raised .billing t
  session : t.sc = { s.sc with
    state := if s.sc.state = .closing then restingState s.sc else s.sc.state
    hold := .empty
    gate := false
    commandZero := false
    finalPending := false
    record := { s.sc.record with pause := false } }
  command : s.sc.state = .closing → t.pc.pCmd = 0
  changed : s.sc.state = .closing → Fired .stateChanged s t
  closed : Raised .session t ∧ Fired .sessionClosed s t
  frame : Touches (.rs :: moveBlocks) s t
  tells : Tells [.stream, .billing, .session, .tariff, .capture] [.stateChanged, .tariffApplied, .sessionClosed] s t

theorem placeFinal_placed {s : State} {r : BillingRecord} (h : s.ct.finalRecord = some r) (hplace : placeable s = true) :
    FinalPlaced r s (placeFinal s) := by
  rw [placeFinal_of_some h hplace]
  have hframe : Touches [.ct, .rs, .ports] s ((placeRecord r s).onCt fun c => { c with finalRecord := none }) :=
    (placeRecord_touches r s).trans ((onCt_touches _ _).mono)
  have htells : Tells [.stream, .billing] [] s ((placeRecord r s).onCt fun c => { c with finalRecord := none }) :=
    (placeRecord_tells r).silent (onCt_touches _ _)
  have hsc := hframe.sc_eq
  have hct := sessionEnd_tablesOnly ((placeRecord r s).onCt fun c => { c with finalRecord := none })
  have hrs : (sessionEnd ((placeRecord r s).onCt fun c => { c with finalRecord := none })).rs = (placeRecord r s).rs :=
    (sessionEnd_touches _).rs_eq
  have hclosing (hc : s.sc.state = .closing) :
      ((placeRecord r s).onCt fun c => { c with finalRecord := none }).sc.state = .closing := by rw [hsc, hc]
  constructor
  · rw [hct]
    rfl
  · intro hroom
    rw [hrs, hct]
    show _ ∧ (placeRecord r s).ct.held = _
    rw [placeRecord_of_room r hroom, (offer_touches _ _ _).ct_eq]
    exact ⟨rfl, rfl⟩
  · intro hroom hheld
    refine ⟨?_, ?_, ?_⟩
    · rw [hrs, placeRecord_of_slot r hroom hheld]
      rfl
    · rw [hct]
      show (placeRecord r s).ct.held = _
      rw [placeRecord_of_slot r hroom hheld]
      rfl
    · refine (sessionEnd_tells _).raised_of ?_
      show Raised .billing (placeRecord r s)
      rw [placeRecord_of_slot r hroom hheld]
      exact raiseAll_raised _ _
  · rw [sessionEnd_sc, hsc]
  · exact fun hc => sessionEnd_pCmd (hclosing hc)
  · exact fun hc => htells.fired_since (sessionEnd_stateChanged (hclosing hc))
  · exact ⟨sessionEnd_raised _, htells.fired_since (sessionEnd_fired _)⟩
  · exact (hframe.mono).step (sessionEnd_touches _)
  · exact (htells.mono).step (sessionEnd_tells _)

/-- Settles O43. -/
theorem heldAndFinalRecordsTakeTheRoom : Obligations.HeldAndFinalRecordsTakeTheRoom := by
  refine ⟨fun s hs => ⟨fun h => ?_, fun r hr hroom => ?_⟩, fun s hs => ⟨fun h => ?_, fun r hr hplace => ?_⟩⟩
  · show Host.Outcome.next (event appendHeld s) = _
    rw [event_high hs, appendHeld_of_none h, takeReports_self]
  · show Host.Outcome.next (event appendHeld s) = _
    rw [event_high hs, takeReports_of_drive_eq (appendHeld_touches s).pc_eq (appendHeld_touches s).hc_eq,
      appendHeld_of_some hr hroom]
  · show Host.Outcome.next (event placeFinal s) = _
    rw [event_high hs, placeFinal_of_none, takeReports_self]
    rcases h with h | h
    · exact .inl h
    · exact .inr ((not_placeable_iff s).mpr h)
  · obtain ⟨htaken, hstream, hslot, hsc, hcommand, hchanged, ⟨hraised, hfired⟩, hframe, -⟩ :=
      placeFinal_placed hr ((placeable_iff s).mpr hplace)
    refine ⟨placeFinal s, ?_, htaken, hstream, fun hroom => hslot hroom ?_, ?_, ?_, ?_, ?_, ?_, ?_,
      fun hc => ⟨hcommand hc, hchanged hc⟩, hraised, hfired, hframe.ea_eq, hframe.im_eq⟩
    · show Host.Outcome.next (event placeFinal s) = _
      rw [event_high hs]
    · exact hplace.resolve_left (by rw [hroom]; simp)
    all_goals rw [hsc]
    all_goals rfl

end Sys2Proof.Machine

/-! PROOFS. The session controller's taking of a sample set, with the transitions of the plug (R14, R15, R22, R24, R28). -/

namespace Sys2Proof.Machine

set_option Elab.async false

/-! ## The values a set updates (R14, R22, R24) -/

/-- The session controller once it has taken the values of a set, before any move. -/
def valuesTaken (x : SampleSet) (s : State) : State := s.onSc fun c => (c.debounce x.plug).takeSet x

theorem scTake_eq (x : SampleSet) (s : State) : scTake x s =
    if debounceChanges x.plug s.sc && plugMoves x.plug (valuesTaken x s).sc.state then
      plugTransition x.plug (valuesTaken x s)
    else sampleMove (valuesTaken x s) := rfl

theorem debounceChanges_iff (l : Plug) (c : Session) :
    debounceChanges l c = true ↔ l ≠ c.plug ∧ 3 ≤ c.plugCount + 1 := by
  simp [debounceChanges]

theorem plugMoves_iff (l : Plug) (x : SessionState) : plugMoves l x = true ↔
    (l = .present ∧ x = .unplugged) ∨ (l = .absent ∧ x ≠ .unplugged ∧ x ≠ .lockedOut) := by
  cases l <;> cases x <;> simp [plugMoves]

theorem debounce_eq (l : Plug) (c : Session) : c.debounce l = { c with
    plug := if l ≠ c.plug ∧ 3 ≤ c.plugCount + 1 then l else c.plug
    plugCount := if l = c.plug ∨ (l ≠ c.plug ∧ 3 ≤ c.plugCount + 1) then 0 else c.plugCount + 1 } := by
  unfold Session.debounce
  by_cases hsame : l = c.plug
  · simp [hsame]
  · by_cases hfull : 3 ≤ c.plugCount + 1 <;> simp [hsame, hfull]

theorem takeSet_eq (x : SampleSet) (c : Session) : c.takeSet x = { c with
    gate := if c.state.isOpen then c.gateAfter x.tPack else c.gate
    hold := if c.state.isOpen then { c.hold with packSensor := x.tPack.mark = .missing, busLow := x.vBus < 500 }
      else c.hold } := by
  unfold Session.takeSet
  split <;> rfl

theorem valuesTaken_sc (x : SampleSet) (s : State) : (valuesTaken x s).sc = { s.sc with
    plug := if x.plug ≠ s.sc.plug ∧ 3 ≤ s.sc.plugCount + 1 then x.plug else s.sc.plug
    plugCount := if x.plug = s.sc.plug ∨ (x.plug ≠ s.sc.plug ∧ 3 ≤ s.sc.plugCount + 1) then 0 else s.sc.plugCount + 1
    gate := if s.sc.state.isOpen then s.sc.gateAfter x.tPack else s.sc.gate
    hold := if s.sc.state.isOpen then { s.sc.hold with packSensor := x.tPack.mark = .missing, busLow := x.vBus < 500 }
      else s.sc.hold } := by
  show (s.sc.debounce x.plug).takeSet x = _
  rw [debounce_eq, takeSet_eq]
  rfl

/-! ## The move of the sampled values (R24) -/

/-- The state the sampled values give, where no transition of the plug is due. -/
def sampledState (c : Session) : SessionState :=
  match c.state with
  | .preheat | .charging | .hold => if c.hold.any then .hold else poweredState c
  | .unplugged | .connected | .verifying | .closing | .lockedOut => c.state

theorem sampleMove_eq (s : State) : sampleMove s = setState (sampledState s.sc) s := by
  unfold sampleMove sampledState
  cases h : s.sc.state <;> dsimp only
  all_goals exact (setState_same h).symm

theorem sampledState_eq (c : Session) : sampledState c =
    if c.state = .preheat ∨ c.state = .charging ∨ c.state = .hold then
      if c.hold.any then .hold else if c.gate then .charging else .preheat
    else c.state := by
  unfold sampledState poweredState
  cases h : c.state <;> simp

theorem sampledState_within (c : Session) : c.state.isOpen = false ∨ (sampledState c).isOpen = true := by
  rw [sampledState_eq]
  split
  · right
    split
    · rfl
    · split <;> rfl
  · cases h : c.state.isOpen
    · exact .inl rfl
    · exact .inr rfl

theorem sampledState_cases (c : Session) : sampledState c = .hold ∨ sampledState c = .preheat ∨
    sampledState c = .charging ∨ sampledState c = c.state := by
  rw [sampledState_eq]
  split
  · split
    · exact .inl rfl
    · split
      · exact .inr (.inr (.inl rfl))
      · exact .inr (.inl rfl)
  · exact .inr (.inr (.inr rfl))

/-- A change of state within the open states leaves accounts, billing and store. -/
theorem setState_within_touches {x : SessionState} {s : State} (h : s.sc.state.isOpen = false ∨ x.isOpen = true) :
    Touches [.sc, .pc, .hc, .ports, .se, .free] s (setState x s) := by
  have hct : (setState x s).ct = s.ct := setState_ct_within h
  intro b hb
  by_cases hb' : b = .ct
  · subst hb'
    exact hct
  · exact setState_touches x s b (by cases b <;> simp_all [moveBlocks])

/-! ## The transitions of the plug (R15, R28) -/

/-- A transition leaves the debounced level and its count. -/
theorem plugTransition_plug (l : Plug) (s : State) :
    (plugTransition l s).sc.plug = s.sc.plug ∧ (plugTransition l s).sc.plugCount = s.sc.plugCount := by
  obtain ⟨b, hq⟩ := plugTransition_quiet l s
  have hsc := congrArg State.sc hq
  have hplug := congrArg Session.plug hsc
  have hcount := congrArg Session.plugCount hsc
  exact ⟨hplug, hcount⟩

theorem exec_scSampleTaking {s : State} {x : SampleSet} (hs : s.resetLow = false) (hx : s.fe.latest = some x)
    (hdue : s.fe.dueSc = true) :
    exec .scSampleTaking s = .next (takeReports s (scTake x (s.onFe FrontEnd.scTook))) := by
  show Host.Outcome.next (taking s.fe.dueSc (fun x u => scTake x (u.onFe FrontEnd.scTook)) s) = _
  rw [hdue, taking_due hs hx]

theorem valuesTaken_touches (x : SampleSet) (s : State) :
    Touches [.fe, .sc] s (valuesTaken x (s.onFe FrontEnd.scTook)) :=
  ((onFe_touches s _).mono).step (onSc_touches _ _)

/-- Settles O11. -/
theorem sampleTakingMovesTheSessionOnce : Obligations.SampleTakingMovesTheSessionOnce := by
  intro s x hs hx hdue full moves gate hold
  have htaken := valuesTaken_sc x (s.onFe FrontEnd.scTook)
  rw [State.onFe_sc] at htaken
  have hframe := valuesTaken_touches x s
  refine ⟨scTake x (s.onFe FrontEnd.scTook), exec_scSampleTaking hs hx hdue, ?_, ?_, fun hno => ?_⟩
  · rw [scTake_eq]
    split
    · rw [(plugTransition_plug _ _).1, htaken]
    · rw [sampleMove_eq, setState_sc, htaken]
  · rw [scTake_eq]
    split
    · rw [(plugTransition_plug _ _).2, htaken]
    · rw [sampleMove_eq, setState_sc, htaken]
  · have hstay : ¬ (debounceChanges x.plug (s.onFe FrontEnd.scTook).sc &&
        plugMoves x.plug (valuesTaken x (s.onFe FrontEnd.scTook)).sc.state) = true := by
      rw [Bool.and_eq_true, debounceChanges_iff, plugMoves_iff, htaken]
      exact hno
    rw [scTake_eq, if_neg hstay, sampleMove_eq]
    have hstate : sampledState (valuesTaken x (s.onFe FrontEnd.scTook)).sc =
        if s.sc.state = .preheat ∨ s.sc.state = .charging ∨ s.sc.state = .hold then
          if hold.any then .hold else if gate then .charging else .preheat
        else s.sc.state := by
      rw [sampledState_eq, htaken]
      by_cases hp : s.sc.state = .preheat ∨ s.sc.state = .charging ∨ s.sc.state = .hold
      · have hopen : s.sc.state.isOpen = true := by rcases hp with h | h | h <;> rw [h] <;> rfl
        simp only [hp, hopen, if_true]
        rfl
      · simp only [hp, if_false]
    refine ⟨?_, ?_, fun hmoved => ?_, fun hsame => ?_⟩
    · rw [setState_sc, hstate, htaken]
      rfl
    · rw [setState_pCmd_held (sampledState_cases _), setState_sc, hframe.pc_eq, htaken]
    · rw [setState_sc] at hmoved
      have hne : (valuesTaken x (s.onFe FrontEnd.scTook)).sc.state ≠
          sampledState (valuesTaken x (s.onFe FrontEnd.scTook)).sc := by
        rw [htaken] at hmoved ⊢
        exact Ne.symm hmoved
      exact ⟨setState_raised hne,
        (Tells.of_touches (ns := []) (srcs := []) hframe).fired_since (setState_fired hne),
        (hframe.mono).step (setState_within_touches (sampledState_within _))⟩
    · rw [setState_sc] at hsame
      rw [setState_same]
      · exact hframe
      · rw [htaken] at hsame ⊢
        exact hsame.symm

/-! ## PLUG_DEBOUNCE_CHANGE (R14, R15) -/

theorem exec_plugDebounceChange (s : State) : exec .plugDebounceChange s =
    if s.fe.latest.any fun x => debounceChanges x.plug s.sc then exec .scSampleTaking s else .next s := by
  show Host.Outcome.next (if s.fe.latest.any (fun x => debounceChanges x.plug s.sc) then scSample s else s) = _
  split <;> rfl

/-- A transition of the plug that closes no session leaves the mark of a plug loss. -/
theorem setState_lossNow (x : SessionState) (s : State) : (setState x s).sc.lossNow = s.sc.lossNow := by
  rw [setState_sc]

/-- A plug loss closes the session at P_cmd 0 (R28). -/
theorem closeOnLoss_closed {s : State} (hopen : s.sc.state = .verifying ∨ s.sc.state = .preheat ∨
    s.sc.state = .charging ∨ s.sc.state = .hold) (hflag : s.sc.commandZero = false) :
    (closeOnLoss s).sc.record.closeReason = .unplugged ∧ (closeOnLoss s).sc.verify = none ∧
      ClosedNow s.sc.plug s (closeOnLoss s) := by
  obtain ⟨h1, h2, h3⟩ := enterClosing_closed (r := .unplugged) (s := s.onSc fun c => { c with lossNow := true })
    hopen (.inl rfl) hflag
  exact ⟨h1, h2, h3.before (Tells.of_touches (ns := []) (srcs := []) (onSc_touches s _)) rfl rfl rfl rfl rfl rfl rfl⟩

theorem closeOnLoss_lossNow (s : State) : (closeOnLoss s).sc.lossNow = true := by
  have h := (commandZeroReached_keeps (setState .closing (closingFor .unplugged
    (s.onSc fun c => { c with lossNow := true })))).2.2.1
  rw [closeOnLoss, enterClosing_eq, h, closing_sc]
  rfl

section
variable {s : State}

theorem plugTransition_present (h : s.sc.state = .unplugged) : plugTransition .present s = setState .connected s := by
  simp only [plugTransition, h]

theorem plugTransition_unplugs (h : s.sc.state = .connected) : plugTransition .absent s = setState .unplugged s := by
  simp only [plugTransition, h]

theorem plugTransition_closes (h : s.sc.state = .verifying ∨ s.sc.state = .preheat ∨ s.sc.state = .charging ∨
    s.sc.state = .hold) : plugTransition .absent s = closeOnLoss s := by
  rcases h with h | h | h | h <;> simp only [plugTransition, h]

theorem plugTransition_closing (h : s.sc.state = .closing) : plugTransition .absent s = setCommand 0 s := by
  simp only [plugTransition, h]

theorem plugTransition_lossNow (l : Plug) : (plugTransition l s).sc.lossNow =
    (s.sc.lossNow || (decide (l = .absent) && s.sc.state.isOpen && s.sc.state != .closing)) := by
  cases l with
  | present =>
    have h : (plugTransition .present s).sc.lossNow = s.sc.lossNow := by
      unfold plugTransition
      cases hst : s.sc.state <;> dsimp only
      exact setState_lossNow _ _
    simp [h]
  | absent =>
    unfold plugTransition
    cases hst : s.sc.state <;> dsimp only
    case connected => simp [SessionState.isOpen]
    case verifying | preheat | charging | hold => simp [closeOnLoss_lossNow, SessionState.isOpen]
    case closing => simp [setCommand]
    all_goals simp [SessionState.isOpen]

end

/-- The end of the debounce: the transition of the plug table, or the move of the sampled values. -/
theorem scTake_full {x : SampleSet} {s : State} (hne : x.plug ≠ s.sc.plug) (hfull : 3 ≤ s.sc.plugCount + 1) :
    scTake x s = if plugMoves x.plug s.sc.state then plugTransition x.plug (valuesTaken x s)
      else sampleMove (valuesTaken x s) := by
  have hstate : (valuesTaken x s).sc.state = s.sc.state := by rw [valuesTaken_sc]
  rw [scTake_eq, hstate, (debounceChanges_iff _ _).mpr ⟨hne, hfull⟩, Bool.true_and]

/-- Settles O12. -/
theorem debouncedPlugChangeActsByState : Obligations.DebouncedPlugChangeActsByState := by
  refine ⟨exec_plugDebounceChange, fun s x hs hx hdue hne hfull => ?_⟩
  have htaken := valuesTaken_sc x (s.onFe FrontEnd.scTook)
  rw [State.onFe_sc] at htaken
  have hframe := valuesTaken_touches x s
  have hfirst : Tells [] [] s (valuesTaken x (s.onFe FrontEnd.scTook)) := .of_touches hframe
  have hstate : (valuesTaken x (s.onFe FrontEnd.scTook)).sc.state = s.sc.state := by rw [htaken]
  have hplug : (valuesTaken x (s.onFe FrontEnd.scTook)).sc.plug = x.plug := by
    rw [htaken]
    exact if_pos ⟨hne, hfull⟩
  have hcount : (valuesTaken x (s.onFe FrontEnd.scTook)).sc.plugCount = 0 := by
    rw [htaken]
    exact if_pos (.inr ⟨hne, hfull⟩)
  have hloss : (valuesTaken x (s.onFe FrontEnd.scTook)).sc.lossNow = s.sc.lossNow := by rw [htaken]
  have hfullTake := scTake_full (s := s.onFe FrontEnd.scTook) hne hfull
  rw [State.onFe_sc] at hfullTake
  have hmoves {l : Plug} (hl : x.plug = l) (h : plugMoves l s.sc.state = true) :
      scTake x (s.onFe FrontEnd.scTook) = plugTransition l (valuesTaken x (s.onFe FrontEnd.scTook)) := by
    rw [hfullTake, hl, if_pos h]
  have hstays {l : Plug} (hl : x.plug = l) (h : plugMoves l s.sc.state = false)
      (hother : sampledState (valuesTaken x (s.onFe FrontEnd.scTook)).sc = s.sc.state) :
      scTake x (s.onFe FrontEnd.scTook) = valuesTaken x (s.onFe FrontEnd.scTook) := by
    rw [hfullTake, hl, if_neg (by simp [h]), sampleMove_eq, setState_same (hstate.trans hother.symm)]
  refine ⟨scTake x (s.onFe FrontEnd.scTook), ?_, ?_, ?_, ?_, fun hpresent => ⟨fun h => ?_, fun h => ?_⟩,
    fun habsent => ⟨fun h => ?_, fun h => ?_, fun h hflag => ?_, fun h => ?_⟩⟩
  · rw [exec_plugDebounceChange, if_pos, exec_scSampleTaking hs hx hdue]
    rw [hx]
    exact (debounceChanges_iff _ _).mpr ⟨hne, hfull⟩
  · rw [hfullTake]
    split
    · rw [(plugTransition_plug _ _).1, hplug]
    · rw [sampleMove_eq, setState_sc]
      exact hplug
  · rw [hfullTake]
    split
    · rw [(plugTransition_plug _ _).2, hcount]
    · rw [sampleMove_eq, setState_sc]
      exact hcount
  · rw [hfullTake]
    split
    · rw [plugTransition_lossNow, hloss, hstate]
    · next hno =>
      rw [sampleMove_eq, setState_lossNow, hloss]
      cases hp : x.plug with
      | present => simp
      | absent =>
        have hclosed : s.sc.state.isOpen = false := by
          cases hst : s.sc.state <;> simp_all [plugMoves, SessionState.isOpen]
        simp [hclosed]
  · rw [hmoves hpresent (by rw [h]; rfl), plugTransition_present (hstate.trans h)]
    have hmove : (valuesTaken x (s.onFe FrontEnd.scTook)).sc.state ≠ .connected := by rw [hstate, h]; simp
    exact ⟨by rw [setState_sc], setState_raised hmove, hfirst.fired_since (setState_fired hmove)⟩
  · rw [hstays hpresent (by rcases h with h | h | h | h <;> rw [h] <;> rfl)
      (by rw [sampledState_eq, hstate, if_neg]; rcases h with h | h | h | h <;> rw [h] <;> simp)]
    exact ⟨hstate, hframe⟩
  · rw [hmoves habsent (by rw [h]; rfl), plugTransition_unplugs (hstate.trans h)]
    have hmove : (valuesTaken x (s.onFe FrontEnd.scTook)).sc.state ≠ .unplugged := by rw [hstate, h]; simp
    exact ⟨by rw [setState_sc], setState_raised hmove, hfirst.fired_since (setState_fired hmove)⟩
  · rw [hstays habsent (by rcases h with h | h <;> rw [h] <;> rfl)
      (by rw [sampledState_eq, hstate, if_neg]; rcases h with h | h <;> rw [h] <;> simp)]
    exact ⟨hstate, hframe⟩
  · rw [hmoves habsent (by rcases h with h | h | h | h <;> rw [h] <;> rfl), plugTransition_closes (by rw [hstate]; exact h)]
    obtain ⟨h1, h2, h3⟩ := closeOnLoss_closed (s := valuesTaken x (s.onFe FrontEnd.scTook)) (by rw [hstate]; exact h)
      (by rw [htaken]; exact hflag)
    rw [hplug, habsent] at h3
    exact ⟨h1, h2, h3.before hfirst hframe.ea_eq hframe.ct_eq hframe.rs_eq (by rw [htaken]) (by rw [htaken])
      (by rw [htaken]) (by rw [htaken])⟩
  · rw [hmoves habsent (by rw [h]; rfl), plugTransition_closing (hstate.trans h)]
    have hsc : (setCommand 0 (valuesTaken x (s.onFe FrontEnd.scTook))).sc =
        (valuesTaken x (s.onFe FrontEnd.scTook)).sc := rfl
    rw [hsc]
    refine ⟨rfl, hstate.trans h, ?_, ?_, ?_, (hframe.mono).step (setCommand_touches _ _)⟩ <;> rw [htaken]

end Sys2Proof.Machine

/-! PROOFS. The entry into LOCKED_OUT (R30 to R32, R74, R144). -/

namespace Sys2Proof.Machine

set_option Elab.async false

/-! ## The answer to the last close outside CLOSING -/

/-- Outside CLOSING the answer moves no command: it reaches the session controller and the signals alone. -/
theorem answerClose_touches_away {s : State} (h : s.sc.state ≠ .closing) : Touches (.sc :: signals) s (answerClose s) := by
  unfold answerClose
  split
  · have hrest := sessionEnd_rest s
    rwa [rested, if_neg h] at hrest
  · exact ((onSc_touches s _).mono).step (raiseAll_touches _ _)

/-! ## The leg and the elements at a lockout (R74) -/

theorem heaterLockout_leg {s : State} (h : s.hc.leg = .connected ∨ s.hc.leg = .connecting) :
    (heaterLockout s).hc.leg = .disconnected := by
  have hclosed : s.hc.allOff.hldClosed = true := by
    rw [Heater.hldClosed, Heater.allOff_leg]
    rcases h with h | h <;> rw [h] <;> rfl
  show (s.hc.allOff.openLeg).leg = .disconnected
  rw [Heater.openLeg, if_pos hclosed]

/-- A change of state moves no contact of the leg. -/
theorem setState_leg (x : SessionState) (s : State) : (setState x s).hc.leg = s.hc.leg := by
  by_cases h : s.sc.state = x
  · rw [setState_same h]
  · rw [setState_heater h]
    split
    · rfl
    · exact Heater.fit_leg _ _

/-! ## The move into LOCKED_OUT -/

/-- The change of state into LOCKED_OUT with the heater's turn-offs. -/
def lockedMove (s : State) : State := heaterLockout (setState .lockedOut s)

section
variable {s : State}

theorem lockedMove_sc : (lockedMove s).sc = { s.sc with state := .lockedOut } := setState_sc _ _

theorem lockedMove_touches : Touches moveBlocks s (lockedMove s) :=
  (setState_touches _ _).step (heaterLockout_touches _)

theorem lockedMove_tells : Tells [.session, .tariff, .capture] [.stateChanged, .tariffApplied] s (lockedMove s) :=
  (setState_tells (x := .lockedOut) s).silent (heaterLockout_touches _)

/-- Nothing is driven in LOCKED_OUT, and the move tells of itself. -/
structure LockedNow (s t : State) : Prop where
  command : t.pc.pCmd = 0 ∧ t.pc.aH = 0
  elements : t.hc.e1.isOn = false ∧ t.hc.e2.isOn = false ∧ t.hc.diagnosis = false
  leg : s.hc.leg = .connected ∨ s.hc.leg = .connecting → t.hc.leg = .disconnected
  told : Raised .session t ∧ Fired .stateChanged s t

theorem lockedMove_now (h : s.sc.state ≠ .lockedOut) : LockedNow s (lockedMove s) where
  command := by
    have hcmd : (setState .lockedOut s).pc.pCmd = 0 := by
      rw [setState_pCmd, if_neg h]
      rfl
    have hallow : (setState .lockedOut s).pc.aH = 0 := by
      rw [setState_aH h, allowanceOf, setState_sc]
    exact ⟨hcmd, hallow⟩
  elements := by
    obtain ⟨h1, h2⟩ := heaterLockout_off (setState .lockedOut s)
    exact ⟨h1, h2, rfl⟩
  leg hleg := by
    apply heaterLockout_leg
    rwa [setState_leg]
  told := by
    have hlock : Tells [] [] (setState .lockedOut s) (lockedMove s) := .of_touches (heaterLockout_touches _)
    exact ⟨hlock.raised_of (setState_raised h), hlock.fired_of (setState_fired h)⟩

/-- What goes before and after the move into LOCKED_OUT, leaving power and heater, leaves it so. -/
theorem LockedNow.between {s u v t : State} {ns ms : List Notice} {srcs fs : List Source} (h : LockedNow u v)
    (hleg : u.hc = s.hc) (hbefore : Tells ns srcs s u) (hpc : t.pc = v.pc) (hhc : t.hc = v.hc) (hafter : Tells ms fs v t) :
    LockedNow s t where
  command := by rw [hpc]; exact h.command
  elements := by rw [hhc]; exact h.elements
  leg hl := by rw [hhc]; exact h.leg (by rwa [hleg])
  told := ⟨hafter.raised_of h.told.1, hbefore.fired_since (hafter.fired_of h.told.2)⟩

end

/-! ## The entry (R30, R31) -/

section
variable (r : LockoutReason) (s : State)

/-- The session controller of a session that a lockout closes. -/
def lockingOut : State :=
  (s.onSc (Session.lockOut r)).onSc fun c => { c with record := { c.record with closeReason := .lockout } }

/-- The session controller of a lockout that closes no session, with its mark on a record already pending. -/
def markedOut : State := markFinal (fun f => { f with lockout := true }) (s.onSc (Session.lockOut r))

theorem lockingOut_touches : Touches [.sc] s (lockingOut r s) := (onSc_touches s _).step (onSc_touches _ _)

theorem markedOut_touches : Touches [.sc, .ct] s (markedOut r s) := ((onSc_touches s _).mono).step (markFinal_touches _ _)

variable {r s}

/-- The entry that closes a session asks its final close first and has it answered last. -/
theorem enterLockout_asks (h : s.sc.state ≠ .lockedOut) (hopen : s.sc.state.isOpen = true) (hacc : s.ea.accruing = true) :
    enterLockout r s = answerClose (lockedMove (finalClose .final true (lockingOut r s))) := by
  rw [enterLockout, if_neg h]
  simp only [hopen, hacc, Bool.and_self, if_true]
  rfl

theorem enterLockout_marks (h : s.sc.state ≠ .lockedOut) (hno : s.sc.state.isOpen = false ∨ s.ea.accruing = false) :
    enterLockout r s = lockedMove (markedOut r s) := by
  have hasks : (s.sc.state.isOpen && s.ea.accruing) = false := by
    rcases hno with hno | hno <;> simp [hno]
  rw [enterLockout, if_neg h]
  simp only [hasks]
  rfl

theorem lockOut_pause (c : Session) (hopen : c.state.isOpen = true) : (c.lockOut r).record.pause = false := by
  rw [Session.lockOut, if_pos hopen]

theorem lockOut_closeReason (c : Session) : (c.lockOut r).record.closeReason = c.record.closeReason := by
  rw [Session.lockOut]
  split <;> rfl

/-- Nothing a record is formed from changes as the session controller is locked out. -/
theorem formRecord_lockingOut (lockout : Bool) (i : Interval) :
    formRecord .final lockout i (lockingOut r s) = formRecord .final lockout i s := by
  have hrecord : (lockingOut r s).sc.record.number = s.sc.record.number ∧
      (lockingOut r s).sc.record.payer = s.sc.record.payer := by
    show (Session.lockOut r s.sc).record.number = _ ∧ (Session.lockOut r s.sc).record.payer = _
    rw [Session.lockOut]
    split <;> exact ⟨rfl, rfl⟩
  exact formRecord_congr hrecord.1 hrecord.2 rfl rfl rfl rfl rfl rfl

theorem lockingOut_payer : (lockingOut r s).sc.record.payer = s.sc.record.payer := by
  show (Session.lockOut r s.sc).record.payer = _
  rw [Session.lockOut]
  split <;> rfl

/-- What the lockout of an accruing session leaves (R31, R144). -/
structure LockoutClosed (r : LockoutReason) (s t : State) : Prop where
  now : LockedNow s t
  session : t.sc.state = .lockedOut ∧ t.sc.lockout = s.sc.lockout.add r ∧ t.sc.verify = none ∧ t.sc.commandZero = false ∧
    t.sc.hold = .empty ∧ t.sc.record.pause = false ∧ t.sc.record.closeReason = .lockout ∧
    t.sc.finalPending = !finalPlaced s
  account : t.ea = { s.ea with accruing := false }
  interval : t.ct.interval = none
  pending : t.ct.finalRecord.isSome = !finalPlaced s
  placed : ∀ i, s.ct.interval = some i → placeable s = true → RecordPlaced .final true i s t
  kept : ∀ i, s.ct.interval = some i → placeable s = false → t.ct.finalRecord = some (formRecord .final true i s) ∧
    t.rs = s.rs ∧ t.ct.held = s.ct.held ∧ Raised .billing t

theorem enterLockout_closed (h : s.sc.state ≠ .lockedOut) (hopen : s.sc.state.isOpen = true)
    (hacc : s.ea.accruing = true) : LockoutClosed r s (enterLockout r s) := by
  rw [enterLockout_asks h hopen hacc]
  generalize hu : finalClose .final true (lockingOut r s) = u
  have husc : u.sc = (lockingOut r s).sc := by
    rw [← hu]
    exact (finalClose_touches _ _ _).sc_eq
  have hustate : u.sc.state = s.sc.state := by rw [husc]; rfl
  have hvsc : (lockedMove u).sc = { (lockingOut r s).sc with state := .lockedOut } := by rw [lockedMove_sc, husc]
  have hvstate : (lockedMove u).sc.state ≠ .closing := by simp [hvsc]
  have haway := answerClose_touches_away hvstate
  have hsince : Tells [.stream, .billing, .tariff, .capture] [.intervalClosed, .tariffApplied] s u := by
    rw [← hu]
    have hlocking : Tells [.stream, .billing, .tariff, .capture] [.intervalClosed, .tariffApplied] s (lockingOut r s) :=
      .of_touches (lockingOut_touches r s)
    exact hlocking.trans (finalClose_tells _ _)
  have huhc : u.hc = s.hc := by
    rw [← hu, (finalClose_touches _ _ _).hc_eq]
    rfl
  have hufinal : u.ct.finalRecord = (match s.ct.interval with
      | none => s.ct.finalRecord
      | some i => if placeable s then s.ct.finalRecord else some (formRecord .final true i s)) := by
    rw [← hu, finalClose_finalRecord]
    simp only [formRecord_lockingOut]
    rfl
  have hfinalPlaced : finalPlaced s = u.ct.finalRecord.isNone := by
    rw [hufinal, finalPlaced]
    cases s.ct.interval with
    | none => simp
    | some i => cases placeable s <;> simp
  have hct : u.ct.TablesOnly (answerClose (lockedMove u)).ct :=
    (setState_tablesOnly .lockedOut u).trans (answerClose_tablesOnly _)
  have hfinal : (answerClose (lockedMove u)).ct.finalRecord = u.ct.finalRecord := by rw [hct]
  have hvfinal : (lockedMove u).ct.finalRecord = u.ct.finalRecord := by
    show (setState .lockedOut u).ct.finalRecord = _
    rw [setState_tablesOnly]
  have hea : (answerClose (lockedMove u)).ea = { s.ea with accruing := false } := by
    rw [haway.ea_eq, lockedMove_touches.ea_eq, ← hu, finalClose_ea]
    rfl
  have hrs : (answerClose (lockedMove u)).rs = u.rs := by rw [haway.rs_eq, lockedMove_touches.rs_eq]
  constructor
  · exact (lockedMove_now (by rw [hustate]; exact h)).between huhc hsince haway.pc_eq haway.hc_eq (answerClose_tells _)
  · rw [answerClose_sc, hvfinal, hfinalPlaced, hvsc]
    have hpause := lockOut_pause (r := r) s.sc hopen
    cases u.ct.finalRecord.isNone with
    | true => exact ⟨rfl, rfl, rfl, rfl, rfl, rfl, rfl, rfl⟩
    | false => exact ⟨rfl, rfl, rfl, rfl, rfl, hpause, rfl, rfl⟩
  · exact hea
  · rw [hct, ← hu]
    exact finalClose_interval _ _
  · rw [hfinal, hfinalPlaced]
    cases u.ct.finalRecord <;> rfl
  · intro i hi _
    have hplaced : RecordPlaced .final true i s u := by
      rw [← hu]
      exact (finalClose_placed (s := lockingOut r s) .final true hi).before (formRecord_lockingOut true i) rfl rfl rfl
        (fun _ => rfl) lockingOut_payer rfl
    have hnone : (u.ct.kind u.sc.record.payer).staged = none := by
      rw [← hu]
      exact finalClose_unstaged (s := lockingOut r s) .final true hi
    have hvct : (lockedMove u).ct = u.ct := setState_ct_unstaged hnone
    have hmoved : RecordPlaced .final true i s (lockedMove u) :=
      hplaced.after lockedMove_tells lockedMove_touches.rs_eq (by rw [hvct]) (by rw [hvct]) (by rw [hvct])
        fun k => by rw [hvct]
    refine hmoved.answerClose ?_
    rw [hvct, lockedMove_sc]
    exact hnone
  · intro i hi hplace
    obtain ⟨hkrs, hkheld, hkraised⟩ := finalClose_keeps (s := lockingOut r s) .final true hi hplace
    rw [hu] at hkrs hkheld hkraised
    refine ⟨?_, by rw [hrs, hkrs]; rfl, by rw [hct]; exact hkheld,
      (answerClose_tells _).raised_of (lockedMove_tells.raised_of hkraised)⟩
    rw [hfinal, hufinal, hi]
    simp [hplace]

/-- What a lockout without a close leaves (R30, R144). -/
theorem enterLockout_marked (h : s.sc.state ≠ .lockedOut) (hno : s.sc.state.isOpen = false ∨ s.ea.accruing = false) :
    LockedNow s (enterLockout r s) ∧ (enterLockout r s).sc = { s.sc.lockOut r with state := .lockedOut } ∧
      (enterLockout r s).ea = s.ea ∧
      (enterLockout r s).ct.finalRecord = s.ct.finalRecord.map fun f => { f with lockout := true } := by
  rw [enterLockout_marks h hno]
  have hbefore : Tells [] [] s (markedOut r s) := .of_touches (markedOut_touches r s)
  have hafter : Tells [] [] (lockedMove (markedOut r s)) (lockedMove (markedOut r s)) := .refl _ _ _
  refine ⟨(lockedMove_now (s := markedOut r s) h).between rfl hbefore rfl rfl hafter, ?_, ?_, ?_⟩
  · rw [lockedMove_sc]
    rfl
  · rw [lockedMove_touches.ea_eq]
    rfl
  · show (setState .lockedOut (markedOut r s)).ct.finalRecord = _
    rw [setState_tablesOnly]
    rfl

theorem addLockoutReason_touches (r : LockoutReason) (s : State) : Touches [.sc, .ports] s (addLockoutReason r s) :=
  .ite (.refl _ _) (((onSc_touches s _).mono).step (raiseAll_touches _ _))

theorem LockoutSet.add_of_has {l : LockoutSet} (h : l.has r = true) : l.add r = l := by
  cases r <;> cases l <;> simp_all [LockoutSet.has, LockoutSet.add]

end

/-- Settles O19. -/
theorem lockoutClosesTheSessionAndStopsPower : Obligations.LockoutClosesTheSessionAndStopsPower := by
  intro r s t
  have hframe : t.fe = s.fe ∧ t.im = s.im ∧ t.cfg = s.cfg :=
    ⟨(enterLockout_touches r s).fe_eq, (enterLockout_touches r s).im_eq, (enterLockout_touches r s).cfg_eq⟩
  by_cases hs : s.sc.state = .lockedOut
  · have ht : t = addLockoutReason r s := if_pos hs
    cases hhas : s.sc.lockout.has r with
    | true =>
      have hsame : t = s := ht.trans (if_pos hhas)
      rw [hsame]
      exact ⟨hs, (LockoutSet.add_of_has hhas).symm, fun h => absurd hs h, fun _ _ => rfl, fun _ h => (nomatch h), rfl, rfl, rfl⟩
    | false =>
      have hadd : t = raiseAll .session (s.onSc fun c => { c with lockout := c.lockout.add r }) :=
        ht.trans (if_neg (by simp [hhas]))
      have hsc : t.sc = { s.sc with lockout := s.sc.lockout.add r } := by
        rw [hadd, (raiseAll_touches _ _).sc_eq]
        rfl
      refine ⟨by rw [hsc]; exact hs, by rw [hsc], fun h => absurd hs h, fun _ h => (nomatch h), fun _ _ => ⟨?_, ?_, hsc⟩, hframe⟩
      · rw [hadd]
        exact raiseAll_raised _ _
      · rw [ht]
        exact addLockoutReason_touches r s
  · have hperm : t.sc.state = .lockedOut → chgEn t = false := by
      intro hst
      rw [← Bool.not_eq_true, chgEn_iff]
      simp [hst]
    by_cases hasks : s.sc.state.isOpen = true ∧ s.ea.accruing = true
    · have hclosed : LockoutClosed r s t := enterLockout_closed hs hasks.1 hasks.2
      obtain ⟨hnow, ⟨h1, h2, h3, h4, h5, h6, h7, h8⟩, hea, hinterval, hpending, hplaced, hkept⟩ := hclosed
      obtain ⟨hcmd, hels, hleg, htold⟩ := hnow
      refine ⟨h1, h2, fun _ => ⟨h3, h4, by rw [h5]; rfl, hcmd.1, hcmd.2, hels.1, hels.2.1, hels.2.2, hleg, htold.1, htold.2,
        hperm h1, fun _ => h6, fun _ _ => ⟨hea, h7, hinterval, h8, hpending, fun i hi => ⟨hplaced i hi, hkept i hi⟩⟩,
        fun hno => ?_⟩, fun h => absurd h hs, fun h => absurd h hs, hframe⟩
      rcases hno with hno | hno
      · rw [hasks.1] at hno
        cases hno
      · rw [hasks.2] at hno
        cases hno
    · have hno : s.sc.state.isOpen = false ∨ s.ea.accruing = false := by
        cases h1 : s.sc.state.isOpen
        · exact .inl rfl
        · exact .inr (by simpa [h1] using hasks)
      have hmarked := enterLockout_marked (r := r) hs hno
      obtain ⟨⟨hcmd, hels, hleg, htold⟩, hsc, hea, hfinal⟩ := hmarked
      change t.sc = _ at hsc
      have hst : t.sc.state = .lockedOut := by rw [hsc]
      refine ⟨hst, by rw [hsc]; rfl, fun _ => ⟨by rw [hsc]; rfl, by rw [hsc]; rfl, by rw [hsc]; rfl, hcmd.1, hcmd.2, hels.1,
        hels.2.1, hels.2.2, hleg, htold.1, htold.2, hperm hst, fun hopen => ?_, fun h1 h2 => absurd ⟨h1, h2⟩ hasks,
        fun _ => ⟨hea, ?_, by rw [hsc]; rfl, hfinal⟩⟩, fun h => absurd h hs, fun h => absurd h hs, hframe⟩
      · rw [hsc]
        exact lockOut_pause (r := r) s.sc hopen
      · rw [hsc]
        exact lockOut_closeReason (r := r) s.sc

end Sys2Proof.Machine

/-! PROOFS. The opening of a session and the start of a measurement (R19, R20, R81 to R85, R115, R133). -/

namespace Sys2Proof.Machine

set_option Elab.async false

/-! ## The start of a measurement (R81, R84, R85) -/

theorem setSwitches_closed (a b : Bool) (f : FrontEnd) : (f.setSwitches a b).insA = a ∧ (f.setSwitches a b).insB = b := by
  unfold FrontEnd.setSwitches
  split
  · assumption
  · exact ⟨rfl, rfl⟩

/-- The switches reach the sampler of the front end alone. -/
theorem setSwitches_eq (a b : Bool) (f : FrontEnd) : f.setSwitches a b = { f with
    insA := a, insB := b, chassisMs := (f.setSwitches a b).chassisMs, chassisIndex := (f.setSwitches a b).chassisIndex } := by
  unfold FrontEnd.setSwitches
  split
  · next h => obtain ⟨rfl, rfl⟩ := h; rfl
  · rfl

/-- A switch that closes restarts the sampler (R10). -/
theorem setSwitches_restart {a b : Bool} {f : FrontEnd} (h : f.insA ≠ a ∨ f.insB ≠ b) :
    f.setSwitches a b = { f with insA := a, insB := b, chassisMs := 0, chassisIndex := 0 } := by
  refine if_neg ?_
  rintro ⟨h1, h2⟩
  rcases h with h | h
  · exact h h1
  · exact h h2

theorem hldClosed_eq (h : Heater) : h.hldClosed = decide (h.leg = .connecting ∨ h.leg = .connected) := by
  cases hl : h.leg <;> simp [Heater.hldClosed, hl]

theorem startMeasurement_started (l : Bool) (s : State) : Started l s (startMeasurement l s) where
  monitor := by
    rw [← hldClosed_eq]
    rfl
  switches := setSwitches_eq true false s.fe
  sampler h := by
    show (s.fe.setSwitches true false).chassisMs = 0 ∧ (s.fe.setSwitches true false).chassisIndex = 0
    rw [setSwitches_restart (.inl (by simp [h]))]
    exact ⟨rfl, rfl⟩
  frame := (startMeasurement_touches l s).mono

theorem requestMeasurement_of_idle {s : State} (hmeas : s.im.meas = .idle) (hrun : s.im.running = true) :
    requestMeasurement s = startMeasurement false s := if_pos ⟨hmeas, hrun⟩

theorem requestMeasurement_waits {s : State} (h : s.im.meas ≠ .idle ∨ s.im.running = false) :
    requestMeasurement s = s.onIm fun m => { m with request := true } := by
  refine if_neg ?_
  rintro ⟨h1, h2⟩
  rcases h with h | h
  · exact h h1
  · rw [h2] at h
    cases h

/-! ## The opening of a session (R19, R20) -/

section
variable (payer : Payer) (offer : Nat) (label : List Byte) (s : State)

/-- The record of the session written. -/
def sessionWritten : State := (stamped s).onSc fun c =>
  { c with
    record := { number := (s.sc.record.number + 1) % 4294967296, payer := payer, label := label, openTime := openStamp s
                offer := offer, pause := false, closeReason := .noReason }
    gate := false
    hold := openingHold s
    verify := some 30000 }

/-- The session's account and cost at 0, interval 0 opened. -/
def sessionZeroed : State :=
  openInterval 0 (((sessionWritten payer offer label s).onEa fun a => { a with session := .zero, accruing := true }).onCt
    fun c => { c with cost := 0, reported := 0, elapsed := 0 })

theorem openSession_eq : openSession payer offer label s =
    occur .sessionOpened (setState .verifying (sessionZeroed payer offer label s)) := rfl

theorem sessionWritten_sc : (sessionWritten payer offer label s).sc = { s.sc with
    record := { number := (s.sc.record.number + 1) % 4294967296, payer := payer, label := label, openTime := openStamp s
                offer := offer, pause := false, closeReason := .noReason }
    gate := false
    hold := openingHold s
    verify := some 30000 } := by
  rw [sessionWritten, State.onSc_sc, (stamped_touches s).sc_eq]

theorem sessionWritten_touches : Touches [.sc, .free] s (sessionWritten payer offer label s) :=
  ((stamped_touches s).mono).step (onSc_touches _ _)

theorem sessionZeroed_touches : Touches [.sc, .ea, .ct, .free] s (sessionZeroed payer offer label s) :=
  ((((sessionWritten_touches payer offer label s).mono).step (onEa_touches _ _)).step (onCt_touches _ _)).step
    (openInterval_touches _ _)

theorem sessionZeroed_sc : (sessionZeroed payer offer label s).sc = (sessionWritten payer offer label s).sc := rfl

theorem sessionZeroed_ea : (sessionZeroed payer offer label s).ea = { s.ea with session := .zero, accruing := true } := by
  show ({ (sessionWritten payer offer label s).ea with session := .zero, accruing := true } : EnergyAccount) = _
  rw [(sessionWritten_touches payer offer label s).ea_eq]

/-- The clock and tariff unit of a session just opened. -/
theorem sessionZeroed_ct : (sessionZeroed payer offer label s).ct = { s.ct with
    cost := 0
    reported := 0
    elapsed := 0
    price := priceOf payer s
    interval := some
      { index := 0
        startDay := if s.ct.valid then s.ct.day else 0
        startSec := if s.ct.valid then s.ct.sec else 0
        openElapsed := 0
        base := ⟨0, 0, 0, 0, 0⟩
        latched := s.cfg.billIntervalMin
        flags := ⟨!s.ct.valid, (s.ct.kind payer).active.isNone, false, false, false, false⟩ } } := by
  have hframe := sessionWritten_touches payer offer label s
  have hprice (c : ClockTariff) (u : State) (hc : u.ct = { c with cost := 0, reported := 0, elapsed := 0 }) (hs : s.ct = c) :
      priceOf payer u = priceOf payer s := by
    subst hs
    cases payer <;> simp only [priceOf, hc, ClockTariff.kind]
  have hpayer : (sessionWritten payer offer label s).sc.record.payer = payer := by rw [sessionWritten_sc]
  rw [sessionZeroed, openInterval, State.onCt_ct, State.onCt_ct, State.onEa_ct, hframe.ct_eq]
  simp only [payerNow, State.onCt_sc, State.onEa_sc, hpayer, State.onCt_cfg, State.onEa_cfg, hframe.cfg_eq]
  rw [hprice s.ct _ (by rw [State.onCt_ct, State.onEa_ct, hframe.ct_eq]) rfl]
  cases payer <;> rfl

/-- The session just opened in VERIFYING (R20). -/
theorem openSession_sc : (openSession payer offer label s).sc =
    { (sessionWritten payer offer label s).sc with state := .verifying } := by
  rw [openSession_eq, (occur_touches _ _).sc_eq, setState_sc, sessionZeroed_sc]

theorem openSession_ct : (openSession payer offer label s).ct = (sessionZeroed payer offer label s).ct := by
  rw [openSession_eq, (occur_touches _ _).ct_eq, setState_ct_within (.inr rfl)]

theorem openSession_ea : (openSession payer offer label s).ea = { s.ea with session := .zero, accruing := true } := by
  rw [openSession_eq, (occur_touches _ _).ea_eq, (setState_touches _ _).ea_eq, sessionZeroed_ea]

theorem openSession_within : Touches [.sc, .pc, .hc, .ea, .ct, .ports, .se, .free] s (openSession payer offer label s) := by
  rw [openSession_eq]
  exact ((sessionZeroed_touches payer offer label s).mono.step (setState_within_touches (.inr rfl))).step (occur_touches _ _)

variable {s} (h : s.sc.state = .connected)
include h

theorem sessionZeroed_state : (sessionZeroed payer offer label s).sc.state = .connected := by
  rw [sessionZeroed_sc, sessionWritten_sc]
  exact h

theorem openSession_pc : (openSession payer offer label s).pc.pCmd = 0 ∧
    (openSession payer offer label s).pc.aH = allowanceOf (latestVBus s) (openSession payer offer label s) := by
  have hne : (sessionZeroed payer offer label s).sc.state ≠ .verifying := by
    rw [sessionZeroed_state _ _ _ h]
    simp
  have hoccur := occur_touches .sessionOpened (setState .verifying (sessionZeroed payer offer label s))
  have hv : latestVBus (sessionZeroed payer offer label s) = latestVBus s :=
    latestVBus_congr (sessionZeroed_touches payer offer label s).fe_eq
  rw [openSession_eq, hoccur.pc_eq]
  refine ⟨?_, ?_⟩
  · rw [setState_pCmd, if_neg hne]
    rfl
  · rw [setState_aH hne, hv]
    exact (allowanceOf_congr _ hoccur.sc_eq (by rw [hoccur.pc_eq]) (by rw [hoccur.pc_eq]) hoccur.cfg_eq).symm

theorem openSession_told : Raised .session (openSession payer offer label s) ∧
    Fired .sessionOpened s (openSession payer offer label s) ∧ Fired .stateChanged s (openSession payer offer label s) := by
  have hne : (sessionZeroed payer offer label s).sc.state ≠ .verifying := by
    rw [sessionZeroed_state _ _ _ h]
    simp
  have hbefore : Tells [] [] s (sessionZeroed payer offer label s) := .of_touches (sessionZeroed_touches payer offer label s)
  have hmoved : Tells [.session, .tariff, .capture] [.stateChanged, .tariffApplied] s
      (setState .verifying (sessionZeroed payer offer label s)) := hbefore.mono.trans (setState_tells _ _)
  have hoccur := occur_tells (setState .verifying (sessionZeroed payer offer label s)) .sessionOpened
  rw [openSession_eq]
  exact ⟨hoccur.raised_of (setState_raised hne), hmoved.fired_since (occur_fired _ _),
    hoccur.fired_of (hbefore.fired_since (setState_fired hne))⟩

end

theorem openRefusal_none {code : Nat} {s : State} (h : s.sc.state = .connected) (hpend : s.sc.finalPending = false)
    (hval : s.sc.validity.isSome = true) (hcode : code ≤ 1) : openRefusal code s = none := by
  have hpayer : code = 0 ∨ code = 1 := by omega
  simp [openRefusal, h, hpend, Session.limitsValid, hval, hpayer, SessionState.isOpen]

/-- Settles O15. -/
theorem sessionOpenStartsVerification : Obligations.SessionOpenStartsVerification := by
  intro b s hs hlen hconn hpend hval hcode s0 k
  have hfsc : s0.sc = s.sc := found_sc _ _
  have hfct : s0.ct = s.ct := found_ct _ _
  have hfim : s0.im = s.im := found_im _ _
  have hffe : s0.fe = s.fe := found_fe _ _
  have hfhc : s0.hc = s.hc := found_hc _ _
  have hfcfg : s0.cfg = s.cfg := found_cfg _ _
  have hconn0 : s0.sc.state = .connected := by rw [hfsc]; exact hconn
  have hpayer : (payerOf (u8 b 0)).getD .station = k := by rw [payerOf_of_le_one hcode]; rfl
  obtain ⟨u, hu⟩ : ∃ u, u = openSession k (min 22000 (u32 b 1)) (b.drop 6) s0 := ⟨_, rfl⟩
  have hact : answerOpen b s0 = ⟨priorityRequest u, if 22000 < u32 b 1 then .clamped else .ok, []⟩ := by
    have hnone : openRefusal (u8 b 0) s0 = none :=
      openRefusal_none hconn0 (by rw [hfsc]; exact hpend) (by rw [hfsc]; exact hval) hcode
    have htop : offerTop = 22000 := rfl
    rw [answerOpen, hnone, hpayer, htop, ← hu, clampedStatus]
    by_cases hc : 22000 < u32 b 1 <;> simp [hc]
  have hprio := priorityRequest_touches u
  have hsc : (priorityRequest u).sc = { (sessionWritten k (min 22000 (u32 b 1)) (b.drop 6) s0).sc with state := .verifying } := by
    rw [hprio.sc_eq, hu, openSession_sc]
  rw [sessionWritten_sc, hfsc] at hsc
  have hct : (priorityRequest u).ct = (sessionZeroed k (min 22000 (u32 b 1)) (b.drop 6) s0).ct := by
    rw [hprio.ct_eq, hu, openSession_ct]
  rw [sessionZeroed_ct, hfct, hfcfg] at hct
  have hprice : priceOf k s0 = priceOf k s := by simp only [priceOf, hfct]
  obtain ⟨hpcmd, hallow⟩ := openSession_pc k (min 22000 (u32 b 1)) (b.drop 6) hconn0
  obtain ⟨hraised, hfiredO, hfiredS⟩ := openSession_told k (min 22000 (u32 b 1)) (b.drop 6) hconn0
  have hwithin := openSession_within k (min 22000 (u32 b 1)) (b.drop 6) s0
  have hea := openSession_ea k (min 22000 (u32 b 1)) (b.drop 6) s0
  rw [← hu] at hpcmd hallow hraised hfiredO hfiredS hwithin hea
  have htells : Tells [] [] u (priorityRequest u) := .of_touches hprio
  have huim : u.im = s.im := hwithin.im_eq.trans hfim
  have hufe : u.fe = s.fe := hwithin.fe_eq.trans hffe
  have hea0 : (priorityRequest u).ea = { s.ea with session := Account.zero, accruing := true } := by
    rw [hprio.ea_eq, hea, (found_frame _ _).ea_eq]
  have hreq (hrun : s.im.runRequested = true) : priorityRequest u = requestMeasurement u := by
    rw [← huim] at hrun
    exact if_pos hrun
  refine ⟨priorityRequest u, congrArg Host.Outcome.next (request_answered hs hlen rfl hact), ?_⟩
  refine ⟨by rw [hsc], by rw [hsc], by rw [hsc], by rw [hsc], by rw [hsc], by rw [hsc], ?_, ?_, by rw [hsc],
    by rw [hsc], by rw [hsc], ?_, by rw [hsc], by rw [hsc], by rw [hsc], by rw [hsc], ?_, ?_, hea0, by rw [hct], by rw [hct],
    by rw [hct], by rw [hct]; exact hprice, ⟨_, by rw [hct], rfl, rfl, rfl, rfl, rfl, ?_, ?_⟩, by rw [hct], by rw [hct],
    by rw [hct], htells.raised_of hraised, (htells.fired_of hfiredO).of_se (found_se _ _),
    (htells.fired_of hfiredS).of_se (found_se _ _), ?_, ?_, ?_, ?_⟩
  · rw [hsc]
    show (openStamp s0).unset = _
    rw [openStamp, hfct]
    cases s.ct.valid <;> rfl
  · intro hv
    rw [hsc]
    show openStamp s0 = _
    rw [openStamp, hfct, if_pos hv]
  · rw [hsc]
    show openingHold s0 = _
    rw [openingHold, hfim, hffe, hfsc, Session.limitsValid, hval]
    rfl
  · rw [hprio.pc_eq]
    exact hpcmd
  · rw [hprio.pc_eq, hallow, latestVBus_congr hffe]
    exact (allowanceOf_congr _ hprio.sc_eq (by rw [hprio.pc_eq]) (by rw [hprio.pc_eq]) hprio.cfg_eq).symm
  · intro hv
    rw [if_pos hv, if_pos hv]
    exact ⟨rfl, rfl⟩
  · intro hv
    exact if_neg (by simp [hv])
  · intro hno
    rw [← huim] at hno
    have hsame : priorityRequest u = u := if_neg (by simp [hno])
    rw [hsame]
    exact ⟨huim, hufe⟩
  · intro hrun hmeas hrunning
    have hstart := startMeasurement_started false u
    rw [hreq hrun, requestMeasurement_of_idle (by rw [huim]; exact hmeas) (by rw [huim]; exact hrunning), hstart.monitor,
      hstart.switches, huim]
    exact ⟨rfl, rfl, rfl, rfl, rfl⟩
  · intro hrun hwait
    rw [hreq hrun, requestMeasurement_waits (by rw [huim]; exact hwait), State.onIm_im, huim]
    exact ⟨rfl, hufe⟩
  · exact ((found_frame .c s).mono.step hwithin).step hprio

end Sys2Proof.Machine

/-! PROOFS. The update of the power command: derate state and window, the stages, the closing step (R28, R38 to R43, R46, R48
to R53). -/

namespace Sys2Proof.Machine

set_option Elab.async false

/-! ## What the moves of the other blocks leave of the power command -/

/-- Derate state, window and duty are of the background: no move of another block changes them. -/
structure PowerKept (p q : Power) : Prop where
  derate : q.derate = p.derate
  windowCount : q.windowCount = p.windowCount
  windowLen : q.windowLen = p.windowLen
  used : q.used = p.used
  exhausted : q.exhausted = p.exhausted

theorem Reaches.powerKept {bs : List Block} {s t : State} (h : Reaches bs [] s t) : PowerKept s.pc t.pc := by
  have hpc : (background t).pc = (background s).pc := h.within .pc (by simp)
  have hderate := congrArg Power.derate hpc
  have hcount := congrArg Power.windowCount hpc
  have hlen := congrArg Power.windowLen hpc
  have hused := congrArg Power.used hpc
  have hexhausted := congrArg Power.exhausted hpc
  exact ⟨hderate, hcount, hlen, hused, hexhausted⟩

/-! ## The derate state (R48, R49) -/

theorem derateAfter_missing {i : Items} {t : TempReading} (d : Derate) (h : t.mark = .missing) :
    derateAfter i t d = if d = .trip then .trip else .hot := if_pos h

/-- The highest entry threshold reached wins; else the highest, of the states not above the one held, whose threshold less
50 is reached. -/
theorem derateAfter_value {i : Items} {t : TempReading} (d : Derate) (h : t.mark ≠ .missing) : derateAfter i t d =
    if (i.derateTTrip : Int) ≤ t.value ∨ (d = .trip ∧ (i.derateTTrip : Int) - 50 ≤ t.value) then .trip
    else if (i.derateTHot : Int) ≤ t.value ∨ ((d = .trip ∨ d = .hot) ∧ (i.derateTHot : Int) - 50 ≤ t.value) then .hot
    else if (i.derateTWarm : Int) ≤ t.value ∨ (d ≠ .normal ∧ (i.derateTWarm : Int) - 50 ≤ t.value) then .warm
    else .normal := by
  have htrip : (i.derateTTrip : Int) ≤ t.value → (i.derateTTrip : Int) - 50 ≤ t.value := by omega
  have hhot : (i.derateTHot : Int) ≤ t.value → (i.derateTHot : Int) - 50 ≤ t.value := by omega
  have hwarm : (i.derateTWarm : Int) ≤ t.value → (i.derateTWarm : Int) - 50 ≤ t.value := by omega
  rw [derateAfter, if_neg h]
  dsimp only [derateReached]
  by_cases h1 : (i.derateTTrip : Int) ≤ t.value <;> by_cases h2 : (i.derateTHot : Int) ≤ t.value <;>
    by_cases h3 : (i.derateTWarm : Int) ≤ t.value <;> cases d <;> simp [Derate.rank, *]

/-! ## The four steps of the update (R38) -/

section
variable {x : SampleSet} {s : State}

/-- The change of the derate state, before its lockout. -/
def derated (d : Derate) (s : State) : State :=
  occur .derateChanged (raiseAll .derate (s.onPc fun p => { p with derate := d }))

theorem derated_touches (d : Derate) (s : State) : Touches (.pc :: signals) s (derated d s) :=
  (((onPc_touches s _).mono).step (raiseAll_touches _ _)).step (occur_touches _ _)

theorem derated_pc (d : Derate) (s : State) : (derated d s).pc = { s.pc with derate := d } := by
  rw [derated, (occur_touches _ _).pc_eq, (raiseAll_touches _ _).pc_eq]
  rfl

theorem derated_tells (d : Derate) (s : State) : Tells [.derate, .capture] [.derateChanged] s (derated d s) :=
  ((Tells.of_touches (onPc_touches s _)).step (raiseAll_tells _ _)).step (occur_tells _ _)

theorem derated_told (d : Derate) (s : State) : Raised .derate (derated d s) ∧ Fired .derateChanged s (derated d s) := by
  have hwritten : Tells [.derate] [] s (raiseAll .derate (s.onPc fun p => { p with derate := d })) :=
    (Tells.of_touches (onPc_touches s _)).step (raiseAll_tells _ _)
  exact ⟨(occur_tells _ _).raised_of (raiseAll_raised _ _), hwritten.fired_since (occur_fired _ _)⟩

theorem takeDerate_same (h : derateAfter s.cfg x.tObc s.pc.derate = s.pc.derate) : takeDerate x s = s := if_pos h

theorem takeDerate_trips (h : derateAfter s.cfg x.tObc s.pc.derate = .trip) (hne : s.pc.derate ≠ .trip) :
    takeDerate x s = enterLockout .overtemp (derated .trip s) := by
  rw [takeDerate]
  dsimp only
  rw [h, if_neg (Ne.symm hne), if_pos rfl]
  rfl

theorem takeDerate_moves (h : derateAfter s.cfg x.tObc s.pc.derate ≠ s.pc.derate)
    (hno : derateAfter s.cfg x.tObc s.pc.derate ≠ .trip) :
    takeDerate x s = derated (derateAfter s.cfg x.tObc s.pc.derate) s := by
  rw [takeDerate]
  dsimp only
  rw [if_neg h, if_neg hno]
  rfl

/-- Without an entry into TRIP the derate state is all the first step changes but the signals. -/
theorem takeDerate_calm (hno : derateAfter s.cfg x.tObc s.pc.derate = .trip → s.pc.derate = .trip) :
    Touches (.pc :: signals) s (takeDerate x s) ∧
      (takeDerate x s).pc = { s.pc with derate := derateAfter s.cfg x.tObc s.pc.derate } ∧
      Tells [.derate, .capture] [.derateChanged] s (takeDerate x s) := by
  by_cases hsame : derateAfter s.cfg x.tObc s.pc.derate = s.pc.derate
  · rw [takeDerate_same hsame, hsame]
    exact ⟨.refl _ _, rfl, .refl _ _ _⟩
  · rw [takeDerate_moves hsame fun h => hsame (h.trans (hno h).symm)]
    exact ⟨derated_touches _ _, derated_pc _ _, derated_tells _ _⟩

theorem enterLockout_tells (r : LockoutReason) (s : State) :
    Tells [.session, .stream, .billing, .tariff, .capture]
      [.stateChanged, .tariffApplied, .sessionClosed, .intervalClosed] s (enterLockout r s) := by
  have hsc (f : Session → Session) : Tells [.session, .stream, .billing, .tariff, .capture]
      [.stateChanged, .tariffApplied, .sessionClosed, .intervalClosed] s (s.onSc f) := .of_touches (onSc_touches s f)
  by_cases h : s.sc.state = .lockedOut
  · rw [enterLockout, if_pos h, addLockoutReason]
    exact .ite (.refl _ _ _) ((hsc _).step (raiseAll_tells _ _))
  · by_cases hasks : s.sc.state.isOpen = true ∧ s.ea.accruing = true
    · rw [enterLockout_asks h hasks.1 hasks.2]
      have hlocking : Tells [.session, .stream, .billing, .tariff, .capture]
          [.stateChanged, .tariffApplied, .sessionClosed, .intervalClosed] s (lockingOut r s) :=
        .of_touches (lockingOut_touches r s)
      exact ((hlocking.step (finalClose_tells _ _)).step lockedMove_tells).step (answerClose_tells _)
    · have hno : s.sc.state.isOpen = false ∨ s.ea.accruing = false := by
        cases h1 : s.sc.state.isOpen
        · exact .inl rfl
        · exact .inr (by simpa [h1] using hasks)
      rw [enterLockout_marks h hno]
      have hmarked : Tells [.session, .stream, .billing, .tariff, .capture]
          [.stateChanged, .tariffApplied, .sessionClosed, .intervalClosed] s (markedOut r s) :=
        .of_touches (markedOut_touches r s)
      exact hmarked.step lockedMove_tells

/-- The derate state after the first step; window and exhaustion stay. -/
theorem takeDerate_pc (x : SampleSet) (s : State) :
    PowerKept { s.pc with derate := derateAfter s.cfg x.tObc s.pc.derate } (takeDerate x s).pc := by
  by_cases htrip : derateAfter s.cfg x.tObc s.pc.derate = .trip ∧ s.pc.derate ≠ .trip
  · rw [takeDerate_trips htrip.1 htrip.2, htrip.1, ← derated_pc]
    exact (Reaches.of_quiet (enterLockout_touches _ _) (enterLockout_quiet _ _)).powerKept
  · have hno : derateAfter s.cfg x.tObc s.pc.derate = .trip → s.pc.derate = .trip := fun h => by
      by_contra hne
      exact htrip ⟨h, hne⟩
    rw [(takeDerate_calm hno).2.1]
    exact ⟨rfl, rfl, rfl, rfl, rfl⟩

/-- The length of the window a set belongs to (R51). -/
def windowLength (s : State) : Nat := if s.pc.windowCount = 0 then s.cfg.derateWindowS * 10 else s.pc.windowLen

/-- The window and the exhaustion flag taken (R51 to R53). -/
def windowed (x : SampleSet) (s : State) : State := takeExhaustion (takeWindow x s)

theorem windowed_touches (x : SampleSet) (s : State) : Touches [.pc] s (windowed x s) :=
  (onPc_touches s _).step (onPc_touches _ _)

theorem takeWindow_pc (x : SampleSet) (s : State) : (takeWindow x s).pc = { s.pc with
    windowLen := windowLength s
    windowCount := if s.pc.windowCount + 1 = windowLength s then 0 else s.pc.windowCount + 1
    used := if s.pc.windowCount + 1 = windowLength s then 0 else s.pc.used + outputEnergy x } := by
  rw [takeWindow, State.onPc_pc]
  dsimp only
  change (if s.pc.windowCount + 1 = windowLength s then _ else _) = _
  split <;> rfl

theorem windowed_pc (x : SampleSet) (s : State) : (windowed x s).pc =
    { (takeWindow x s).pc with exhausted := (windowed x s).pc.exhausted } := rfl

theorem windowed_exhausted (x : SampleSet) (s : State) : (windowed x s).pc.exhausted = true ↔
    ((windowed x s).pc.derate = .warm ∧ s.cfg.allowWarm * 36000000 ≤ (windowed x s).pc.used) ∨
      ((windowed x s).pc.derate = .hot ∧ s.cfg.allowHot * 36000000 ≤ (windowed x s).pc.used) := by
  have hcfg : (takeWindow x s).cfg = s.cfg := rfl
  rw [windowed_pc]
  dsimp only
  rw [windowed, takeExhaustion, State.onPc_pc, hcfg]
  dsimp only [whUnit]
  cases (takeWindow x s).pc.derate <;> simp
  all_goals exact decide_eq_true_iff

theorem windowed_derate (x : SampleSet) (s : State) : (windowed x s).pc.derate = s.pc.derate := by
  rw [windowed_pc, takeWindow_pc]

/-! ## The setpoint (R39 to R43, R46) -/

/-- P_cmd of an update outside CLOSING (R38, R41). -/
def setpointOf (x : SampleSet) (s : State) : Nat :=
  if s.sc.state = .preheat ∨ s.sc.state = .charging then
    quantise (rampFrozen s.im.inPhase s.cfg.rampStep s.pc.pCmd (targetOf x.vBus s))
  else 0

theorem recompute_setCommand (v p : Nat) (s : State) : recompute v (setCommand p s) = setCommand p (recompute v s) := by
  unfold recompute
  have hallow : allowanceOf v (setCommand p s) = allowanceOf v s := rfl
  have haH : (setCommand p s).pc.aH = s.pc.aH := rfl
  dsimp only
  rw [hallow, haH]
  split <;> rfl

theorem takeSetpoint_open (h : s.sc.state ≠ .closing) :
    takeSetpoint x s = setCommand (setpointOf x s) (recompute x.vBus s) := by
  unfold takeSetpoint setpointOf
  cases hst : s.sc.state <;> simp only [reduceCtorEq, or_false, or_true, if_true, if_false]
  case closing => exact absurd hst h
  all_goals exact recompute_setCommand _ _ _

theorem takeSetpoint_closing (h : s.sc.state = .closing) :
    takeSetpoint x s = commandZeroReached (setCommand (quantise (closingStep s)) (recompute x.vBus s)) := by
  unfold takeSetpoint
  rw [h]

theorem takeSetpoint_tells (x : SampleSet) (s : State) :
    Tells [.session, .stream, .billing, .tariff, .capture]
      [.stateChanged, .tariffApplied, .sessionClosed, .intervalClosed] s (takeSetpoint x s) := by
  have hset (p : Nat) : Tells [.session, .stream, .billing, .tariff, .capture]
      [.stateChanged, .tariffApplied, .sessionClosed, .intervalClosed] s (setCommand p (recompute x.vBus s)) :=
    .of_touches ((recompute_touches x.vBus s).step (onPc_touches _ _))
  by_cases h : s.sc.state = .closing
  · rw [takeSetpoint_closing h]
    exact (hset _).trans (commandZeroReached_tells _)
  · rw [takeSetpoint_open h]
    exact hset _

/-- Past the derate step the update is silent of DERATE. -/
theorem pcTake_after (x : SampleSet) (s : State) :
    Tells [.session, .stream, .billing, .tariff, .capture]
      [.stateChanged, .tariffApplied, .sessionClosed, .intervalClosed] (takeDerate x s) (pcTake x s) := by
  have hwindow : Tells [.session, .stream, .billing, .tariff, .capture]
      [.stateChanged, .tariffApplied, .sessionClosed, .intervalClosed] (takeDerate x s) (windowed x (takeDerate x s)) :=
    .of_touches (windowed_touches _ _)
  exact hwindow.trans (takeSetpoint_tells _ _)

/-- The setpoint leaves derate state and window. -/
theorem pcTake_powerKept (x : SampleSet) (s : State) : PowerKept (windowed x (takeDerate x s)).pc (pcTake x s).pc :=
  (takeSetpoint_reaches x (windowed x (takeDerate x s))).powerKept

end

/-- A due update with RESET_N high. -/
def pcTook (s : State) : State := s.onFe FrontEnd.pcTook

theorem pcTook_touches (s : State) : Touches [.fe] s (pcTook s) := onFe_touches s _

theorem exec_pcUpdate {s : State} {x : SampleSet} (hs : s.resetLow = false) (hx : s.fe.latest = some x)
    (hdue : s.fe.duePc = true) : exec .pcUpdate s = .next (takeReports s (pcTake x (pcTook s))) := by
  show Host.Outcome.next (taking s.fe.duePc (fun x u => pcTake x (u.onFe FrontEnd.pcTook)) s) = _
  rw [hdue, taking_due hs hx]
  rfl

theorem overtemp_add (l : LockoutSet) : (l.add .overtemp).overtemp = true := rfl

/-- In LOCKED_OUT an update publishes no power. -/
theorem takeSetpoint_lockedOut {x : SampleSet} {s : State} (h : s.sc.state = .lockedOut) :
    (takeSetpoint x s).sc = s.sc ∧ (takeSetpoint x s).pc.pCmd = 0 ∧ (takeSetpoint x s).pc.aH = 0 := by
  have hpoint : setpointOf x s = 0 := by
    rw [setpointOf, if_neg]
    simp [h]
  have hsc : (setCommand 0 (recompute x.vBus s)).sc = s.sc := (recompute_touches x.vBus s).sc_eq
  rw [takeSetpoint_open (by simp [h]), hpoint]
  refine ⟨hsc, rfl, ?_⟩
  show (recompute x.vBus s).pc.aH = 0
  rw [recompute_pc]
  show allowanceOf x.vBus s = 0
  rw [allowanceOf, h]

theorem derateStateFollows (s : State) (x : SampleSet) :
    (pcTake x (pcTook s)).pc.derate = derateAfter s.cfg x.tObc s.pc.derate :=
  (pcTake_powerKept x (pcTook s)).derate.trans ((windowed_derate _ _).trans (takeDerate_pc x (pcTook s)).derate)

/-- Settles O20. -/
theorem derateStateAndWindowFollowTheSet : Obligations.DerateStateAndWindowFollowTheSet := by
  refine ⟨fun s x hs hx hdue => ?_, fun s x hs hx hdue => ?_, fun s => ?_⟩
  · intro v held warm hot trip d
    have hd : derateAfter s.cfg x.tObc s.pc.derate = d := by
      by_cases hm : x.tObc.mark = .missing
      · exact (derateAfter_missing _ hm).trans (if_pos hm).symm
      · exact (derateAfter_value _ hm).trans (if_neg hm).symm
    have htook : derateAfter (pcTook s).cfg x.tObc (pcTook s).pc.derate = d := hd
    have hbefore : Tells [] [] s (pcTook s) := .of_touches (pcTook_touches s)
    have hafter := pcTake_after x (pcTook s)
    refine ⟨pcTake x (pcTook s), exec_pcUpdate hs hx hdue, (derateStateFollows s x).trans hd, fun hne => ?_,
      fun heq => ?_, fun htrip hne => ?_, fun hno hlocked => ?_⟩
    · have htold : Raised .derate (takeDerate x (pcTook s)) ∧ Fired .derateChanged (pcTook s) (takeDerate x (pcTook s)) := by
        by_cases htrip : d = .trip
        · rw [takeDerate_trips (htook.trans htrip) fun h => hne (htrip.trans h.symm)]
          obtain ⟨h1, h2⟩ := derated_told .trip (pcTook s)
          exact ⟨(enterLockout_tells _ _).raised_of h1, (enterLockout_tells _ _).fired_of h2⟩
        · rw [takeDerate_moves (by rw [htook]; exact hne) (by rw [htook]; exact htrip)]
          exact derated_told _ _
      exact ⟨hafter.raised_of htold.1, hbefore.fired_since (hafter.fired_of htold.2)⟩
    · have hsame : takeDerate x (pcTook s) = pcTook s := takeDerate_same (htook.trans heq)
      rw [hsame] at hafter
      have htells : Tells [.session, .stream, .billing, .tariff, .capture]
          [.stateChanged, .tariffApplied, .sessionClosed, .intervalClosed] s (pcTake x (pcTook s)) :=
        hbefore.mono.trans hafter
      exact ⟨htells.still _ (by decide), fun p => htells.flags p _ (by decide)⟩
    · have hlock : (takeDerate x (pcTook s)).sc.state = .lockedOut ∧
          (takeDerate x (pcTook s)).sc.lockout = s.sc.lockout.add .overtemp := by
        rw [takeDerate_trips (htook.trans htrip) hne]
        have hentry := lockoutClosesTheSessionAndStopsPower .overtemp (derated .trip (pcTook s))
        have hsc : (derated .trip (pcTook s)).sc = s.sc := (derated_touches _ _).sc_eq
        rw [← hsc]
        exact ⟨hentry.1, hentry.2.1⟩
      obtain ⟨hsc, hp, ha⟩ := takeSetpoint_lockedOut (x := x) (s := windowed x (takeDerate x (pcTook s))) hlock.1
      refine ⟨?_, ?_, hp, ha⟩
      · rw [show (pcTake x (pcTook s)).sc = _ from hsc]
        exact hlock.1
      · rw [show (pcTake x (pcTook s)).sc = _ from hsc]
        show (takeDerate x (pcTook s)).sc.lockout.overtemp = true
        rw [hlock.2]
        exact overtemp_add _
    · have hcalm := (takeDerate_calm (x := x) (s := pcTook s) (by
        rw [htook]
        exact fun h => hno.resolve_left fun hn => hn h)).1
      have hstep : (windowed x (takeDerate x (pcTook s))).sc = s.sc := hcalm.sc_eq
      have hset := (takeSetpoint_lockedOut (x := x) (s := windowed x (takeDerate x (pcTook s)))
        (by rw [hstep]; exact hlocked)).1
      exact hset.trans hstep
  · intro len g hg bg
    obtain ⟨hderate, hcount, hlen, hused, hexhausted⟩ := pcTake_powerKept x (pcTook s)
    obtain ⟨hderate', hcount', hlen', hused', -⟩ := takeDerate_pc x (pcTook s)
    have hcfg : (takeDerate x (pcTook s)).cfg = s.cfg := (takeDerate_reaches x (pcTook s)).frame.cfg_eq
    have hlength : windowLength (takeDerate x (pcTook s)) = len := by
      rw [windowLength, hcount', hlen', hcfg]
      rfl
    rw [windowed_pc, takeWindow_pc] at hcount hlen hused
    rw [hcount', hlength] at hcount hused
    rw [hused'] at hused
    rw [hlength] at hlen
    refine ⟨pcTake x (pcTook s), exec_pcUpdate hs hx hdue, hlen, fun hfull => ?_, fun hgoes => ?_, rfl, rfl, ?_⟩
    · rw [hcount, hused]
      exact ⟨if_pos hfull, if_pos hfull⟩
    · rw [hcount, hused]
      exact ⟨if_neg hgoes, if_neg hgoes⟩
    · rw [hexhausted, windowed_exhausted, hderate, hcfg, (pcTake_powerKept x (pcTook s)).used]
  · show Host.Outcome.next (if windowCompletes s then pcUpdate s else s) = _
    rw [windowCompletes]
    by_cases h : s.pc.windowCount + 1 = (if s.pc.windowCount = 0 then s.cfg.derateWindowS * 10 else s.pc.windowLen)
    · rw [if_pos h, if_pos (by rw [beq_iff_eq]; exact h)]
      rfl
    · rw [if_neg h, if_neg (by rw [beq_iff_eq]; exact h)]

end Sys2Proof.Machine

/-! PROOFS. The stages, the setpoint and the closing step of the update (R28, R38 to R43, R46). -/

namespace Sys2Proof.Machine

set_option Elab.async false

section
variable {x : SampleSet} {s : State}

/-- The update up to its setpoint, where the derate state does not enter TRIP: derate state, window and exhaustion are all
that changes of the power command. -/
structure SetpointDue (s u : State) : Prop where
  frame : Touches [.fe, .pc, .ports, .se, .free] s u
  tells : Tells [.derate, .capture] [.derateChanged] s u
  power : u.pc.pCmd = s.pc.pCmd ∧ u.pc.aH = s.pc.aH ∧ u.pc.duty = s.pc.duty ∧ u.pc.pwmMs = s.pc.pwmMs
  exhausted : u.pc.exhausted = true → u.pc.derate = .warm ∨ u.pc.derate = .hot

theorem setpointDue (hno : derateAfter s.cfg x.tObc s.pc.derate = .trip → s.pc.derate = .trip) :
    SetpointDue s (windowed x (takeDerate x (pcTook s))) := by
  obtain ⟨hframe, hpc, htells⟩ := takeDerate_calm (x := x) (s := pcTook s) hno
  have hbefore : Tells [.derate, .capture] [.derateChanged] s (pcTook s) := .of_touches (pcTook_touches s)
  refine ⟨((pcTook_touches s).mono.step hframe).step (windowed_touches _ _),
    (hbefore.trans htells).silent (windowed_touches _ _), ?_, fun h => ?_⟩
  · rw [windowed_pc, takeWindow_pc, hpc]
    exact ⟨rfl, rfl, rfl, rfl⟩
  · exact ((windowed_exhausted _ _).mp h).imp And.left And.left

/-- L_obc as the statement reads it (R39). -/
theorem lObcOf_eq {u : State} (h : u.pc.exhausted = true → u.pc.derate = .warm ∨ u.pc.derate = .hot) : lObcOf u =
    if u.pc.exhausted = true ∨ u.pc.derate = .trip then 0
    else if u.pc.derate = .hot then u.cfg.obcPmax / 2 else u.cfg.obcPmax := by
  rw [lObcOf]
  cases hd : u.pc.derate <;> cases he : u.pc.exhausted <;> simp
  · simp [hd, he] at h

theorem bReqOf_zero {v : Nat} {u : State} (h : u.sc.state = .preheat ∨ u.sc.limits = none ∨ u.sc.validity = none) :
    bReqOf v u = 0 := by
  rw [bReqOf]
  cases hl : u.sc.limits with
  | none => rfl
  | some l =>
    refine if_pos ?_
    rcases h with h | h | h
    · exact .inl h
    · rw [hl] at h
      cases h
    · exact .inr (.inl (by rw [Session.limitsValid, h]; rfl))

theorem bReqOf_full {v : Nat} {u : State} {l : LimitsRecord} (hl : u.sc.limits = some l) (h : l.vBmax ≤ v) : bReqOf v u = 0 := by
  rw [bReqOf, hl]
  exact if_pos (.inr (.inr h))

theorem bReqOf_asks {v : Nat} {u : State} {l : LimitsRecord} (hl : u.sc.limits = some l) (hst : u.sc.state ≠ .preheat)
    (hval : u.sc.validity ≠ none) (h : v < l.vBmax) : bReqOf v u = v * l.iBmax / 100 := by
  rw [bReqOf, hl]
  refine if_neg ?_
  rintro (h' | h' | h')
  · exact hst h'
  · rw [Session.limitsValid, Option.isSome_eq_false_iff, Option.isNone_iff_eq_none] at h'
    exact hval h'
  · omega

theorem pHeatBatt_zero {u : State} (h : u.sc.limits = none ∨ u.sc.validity = none) : pHeatBatt u = 0 := by
  rw [pHeatBatt]
  cases hl : u.sc.limits with
  | none => rfl
  | some l =>
    refine if_neg ?_
    rw [Session.limitsValid, h.resolve_left (by simp [hl])]
    simp

theorem pHeatBatt_valid {u : State} {l : LimitsRecord} (hl : u.sc.limits = some l) (hval : u.sc.validity ≠ none) :
    pHeatBatt u = l.pHeatBatt := by
  rw [pHeatBatt, hl]
  exact if_pos (Option.isSome_iff_ne_none.mpr hval)

theorem allowanceOf_resting {v : Nat} {u : State} (h1 : u.sc.state ≠ .preheat) (h2 : u.sc.state ≠ .charging) :
    allowanceOf v u = if u.sc.state = .lockedOut then 0 else pHeatBatt u := by
  rw [allowanceOf]
  cases h : u.sc.state <;> first | exact absurd h h1 | exact absurd h h2 | rfl

theorem allowanceOf_powered {v : Nat} {u : State} (h : u.sc.state = .preheat ∨ u.sc.state = .charging) :
    allowanceOf v u = min (lStationOf u) (lObcOf u) - bReqOf v u := by
  rw [allowanceOf]
  rcases h with h | h <;> rw [h]

theorem recompute_heater (v : Nat) (u : State) :
    (recompute v u).hc = if allowanceOf v u = u.pc.aH then u.hc else u.hc.fit (allowanceOf v u) := by
  unfold recompute
  dsimp only
  split <;> rfl

theorem inPhase_iff (m : Insulation) : m.inPhase = true ↔ m.meas = .phaseA ∨ m.meas = .phaseB := by
  simp [Insulation.inPhase]

theorem rampFrozen_eq (m : Insulation) (step prev target : Nat) : rampFrozen m.inPhase step prev target =
    if m.meas = .phaseA ∨ m.meas = .phaseB then min (rampTo step prev target) prev else rampTo step prev target := by
  rw [rampFrozen]
  by_cases h : m.meas = .phaseA ∨ m.meas = .phaseB
  · rw [if_pos h, if_pos ((inPhase_iff m).mpr h)]
  · rw [if_neg h, if_neg fun hp => h ((inPhase_iff m).mp hp)]

end

/-- Settles O21. -/
theorem setpointFollowsTheStages : Obligations.SetpointFollowsTheStages := by
  intro s x hs hx hdue hopen hno
  obtain ⟨u, hu⟩ : ∃ u, u = windowed x (takeDerate x (pcTook s)) := ⟨_, rfl⟩
  have hready : SetpointDue s u := hu ▸ setpointDue hno
  obtain ⟨hframe, htells, ⟨hpCmd, haH, hduty, hpwm⟩, hexhausted⟩ := hready
  have hsc : u.sc = s.sc := hframe.sc_eq
  have hcfg : u.cfg = s.cfg := hframe.cfg_eq
  have him : u.im = s.im := hframe.im_eq
  have hhc : u.hc = s.hc := hframe.hc_eq
  have ht : pcTake x (pcTook s) = setCommand (setpointOf x u) (recompute x.vBus u) := by
    have hset := takeSetpoint_open (x := x) (s := u) (by rw [hsc]; exact hopen)
    rw [hu] at hset ⊢
    exact hset
  have hpc : (pcTake x (pcTook s)).pc = { u.pc with
      pCmd := setpointOf x u, lStation := lStationOf u, lObc := lObcOf u, bReq := bReqOf x.vBus u,
      aH := allowanceOf x.vBus u } := by
    rw [ht]
    show ({ (recompute x.vBus u).pc with pCmd := setpointOf x u } : Power) = _
    rw [recompute_pc]
  have hset : Touches [.pc, .hc] u (pcTake x (pcTook s)) := by
    rw [ht]
    exact (recompute_touches _ _).step (onPc_touches _ _)
  refine ⟨pcTake x (pcTook s), exec_pcUpdate hs hx hdue, ?_⟩
  rw [hpc]
  dsimp only
  refine ⟨?_, ?_, fun h => bReqOf_zero (by rw [hsc]; exact h), fun l hl => ⟨fun hv => ?_, fun hst hval hv => ?_⟩, fun hst => ?_,
    fun h1 h2 => ?_, ?_, hduty, hpwm, ?_, ?_⟩
  · rw [lStationOf, hsc, hcfg]
  · rw [lObcOf_eq hexhausted, hcfg]
  · exact bReqOf_full (by rw [hsc]; exact hl) hv
  · exact bReqOf_asks (by rw [hsc]; exact hl) (by rw [hsc]; exact hst) (by rw [hsc]; exact hval) hv
  · refine ⟨?_, allowanceOf_powered (by rw [hsc]; exact hst)⟩
    rw [setpointOf, if_pos (by rw [hsc]; exact hst), quantise, rampFrozen_eq, targetOf, hpCmd, hcfg, him, hhc]
    rfl
  · have hrest : allowanceOf x.vBus u = if s.sc.state = .lockedOut then 0 else pHeatBatt u := by
      rw [allowanceOf_resting (by rw [hsc]; exact h1) (by rw [hsc]; exact h2), hsc]
    refine ⟨?_, fun hzero => ?_, fun l hst hl hval => ?_⟩
    · rw [setpointOf, if_neg]
      rw [hsc]
      rintro (h | h)
      · exact h1 h
      · exact h2 h
    · rw [hrest]
      rcases hzero with h | h
      · exact if_pos h
      · split
        · rfl
        · exact pHeatBatt_zero (by rw [hsc]; exact h)
    · rw [hrest, if_neg hst]
      exact pHeatBatt_valid (by rw [hsc]; exact hl) (by rw [hsc]; exact hval)
  · rw [ht]
    show (recompute x.vBus u).hc = _
    rw [recompute_heater, haH, hhc]
  · exact (htells.silent hset).flags
  · exact hframe.mono.step hset

/-- Settles O22. -/
theorem closingStepsDownToTheFinalClose : Obligations.ClosingStepsDownToTheFinalClose := by
  intro s x hs hx hdue hclosing hno
  obtain ⟨u, hu⟩ : ∃ u, u = windowed x (takeDerate x (pcTook s)) := ⟨_, rfl⟩
  have hready : SetpointDue s u := hu ▸ setpointDue hno
  obtain ⟨hframe, htells, ⟨hpCmd, haH, -, -⟩, hexhausted⟩ := hready
  have hsc : u.sc = s.sc := hframe.sc_eq
  have hcfg : u.cfg = s.cfg := hframe.cfg_eq
  have hhc : u.hc = s.hc := hframe.hc_eq
  obtain ⟨v, hv⟩ : ∃ v, v = setCommand (quantise (closingStep u)) (recompute x.vBus u) := ⟨_, rfl⟩
  have ht : pcTake x (pcTook s) = commandZeroReached v := by
    have hset := takeSetpoint_closing (x := x) (s := u) (by rw [hsc]; exact hclosing)
    rw [hv]
    rw [hu] at hset ⊢
    exact hset
  have hvpc : v.pc = { u.pc with
      pCmd := quantise (closingStep u), lStation := lStationOf u, lObc := lObcOf u, bReq := bReqOf x.vBus u,
      aH := allowanceOf x.vBus u } := by
    rw [hv]
    show ({ (recompute x.vBus u).pc with pCmd := quantise (closingStep u) } : Power) = _
    rw [recompute_pc]
  have hset : Touches [.pc, .hc] u v := by
    rw [hv]
    exact (recompute_touches _ _).step (onPc_touches _ _)
  have hvsc : v.sc = s.sc := hset.sc_eq.trans hsc
  have hkept : PowerKept v.pc (commandZeroReached v).pc := (commandZeroReached_reaches v).powerKept
  refine ⟨pcTake x (pcTook s), exec_pcUpdate hs hx hdue, ?_⟩
  rw [ht, hkept.exhausted, hkept.derate]
  intro lObc p
  have hp : v.pc.pCmd = p := by
    have hobc : lObcOf u = lObc := by
      rw [lObcOf_eq hexhausted, hcfg]
      show _ = if v.pc.exhausted = true ∨ v.pc.derate = .trip then 0 else _
      rw [hvpc]
    rw [hvpc]
    show quantise (closingStep u) = p
    rw [quantise, closingStep, hobc, lStationOf, hpCmd, hsc, hcfg]
  refine ⟨fun habove => ?_, fun hzero hflag => ?_⟩
  · have hsame : commandZeroReached v = v := by
      refine commandZeroReached_of_not ?_
      rcases habove with h | h
      · exact .inr (.inl (by rw [hp]; omega))
      · exact .inr (.inr (by rw [hvsc]; exact h))
    have hallow : v.pc.aH = pHeatBatt s := by
      rw [hvpc]
      show allowanceOf x.vBus u = _
      rw [allowanceOf_resting (by simp [hsc, hclosing]) (by simp [hsc, hclosing]), if_neg (by simp [hsc, hclosing]), pHeatBatt,
        pHeatBatt, hsc]
    rw [hsame]
    refine ⟨hp, hallow, hvsc, ?_, hframe.mono.step hset⟩
    rw [hvpc, hv]
    show (recompute x.vBus u).hc = if allowanceOf x.vBus u = s.pc.aH then s.hc else s.hc.fit (allowanceOf x.vBus u)
    rw [recompute_heater, haH, hhc]
  · have hclosed := commandZeroReached_closed (s := v) (by rw [hvsc]; exact hclosing) (hp.trans hzero) (by rw [hvsc]; exact hflag)
    have hsince : Tells [.derate, .capture] [.derateChanged] s v := htells.silent hset
    rw [hvsc] at hclosed
    exact hclosed.before hsince (hset.ea_eq.trans hframe.ea_eq) (hset.ct_eq.trans hframe.ct_eq)
      (hset.rs_eq.trans hframe.rs_eq) (by rw [hvsc]) (by rw [hvsc]) (by rw [hvsc]) (by rw [hvsc])

end Sys2Proof.Machine

/-! PROOFS. The tick: clock and counts, the periodic timer, the closes of a tick and of a time set, and the intervals
they open (R126, R127, R132 to R137, R143, R174). -/

namespace Sys2Proof.Machine

set_option Elab.async false

/-! ## Tells of the snapshot engine's own counts -/

/-- An update of the engine's timers tells nothing. -/
theorem Tells.of_timers {ns : List Notice} {srcs : List Source} {s t : State} (hports : t.ports = s.ports)
    (hvectors : t.se.vectors = s.se.vectors) (hwaiting : t.se.waiting = s.se.waiting) (hmissed : t.se.missed = s.se.missed) :
    Tells ns srcs s t where
  flags p n _ := by rw [hports]
  raised p n _ h := by rwa [hports]
  vectors := hvectors
  still src _ := by
    rw [NotFired, hwaiting, hmissed]
    exact ⟨rfl, rfl⟩
  kept src h := by rwa [hwaiting]

/-! ## The price (R132) -/

theorem priceOf_congr {s t : State} {k : Payer} (hactive : (t.ct.kind k).active = (s.ct.kind k).active)
    (hvalid : t.ct.valid = s.ct.valid) (hsec : t.ct.sec = s.ct.sec) : priceOf k t = priceOf k s := by
  simp only [priceOf, hactive, hvalid, hsec]

section
variable (s : State)

theorem lookUpPrice_ct : (lookUpPrice s).ct = { s.ct with
    price := priceOf s.sc.record.payer s
    interval := s.ct.interval.map fun i =>
      if priceOf s.sc.record.payer s = s.ct.price then i else { i with flags := { i.flags with mixedPrice := true } } } := rfl

theorem kind_of_price (c : ClockTariff) (p : Nat) (i : Option Interval) (k : Payer) :
    ({ c with price := p, interval := i } : ClockTariff).kind k = c.kind k := by
  cases k <;> rfl

theorem priceOf_lookUpPrice (k : Payer) : priceOf k (lookUpPrice s) = priceOf k s :=
  priceOf_congr (by rw [lookUpPrice_ct, kind_of_price]) rfl rfl

/-- Looked up again at once, the price changes nothing. -/
theorem lookUpPrice_twice : lookUpPrice (lookUpPrice s) = lookUpPrice s := by
  have hct : (lookUpPrice (lookUpPrice s)).ct = (lookUpPrice s).ct := by
    rw [lookUpPrice_ct (lookUpPrice s)]
    have hprice : priceOf (lookUpPrice s).sc.record.payer (lookUpPrice s) = (lookUpPrice s).ct.price := priceOf_lookUpPrice s _
    rw [hprice]
    simp
  show { lookUpPrice s with ct := (lookUpPrice (lookUpPrice s)).ct } = lookUpPrice s
  rw [hct]

/-- The clock and tariff unit with an interval just opened (R133). -/
theorem openInterval_ct (n : Nat) : (openInterval n s).ct = { s.ct with
    price := priceOf s.sc.record.payer s
    interval := some
      { index := n
        startDay := if s.ct.valid then s.ct.day else 0
        startSec := if s.ct.valid then s.ct.sec else s.ct.elapsed
        openElapsed := s.ct.elapsed
        base := s.ea.session.whole
        latched := s.cfg.billIntervalMin
        flags := ⟨!s.ct.valid, (s.ct.kind s.sc.record.payer).active.isNone, false, false, false, false⟩ } } := rfl

theorem openInterval_kind (n : Nat) (k : Payer) : (openInterval n s).ct.kind k = s.ct.kind k := by
  rw [openInterval_ct, kind_of_price]

theorem priceOf_openInterval (n : Nat) (k : Payer) : priceOf k (openInterval n s) = priceOf k s :=
  priceOf_congr (by rw [openInterval_kind]) rfl rfl

/-- An interval opens with the price of its moment, so that a look-up at once changes nothing. -/
theorem lookUpPrice_openInterval (n : Nat) : lookUpPrice (openInterval n s) = openInterval n s := by
  have hct : (lookUpPrice (openInterval n s)).ct = (openInterval n s).ct := by
    have hprice : priceOf (openInterval n s).sc.record.payer (openInterval n s) = (openInterval n s).ct.price :=
      priceOf_openInterval s n _
    rw [lookUpPrice_ct, hprice]
    simp
  show { openInterval n s with ct := (lookUpPrice (openInterval n s)).ct } = openInterval n s
  rw [hct]

variable {s}

/-- An interval opened after an event of the billing blocks: the account, the items and the session record are those before. -/
theorem openInterval_opened {w : State} (n : Nat) (hea : w.ea.session = s.ea.session) (hcfg : w.cfg = s.cfg)
    (hpayer : w.sc.record.payer = s.sc.record.payer) : IntervalOpened n s (openInterval n w) where
  interval := by
    refine ⟨_, by rw [openInterval_ct], rfl, rfl, fun hv => ?_, fun hv => ?_, ?_, ?_, ?_⟩
    · have hv' : w.ct.valid = true := hv
      simp [hv', openInterval_ct]
    · have hv' : w.ct.valid = false := hv
      simp [hv', openInterval_ct]
    · rw [hea]
      rfl
    · rw [hcfg]
    · rw [openInterval_kind, hpayer]
      rfl
  price := by
    rw [priceOf_openInterval, ← hpayer]
    rfl

theorem IntervalOpened.of_ct {n : Nat} {t u : State} (h : IntervalOpened n s t) (hct : u.ct = t.ct) : IntervalOpened n s u := by
  obtain ⟨hinterval, hprice⟩ := h
  refine ⟨by rwa [hct], ?_⟩
  rw [hct, hprice]
  exact (priceOf_congr (by rw [hct]) (by rw [hct]) (by rw [hct])).symm

/-- A real close and the next interval after it (R137). -/
theorem realClose_opens {reason : BillingReason} {i : Interval} (n : Nat) {u : State} {w : State}
    (hw : w = realClose reason false i u) (hea : u.ea.session = s.ea.session) (hcfg : u.cfg = s.cfg)
    (hpayer : u.sc.record.payer = s.sc.record.payer) (f : ClockTariff → ClockTariff) :
    IntervalOpened n s (openInterval n (w.onCt f)) := by
  have hframe := realClose_touches reason false i u
  refine openInterval_opened n ?_ ?_ ?_
  · rw [State.onCt_ea, hw, hframe.ea_eq, hea]
  · rw [State.onCt_cfg, hw, hframe.cfg_eq, hcfg]
  · rw [State.onCt_sc, hw, hframe.sc_eq, hpayer]

end

/-! ## The second counted (R126, R134, R166) -/

/-- The state of the next tick, its second counted. -/
def ticked (s : State) : State := countSecond (elapse (toNextTick s) s)

section
variable {s : State}

theorem elapse_ct (dt : Nat) (s : State) : (elapse dt s).ct = { s.ct with timebase := s.ct.timebase + dt } := by
  unfold elapse
  dsimp only
  split <;> rfl

theorem countSecond_high (h : s.resetLow = false) : countSecond s =
    ((s.onCt fun c => { c.second with
      timebase := c.timebase - 1000, elapsed := if s.ea.accruing then satAdd max32 c.elapsed 1 else c.elapsed }).onIm
        fun m => { m with uptime := satAdd max32 m.uptime 1 }).onSe fun e => { e with uptime := satAdd max32 e.uptime 1 } := by
  simp only [countSecond, State.onCt_resetLow, h]
  rfl

/-- The clock a second later, as the statements read it. -/
structure Ticked (s v : State) : Prop where
  clock : v.ct = { s.ct with
    sec := if s.ct.sec = 86399 then 0 else s.ct.sec + 1
    day := if s.ct.sec = 86399 then (s.ct.day + 1) % 65536 else s.ct.day
    timebase := 0
    elapsed := if s.ea.accruing then min 4294967295 (s.ct.elapsed + 1) else s.ct.elapsed }
  monitor : v.im = { (elapse (1000 - s.ct.timebase) s).im with uptime := min 4294967295 (s.im.uptime + 1) }
  engine : v.se.uptime = min 4294967295 (s.se.uptime + 1) ∧ v.se.periodic = s.se.periodic
  frame : Touches [.ct, .im, .se] (elapse (1000 - s.ct.timebase) s) v
  tells : Tells [] [] s v
  billed : v.rs = s.rs ∧ v.ea.session = s.ea.session ∧ v.cfg = s.cfg ∧ v.sc.record = s.sc.record ∧ v.resetLow = s.resetLow

theorem ticked_ticks (h : s.resetLow = false) (hbase : s.ct.timebase ≤ 1000) : Ticked s (ticked s) := by
  have hlow : (elapse (toNextTick s) s).resetLow = false := by rw [elapse_resetLow]; exact h
  have hrest : s.ct.timebase + toNextTick s - 1000 = 0 := by
    unfold toNextTick
    omega
  have hea : (elapse (toNextTick s) s).ea.accruing = s.ea.accruing ∧ (elapse (toNextTick s) s).ea.session = s.ea.session := by
    rw [elapse_ea h]
    exact ⟨rfl, rfl⟩
  have him : (elapse (toNextTick s) s).im.uptime = s.im.uptime := by
    rw [elapse_im_high h]
    rfl
  have hframe := countSecond_touches (elapse (toNextTick s) s)
  have hse : Tells [] [] (elapse (toNextTick s) s) (countSecond (elapse (toNextTick s) s)) := by
    rw [countSecond_high hlow]
    exact .of_timers rfl rfl rfl rfl
  refine ⟨?_, ?_, ?_, hframe, (elapse_tells [] [] _ s).trans hse, hframe.rs_eq.trans (elapse_rs _ _), ?_,
    hframe.cfg_eq.trans (elapse_cfg _ _), ?_, ?_⟩
  · rw [ticked, countSecond_high hlow, State.onSe_ct, State.onIm_ct, State.onCt_ct, ClockTariff.second_eq, elapse_ct, hea.1]
    dsimp only
    rw [hrest]
    rfl
  · rw [ticked, countSecond_high hlow, State.onSe_im, State.onIm_im, State.onCt_im, him]
    rfl
  · rw [ticked, countSecond_high hlow, State.onSe_se, State.onIm_se, State.onCt_se, elapse_se h]
    exact ⟨rfl, rfl⟩
  · rw [ticked, hframe.ea_eq]
    exact hea.2
  · rw [ticked, hframe.sc_eq, elapse_sc h]
    rfl
  · rw [ticked, hframe.resetLow_eq, elapse_resetLow]

/-! ## The periodic timer (R174) -/

theorem occur_timers (src : Source) (s : State) : (occur src s).se.periodic = s.se.periodic ∧
    (occur src s).se.uptime = s.se.uptime := by
  have hse : (background (occur src s)).se = (background s).se := by rw [occur_quiet src s]
  have hperiodic := congrArg SnapshotEngine.periodic hse
  have huptime := congrArg SnapshotEngine.uptime hse
  exact ⟨hperiodic, huptime⟩

theorem periodicDue_iff (s : State) : periodicDue s = true ↔ 0 < s.cfg.snapPeriodS ∧ s.cfg.snapPeriodS ≤ s.se.periodic + 1 := by
  simp [periodicDue]

/-- What the periodic timer does at a tick. -/
structure PeriodicCounted (s t : State) : Prop where
  frame : Touches signals s t
  tells : Tells [.capture] [.periodic] s t
  uptime : t.se.uptime = s.se.uptime
  off : s.cfg.snapPeriodS = 0 → t.se.periodic = 0 ∧ NotFired .periodic s t
  runs : 0 < s.cfg.snapPeriodS → s.se.periodic + 1 < s.cfg.snapPeriodS →
    t.se.periodic = s.se.periodic + 1 ∧ NotFired .periodic s t
  fires : 0 < s.cfg.snapPeriodS → s.cfg.snapPeriodS ≤ s.se.periodic + 1 → t.se.periodic = 0 ∧ Fired .periodic s t

theorem countPeriodic_counted (s : State) : PeriodicCounted s (countPeriodic s) := by
  have hset (f : SnapshotEngine → SnapshotEngine) (hv : (f s.se).vectors = s.se.vectors) (hw : (f s.se).waiting = s.se.waiting)
      (hm : (f s.se).missed = s.se.missed) : Tells [] [] s (s.onSe f) := .of_timers rfl hv hw hm
  cases h : periodicDue s with
  | true =>
    obtain ⟨h1, h2⟩ := (periodicDue_iff s).mp h
    have hc : countPeriodic s = occur .periodic (s.onSe fun e => { e with periodic := 0 }) := if_pos h
    have hbefore := hset (fun e => { e with periodic := 0 }) rfl rfl rfl
    rw [hc]
    obtain ⟨ht1, ht2⟩ := occur_timers .periodic (s.onSe fun e => { e with periodic := 0 })
    exact ⟨by rw [← hc]; exact countPeriodic_touches s, hbefore.mono.trans (occur_tells _ _), ht2, fun h0 => by omega,
      fun _ hlt => by omega, fun _ _ => ⟨ht1, hbefore.fired_since (occur_fired _ _)⟩⟩
  | false =>
    have hc : countPeriodic s = s.onSe fun e => { e with periodic := if 0 < s.cfg.snapPeriodS then e.periodic + 1 else 0 } :=
      if_neg (by simp [h])
    have hno : ¬ (0 < s.cfg.snapPeriodS ∧ s.cfg.snapPeriodS ≤ s.se.periodic + 1) := by
      rw [← periodicDue_iff, h]
      simp
    have htells := hset (fun e => { e with periodic := if 0 < s.cfg.snapPeriodS then e.periodic + 1 else 0 }) rfl rfl rfl
    rw [hc]
    exact ⟨by rw [← hc]; exact countPeriodic_touches s, htells.mono, rfl,
      fun h0 => ⟨if_neg (by omega), htells.still _ (by simp)⟩, fun h0 _ => ⟨if_pos h0, htells.still _ (by simp)⟩,
      fun h1 h2 => absurd ⟨h1, h2⟩ hno⟩

/-! ## The close of a tick (R135, R137, R143) -/

theorem mergedClose_tells (i : Interval) (s : State) : Tells [.billing] [] s (mergedClose i s) :=
  (Tells.of_touches (onCt_touches s _)).step (raiseAll_tells _ _)

theorem mergedClose_raised (i : Interval) (s : State) : Raised .billing (mergedClose i s) := raiseAll_raised _ _

/-- A close of a tick that merges, its price looked up. -/
def tickMerged (i : Interval) (s : State) : State := lookUpPrice (mergedClose i s)

/-- A close of a tick that is real, with the next interval. -/
def tickReal (reason : BillingReason) (i : Interval) (s : State) : State :=
  openInterval ((i.index + 1) % 65536) (realClose reason false i s)

theorem tickClose_real {reason : BillingReason} {i : Interval} (h : placeable s = true) :
    tickClose reason i s = tickReal reason i s := if_pos h

theorem tickClose_merged {reason : BillingReason} {i : Interval} (h : placeable s = false) :
    tickClose reason i s = tickMerged i s := if_neg (by simp [h])

/-- A close has looked its price up. -/
theorem lookUpPrice_tickClose (reason : BillingReason) (i : Interval) (s : State) :
    lookUpPrice (tickClose reason i s) = tickClose reason i s := by
  cases h : placeable s with
  | true => rw [tickClose_real h, tickReal, lookUpPrice_openInterval]
  | false => rw [tickClose_merged h, tickMerged, lookUpPrice_twice]

theorem closeAtTick_close {i : Interval} {r : BillingReason} (hi : s.ct.interval = some i) (hr : tickCause s = some r) :
    closeAtTick s = tickClose r i s := by
  simp only [closeAtTick, hi, hr, lookUpPrice_tickClose, ite_self]

theorem closeAtTick_none (hr : tickCause s = none) : closeAtTick s = if minuteTick s.ct then lookUpPrice s else s := by
  unfold closeAtTick
  cases h : s.ct.interval <;> simp only [hr]

theorem tickReal_tells (reason : BillingReason) (i : Interval) (s : State) :
    Tells [.stream, .billing, .tariff, .capture] [.intervalClosed, .tariffApplied] s (tickReal reason i s) :=
  (realClose_tells reason false i s).silent (openInterval_touches _ _)

theorem tickMerged_tells (i : Interval) (s : State) : Tells [.billing] [] s (tickMerged i s) :=
  (mergedClose_tells i s).silent (lookUpPrice_touches _)

theorem closeAtTick_tells (s : State) :
    Tells [.stream, .billing, .tariff, .capture] [.intervalClosed, .tariffApplied] s (closeAtTick s) := by
  cases hr : tickCause s with
  | none =>
    rw [closeAtTick_none hr]
    exact .ite (.of_touches (lookUpPrice_touches s)) (.refl _ _ _)
  | some r =>
    cases hi : s.ct.interval with
    | none => simp [tickCause, hi] at hr
    | some i =>
      rw [closeAtTick_close hi hr]
      cases h : placeable s with
      | true =>
        rw [tickClose_real h]
        exact tickReal_tells r i s
      | false =>
        rw [tickClose_merged h]
        exact (tickMerged_tells i s).mono

/-- A real close leaves the clock, the elapsed count and the cost. -/
theorem realClose_clock (reason : BillingReason) (lockout : Bool) (i : Interval) (s : State) :
    (realClose reason lockout i s).ct.sec = s.ct.sec ∧ (realClose reason lockout i s).ct.day = s.ct.day ∧
      (realClose reason lockout i s).ct.valid = s.ct.valid ∧ (realClose reason lockout i s).ct.timebase = s.ct.timebase ∧
      (realClose reason lockout i s).ct.elapsed = s.ct.elapsed := by
  have hct : (background (realClose reason lockout i s)).ct = (background s).ct := by rw [realClose_quiet reason lockout i s]
  have hsec := congrArg ClockTariff.sec hct
  have hday := congrArg ClockTariff.day hct
  have hvalid := congrArg ClockTariff.valid hct
  have hbase := congrArg ClockTariff.timebase hct
  have helapsed := congrArg ClockTariff.elapsed hct
  exact ⟨hsec, hday, hvalid, hbase, helapsed⟩

theorem closeAtTick_clock (s : State) : (closeAtTick s).ct.sec = s.ct.sec ∧ (closeAtTick s).ct.day = s.ct.day ∧
    (closeAtTick s).ct.valid = s.ct.valid ∧ (closeAtTick s).ct.timebase = s.ct.timebase ∧
    (closeAtTick s).ct.elapsed = s.ct.elapsed := by
  cases hr : tickCause s with
  | none =>
    rw [closeAtTick_none hr]
    split <;> exact ⟨rfl, rfl, rfl, rfl, rfl⟩
  | some r =>
    cases hi : s.ct.interval with
    | none => simp [tickCause, hi] at hr
    | some i =>
      rw [closeAtTick_close hi hr]
      cases h : placeable s with
      | true =>
        rw [tickClose_real h]
        exact realClose_clock r false i s
      | false =>
        rw [tickClose_merged h]
        exact ⟨rfl, rfl, rfl, rfl, rfl⟩

end

theorem exec_clockTick {s : State} (h : s.resetLow = false) :
    exec .clockTick s = .next (countPeriodic (closeAtTick (ticked s))) := by
  have hlow : (ticked s).resetLow = false := by
    rw [ticked, (countSecond_touches _).resetLow_eq, elapse_resetLow]
    exact h
  show Host.Outcome.next (if (ticked s).resetLow then ticked s else countPeriodic (closeAtTick (ticked s))) = _
  rw [hlow]
  rfl

/-- Settles O39. -/
theorem ticksAdvanceTheClockAndTheCounts : Obligations.TicksAdvanceTheClockAndTheCounts := by
  refine ⟨fun s hs hbase => ?_, fun s => ⟨fun hlow h0 hdue => ?_, fun hno => ?_⟩⟩
  · intro u sec day elapsed
    obtain ⟨hclock, hmonitor, ⟨huptime, hperiodic⟩, hframe, htells, -, -, hcfg, hrecord, -⟩ := ticked_ticks hs hbase
    obtain ⟨hsec, hday, hvalid, htimebase, helapsed⟩ := closeAtTick_clock (ticked s)
    have hclose := closeAtTick_touches (ticked s)
    have hctells := closeAtTick_tells (ticked s)
    have hquiet : (background (closeAtTick (ticked s))).se = (background (ticked s)).se := by
      exact (closeAtTick_reaches (ticked s)).within .se (by simp)
    have hcp : (closeAtTick (ticked s)).se.periodic = s.se.periodic := by
      have h := congrArg SnapshotEngine.periodic hquiet
      exact Eq.trans h hperiodic
    have hcu : (closeAtTick (ticked s)).se.uptime = min 4294967295 (s.se.uptime + 1) := by
      have h := congrArg SnapshotEngine.uptime hquiet
      exact Eq.trans h huptime
    obtain ⟨hpframe, hptells, hpup, hoff, hruns, hfires⟩ := countPeriodic_counted (closeAtTick (ticked s))
    have hsnap : (closeAtTick (ticked s)).cfg.snapPeriodS = s.cfg.snapPeriodS := by rw [hclose.cfg_eq, hcfg]
    have hsince : Tells [.stream, .billing, .tariff, .capture] [.intervalClosed, .tariffApplied] s (closeAtTick (ticked s)) :=
      htells.mono.trans hctells
    have hnot : NotFired .periodic s (closeAtTick (ticked s)) := hsince.still _ (by decide)
    rw [hsnap] at hoff hruns hfires
    rw [hcp] at hruns hfires
    refine ⟨_, exec_clockTick hs, ?_, ?_, ?_, ?_, ?_, ?_, ?_, ?_, ?_, ?_, fun hnone => ⟨?_, ?_, ?_⟩⟩
    · rw [hpframe.ct_eq, hsec, hclock]
    · rw [hpframe.ct_eq, hday, hclock]
    · rw [hpframe.ct_eq, hvalid, hclock]
    · rw [hpframe.ct_eq, htimebase, hclock]
    · rw [hpframe.ct_eq, helapsed, hclock]
    · rw [hpframe.im_eq, hclose.im_eq, hmonitor]
    · rw [hpup, hcu]
    · intro h0
      exact ⟨(hoff h0).1, hnot.trans (hoff h0).2⟩
    · intro h0 hlt
      exact ⟨(hruns h0 hlt).1, hnot.trans (hruns h0 hlt).2⟩
    · intro h0 hge
      exact ⟨(hfires h0 hge).1, hsince.fired_since (hfires h0 hge).2⟩
    all_goals have hcause : tickCause (ticked s) = none := by simp [tickCause, hclock, hnone]
    all_goals have hidle := closeAtTick_none hcause
    · rw [hpframe.ct_eq, hidle, minuteTick, hclock]
      dsimp only
      by_cases hm : sec % 60 = 0
      · have hmin : ((if s.ct.sec = 86399 then 0 else s.ct.sec + 1) % 60 == 0) = true := beq_iff_eq.mpr hm
        have hprice : priceOf s.sc.record.payer (ticked s) = priceOf s.sc.record.payer { s with ct := { s.ct with sec := sec } } := by
          refine priceOf_congr ?_ (by rw [hclock]) (by rw [hclock])
          rw [hclock]
          cases s.sc.record.payer <;> rfl
        rw [if_pos hmin, if_pos hm, lookUpPrice_ct, hrecord, hprice, hclock]
        dsimp only
        rw [hnone]
        rfl
      · have hmin : ¬ ((if s.ct.sec = 86399 then 0 else s.ct.sec + 1) % 60 == 0) = true := fun h => hm (beq_iff_eq.mp h)
        rw [if_neg hmin, if_neg hm, hclock]
    · have hquiet : Tells [.capture] [.periodic] s (closeAtTick (ticked s)) := by
        rw [hidle]
        exact .ite (htells.mono.silent (lookUpPrice_touches _)) htells.mono
      exact (hquiet.trans hptells).flags
    · have hct : Touches [.ct] (ticked s) (closeAtTick (ticked s)) := by
        rw [hidle]
        exact .ite (lookUpPrice_touches _) (.refl _ _)
      exact (hframe.mono.step hct).step hpframe
  · show Host.Outcome.next (if periodicDue s && !s.resetLow then nextTick s else s) = _
    rw [if_pos (by simp [(periodicDue_iff s).mpr ⟨h0, hdue⟩, hlow])]
    rfl
  · show Host.Outcome.next (if periodicDue s && !s.resetLow then nextTick s else s) = _
    rw [if_neg]
    rw [Bool.and_eq_true, periodicDue_iff]
    rintro ⟨⟨h1, h2⟩, h3⟩
    rcases hno with h | h | h
    · simp [h] at h3
    · omega
    · omega

end Sys2Proof.Machine

/-! PROOFS. The closes of a tick by their causes, and the close of a time set (R127, R134 to R137, R143). -/

namespace Sys2Proof.Machine

set_option Elab.async false

/-! ## The causes (R135) -/

section
variable {s : State}

theorem isPeriod_iff (k : TariffKind) (c : ClockTariff) : isPeriod k c = true ↔ c.valid = true ∧ c.sec % 60 = 0 ∧
    ∃ tab, k.active = some tab ∧ 1 < tab.length ∧ ∃ p ∈ tab, p.start = c.sec / 60 := by
  rw [isPeriod]
  cases k.active with
  | none => simp
  | some tab => simp [minuteTick, minuteOf, and_assoc]

theorem isBoundary_iff (n : Nat) (c : ClockTariff) : isBoundary n c = true ↔
    (c.valid = true ∧ c.sec % 60 = 0 ∧ c.sec / 60 % n = 0) ∨
      (c.valid = false ∧ 0 < c.elapsed ∧ c.elapsed % (60 * n) = 0) := by
  rw [isBoundary]
  cases c.valid <;> simp [minuteTick, minuteOf]

theorem tickCause_period {i : Interval} (hi : s.ct.interval = some i)
    (h : isPeriod (s.ct.kind s.sc.record.payer) s.ct = true) : tickCause s = some .period := by
  rw [tickCause, hi]
  exact if_pos h

theorem tickCause_boundary {i : Interval} (hi : s.ct.interval = some i)
    (h : ¬ isPeriod (s.ct.kind s.sc.record.payer) s.ct = true) (hb : isBoundary i.latched s.ct = true) :
    tickCause s = some .boundary := by
  rw [tickCause, hi]
  exact (if_neg h).trans (if_pos hb)

theorem tickCause_none {i : Interval} (hi : s.ct.interval = some i)
    (h : ¬ isPeriod (s.ct.kind s.sc.record.payer) s.ct = true) (hb : ¬ isBoundary i.latched s.ct = true) :
    tickCause s = none := by
  rw [tickCause, hi]
  exact (if_neg h).trans (if_neg hb)

theorem nextCause_high (h : s.resetLow = false) : nextCause s = tickCause (ticked s) := if_neg (by simp [h])

/-- The state with the elapsed count of the tick: what the record of a close is formed from. -/
def elapsedTo (n : Nat) (s : State) : State := { s with ct := { s.ct with elapsed := n } }

end

/-! ## What follows a close of a tick -/

theorem tickReal_placed (reason : BillingReason) (i : Interval) (s : State) :
    RecordPlaced reason false i s (tickReal reason i s) := by
  have hopen : Tells [] [] (realClose reason false i s) (tickReal reason i s) := .of_touches (openInterval_touches _ _)
  exact realClose_placed.after hopen (openInterval_touches _ _).rs_eq rfl rfl rfl fun k => openInterval_kind _ _ _

/-- A merged close keeps the interval going: its length latched, MERGED set, MIXED_PRICE where the price changes (R143). -/
theorem tickMerged_ct (i : Interval) (s : State) : (tickMerged i s).ct = { s.ct with
    price := priceOf s.sc.record.payer s
    interval := some { i with
      latched := s.cfg.billIntervalMin
      flags := { i.flags with
        merged := true
        mixedPrice := i.flags.mixedPrice || decide (priceOf s.sc.record.payer s ≠ s.ct.price) } } } := by
  have hprice : priceOf s.sc.record.payer (mergedClose i s) = priceOf s.sc.record.payer s :=
    priceOf_congr (by cases s.sc.record.payer <;> rfl) rfl rfl
  have hsc : (mergedClose i s).sc = s.sc := (mergedClose_touches i s).sc_eq
  have hct : (mergedClose i s).ct = { s.ct with
    interval := some { i with latched := s.cfg.billIntervalMin, flags := { i.flags with merged := true } } } := rfl
  rw [tickMerged, lookUpPrice_ct, hsc, hprice, hct]
  by_cases hp : priceOf s.sc.record.payer s = s.ct.price <;> simp [hp]

theorem kind_of_clock {s : State} {v : ClockTariff} (hstation : v.station = s.ct.station) (hfleet : v.fleet = s.ct.fleet)
    (k : Payer) : v.kind k = s.ct.kind k := by
  cases k
  · exact hstation
  · exact hfleet

/-- A tick of no cause keeps the interval in progress and all that a close would change (R135, R136). -/
theorem closeAtTick_idle {s : State} {i : Interval} (hi : s.ct.interval = some i) (h : tickCause s = none) :
    (closeAtTick s).rs = s.rs ∧ Touches [.ct] s (closeAtTick s) ∧
      ∃ p j, j.index = i.index ∧ (closeAtTick s).ct = { s.ct with price := p, interval := some j } := by
  rw [closeAtTick_none h]
  split
  · refine ⟨rfl, lookUpPrice_touches s, _, _, ?_, by rw [lookUpPrice_ct, hi]; rfl⟩
    split <;> rfl
  · refine ⟨rfl, .refl _ _, s.ct.price, i, rfl, ?_⟩
    rw [← hi]

/-- Settles O40. -/
theorem ticksCloseIntervalsByCause : Obligations.TicksCloseIntervalsByCause := by
  intro s i hs hbase hi payer sec elapsed period boundary room s1
  obtain ⟨hclock, -, -, hframe, htells, hrs, hea, hcfg, hrecord, -⟩ := ticked_ticks hs hbase
  have hkind (k : Payer) : (ticked s).ct.kind k = s.ct.kind k :=
    kind_of_clock (by rw [hclock]) (by rw [hclock]) k
  have hvi : (ticked s).ct.interval = some i := by rw [hclock]; exact hi
  have hperiod : isPeriod ((ticked s).ct.kind (ticked s).sc.record.payer) (ticked s).ct = true ↔ period := by
    rw [isPeriod_iff, hkind, hrecord, hclock]
  have hboundary : isBoundary i.latched (ticked s).ct = true ↔ boundary := by
    rw [isBoundary_iff, hclock]
  have hplaceable : placeable (ticked s) = true ↔ room := by
    rw [placeable_congr hrs (by rw [hclock]), placeable_iff]
  have hcause := nextCause_high hs
  have hprice : priceOf payer (ticked s) = priceOf payer { s with ct := { s.ct with sec := sec } } := by
    refine priceOf_congr ?_ (by rw [hclock]) (by rw [hclock])
    rw [hkind]
    exact congrArg TariffKind.active (kind_of_clock (s := s) rfl rfl payer).symm
  have hvpayer : (ticked s).sc.record.payer = payer := by rw [hrecord]
  have hform (reason : BillingReason) : formRecord reason false i (ticked s) = formRecord reason false i s1 := by
    refine formRecord_congr (by rw [hrecord]) (by rw [hrecord]) ?_ hea (by rw [hclock]) (by rw [hclock]) (by rw [hclock])
      (by rw [hclock])
    rw [hkind]
    exact (kind_of_clock rfl rfl _).symm
  have hexecP : exec .periodClose s = .next (if nextCause s = some .period then nextTick s else s) := rfl
  have hexecB : exec .boundaryClose s = .next (if nextCause s = some .boundary then nextTick s else s) := rfl
  have htick : exec .clockTick s = .next (nextTick s) := rfl
  have hcauseP (h : period) : nextCause s = some .period := hcause.trans (tickCause_period hvi (hperiod.mpr h))
  have hcauseB (h : ¬ period) (hb : boundary) : nextCause s = some .boundary :=
    hcause.trans (tickCause_boundary hvi (fun hp => h (hperiod.mp hp)) (hboundary.mpr hb))
  have hcauseN (h : ¬ period) (hb : ¬ boundary) : nextCause s = none :=
    hcause.trans (tickCause_none hvi (fun hp => h (hperiod.mp hp)) fun hp => hb (hboundary.mp hp))
  refine ⟨fun h => ?_, fun h => ?_, fun ⟨hb, h⟩ => ?_, fun h => ?_, fun reason hreason => ⟨?_, _, exec_clockTick hs,
    fun hroom => ?_, fun hroom => ?_⟩, fun h hb => ⟨_, exec_clockTick hs, ?_⟩⟩
  · rw [hexecP, htick, if_pos (hcauseP h)]
  · rw [hexecP, if_neg]
    by_cases hb : boundary
    · rw [hcauseB h hb]
      simp
    · rw [hcauseN h hb]
      simp
  · rw [hexecB, htick, if_pos (hcauseB h hb)]
  · rw [hexecB, if_neg]
    by_cases hp : period
    · rw [hcauseP hp]
      simp
    · rw [hcauseN hp (h.resolve_left hp)]
      simp
  · have hfinal : (reason == .final || reason == .aborted) = false ∧ (reason == .aborted) = false := by
      rcases hreason with ⟨h, -⟩ | ⟨h, -⟩ <;> subst h <;> exact ⟨rfl, rfl⟩
    have hk : s1.ct.kind s.sc.record.payer = s.ct.kind s.sc.record.payer := kind_of_clock rfl rfl _
    show formRecord reason false i s1 = _
    rw [formRecord]
    dsimp only [payerNow]
    rw [hfinal.1, hfinal.2]
    rw [show s1.sc = s.sc from rfl, hk]
    rfl
  all_goals have hptells := (countPeriodic_counted (closeAtTick (ticked s))).tells
  all_goals have hpframe := countPeriodic_touches (closeAtTick (ticked s))
  · have hclose : closeAtTick (ticked s) = tickReal reason i (ticked s) := by
      rw [closeAtTick_close (r := reason) hvi, tickClose_real (hplaceable.mpr hroom)]
      rw [← hcause]
      rcases hreason with ⟨rfl, h⟩ | ⟨rfl, hb, h⟩
      · exact hcauseP h
      · exact hcauseB h hb
    rw [hclose] at hptells hpframe ⊢
    refine ⟨?_, ?_⟩
    · have hplaced := (tickReal_placed reason i (ticked s)).after hptells hpframe.rs_eq (by rw [hpframe.ct_eq])
        (by rw [hpframe.ct_eq]) (by rw [hpframe.ct_eq]) fun k => by rw [hpframe.ct_eq]
      refine hplaced.before (hform reason) hrs (by rw [hclock]) (by rw [hclock]) (fun k => ?_) (by rw [hrecord]) htells.vectors
      rw [hkind]
      exact (kind_of_clock rfl rfl _).symm
    · exact (realClose_opens (s := s) ((i.index + 1) % 65536) rfl hea hcfg (by rw [hrecord]) id).of_ct hpframe.ct_eq
  · have hclose : closeAtTick (ticked s) = tickMerged i (ticked s) := by
      rw [closeAtTick_close (r := reason) hvi, tickClose_merged (by rw [← Bool.not_eq_true, hplaceable]; exact hroom)]
      rw [← hcause]
      rcases hreason with ⟨rfl, h⟩ | ⟨rfl, hb, h⟩
      · exact hcauseP h
      · exact hcauseB h hb
    rw [hclose] at hptells hpframe ⊢
    have hmerged : Tells [.billing, .capture] [.periodic] s (tickMerged i (ticked s)) :=
      htells.mono.trans (tickMerged_tells i (ticked s)).mono
    have hsince : Tells [.billing, .capture] [.periodic] s (countPeriodic (tickMerged i (ticked s))) := hmerged.step hptells
    have hraised : Raised .billing (countPeriodic (tickMerged i (ticked s))) :=
      hptells.raised_of ((Tells.of_touches (ns := []) (srcs := []) (lookUpPrice_touches _)).raised_of (mergedClose_raised i _))
    have hct := hpframe.ct_eq
    rw [tickMerged_ct, hvpayer, hprice] at hct
    refine ⟨?_, by rw [hct], by rw [hct, hclock], by rw [hct, hclock], by rw [hct, hclock], ?_, fun k => ?_, hraised,
      hsince.still _ (by decide)⟩
    · rw [hct, hclock, hcfg]
    · have hmrs : (tickMerged i (ticked s)).rs = (ticked s).rs := rfl
      rw [hpframe.rs_eq, hmrs, hrs]
    · rw [hct, kind_of_price, hkind]
  · obtain ⟨hwrs, htouch, p, j, hj, hct⟩ := closeAtTick_idle hvi (hcause.symm.trans (hcauseN h hb))
    have hidle : Tells [.capture] [.periodic] s (closeAtTick (ticked s)) := htells.mono.silent htouch
    have hsince : Tells [.capture] [.periodic] s (countPeriodic (closeAtTick (ticked s))) := hidle.trans hptells
    rw [hclock] at hct
    rw [hpframe.ct_eq, hpframe.rs_eq, hct, hwrs]
    exact ⟨congrArg some hj, rfl, rfl, rfl, hrs, fun k => kind_of_clock rfl rfl k, hsince.still _ (by decide), hsince.flags⟩

/-! ## TIME_SET (R127) -/

section
variable {s : State} {day sec : Nat}

/-- The clock set (R127). -/
def clockSet (day sec : Nat) (s : State) : State := s.onCt (ClockTariff.setClock day sec)

theorem clockSet_ct (day sec : Nat) (s : State) :
    (clockSet day sec s).ct = { s.ct with day := day, sec := sec, valid := true, timebase := 0 } := rfl

theorem clockSet_touches (day sec : Nat) (s : State) : Touches [.ct] s (clockSet day sec s) := onCt_touches s _

theorem setTime_idle (h : s.ct.interval = none) : setTime day sec s = lookUpPrice (clockSet day sec s) := by
  simp only [setTime, h]
  rfl

theorem setTime_real {i : Interval} (h : s.ct.interval = some i) (hplace : placeable s = true) : setTime day sec s =
    openInterval ((i.index + 1) % 65536) (clockSet day sec (realClose .clockSet false i s)) := by
  simp only [setTime, h, hplace, if_true]
  rfl

theorem setTime_merged {i : Interval} (h : s.ct.interval = some i) (hplace : placeable s = false) :
    setTime day sec s = lookUpPrice (clockSet day sec (mergedClose i s)) := by
  simp only [setTime, h, hplace]
  rfl

/-- The clock as set, and the price of its minute (R127, R132). -/
theorem setTime_clock (day sec : Nat) (s : State) : (setTime day sec s).ct.day = day ∧ (setTime day sec s).ct.sec = sec ∧
    (setTime day sec s).ct.valid = true ∧ (setTime day sec s).ct.timebase = 0 ∧
    (setTime day sec s).ct.elapsed = s.ct.elapsed ∧
    (setTime day sec s).ct.price = priceOf s.sc.record.payer (setTime day sec s) := by
  have hprice (n : Nat) (w : State) (hw : w.sc = s.sc) :
      (lookUpPrice w).ct.price = priceOf s.sc.record.payer (lookUpPrice w) ∧
        (openInterval n w).ct.price = priceOf s.sc.record.payer (openInterval n w) := by
    rw [priceOf_lookUpPrice, priceOf_openInterval, ← hw]
    exact ⟨rfl, rfl⟩
  cases hi : s.ct.interval with
  | none =>
    rw [setTime_idle hi]
    exact ⟨rfl, rfl, rfl, rfl, rfl, (hprice 0 (clockSet day sec s) rfl).1⟩
  | some i =>
    cases hplace : placeable s with
    | true =>
      rw [setTime_real hi hplace]
      refine ⟨rfl, rfl, rfl, rfl, (realClose_clock .clockSet false i s).2.2.2.2, (hprice _ _ ?_).2⟩
      exact (realClose_touches .clockSet false i s).sc_eq
    | false =>
      rw [setTime_merged hi hplace]
      exact ⟨rfl, rfl, rfl, rfl, rfl, (hprice 0 (clockSet day sec (mergedClose i s)) rfl).1⟩

end

/-- Settles O41. -/
theorem timeSetClosesUnderTheOldClock : Obligations.TimeSetClosesUnderTheOldClock := by
  intro b s hs hb s0
  have hlen : lengthOk .timeSet b = true := beq_iff_eq.mpr hb
  have hfct : s0.ct = s.ct := found_ct _ _
  have hfrs : s0.rs = s.rs := found_rs _ _
  have hfsc : s0.sc = s.sc := found_sc _ _
  have hfcfg : s0.cfg = s.cfg := found_cfg _ _
  have hfea : s0.ea = s.ea := found_ea _ _
  refine ⟨fun hbad => congrArg Host.Outcome.next (request_of_answer_unchanged hs hlen rfl (if_pos hbad)), fun hgood => ?_⟩
  have hact : answerTime b s0 = ⟨setTime (u16 b 0) (u32 b 2) s0, .ok, []⟩ := if_neg (by omega)
  have hframe := setTime_touches (u16 b 0) (u32 b 2) s0
  obtain ⟨hday, hsec, hvalid, hbase, helapsed, hprice⟩ := setTime_clock (u16 b 0) (u32 b 2) s0
  rw [hfsc] at hprice
  refine ⟨setTime (u16 b 0) (u32 b 2) s0, congrArg Host.Outcome.next (request_undisturbed hs hlen rfl hact
    (hframe.pc_eq.trans (found_pc _ _)) (hframe.hc_eq.trans (found_hc _ _))), hday, hsec, hvalid, hbase, hprice,
    by rw [helapsed, hfct], fun hnone => ?_, fun i hi => ⟨fun hroom => ?_, fun hroom hheld => ?_⟩⟩
  · have hidle : setTime (u16 b 0) (u32 b 2) s0 = lookUpPrice (clockSet (u16 b 0) (u32 b 2) s0) :=
      setTime_idle (by rw [hfct]; exact hnone)
    rw [hidle]
    refine ⟨?_, (clockSet_touches _ _ _).step (lookUpPrice_touches _)⟩
    rw [lookUpPrice_ct, clockSet_ct, hfct]
    dsimp only
    rw [hnone]
    rfl
  · have hplace : placeable s0 = true := by
      rw [placeable_congr hfrs (by rw [hfct]), placeable_iff]
      exact hroom
    rw [setTime_real (by rw [hfct]; exact hi) hplace]
    refine ⟨?_, ?_⟩
    · have hreal : RecordPlaced .clockSet false i s0 (realClose .clockSet false i s0) := realClose_placed
      have htells : Tells [] [] (realClose .clockSet false i s0) (openInterval ((i.index + 1) % 65536)
          (clockSet (u16 b 0) (u32 b 2) (realClose .clockSet false i s0))) :=
        .of_touches ((clockSet_touches _ _ _).step (openInterval_touches _ _))
      exact hreal.after htells rfl rfl rfl rfl fun k => (openInterval_kind _ _ k).trans (by cases k <;> rfl)
    · exact realClose_opens (s := s) ((i.index + 1) % 65536) rfl (by rw [hfea]) hfcfg (by rw [hfsc]) _
  · have hplace : placeable s0 = false := by
      rw [placeable_congr hfrs (by rw [hfct]), not_placeable_iff]
      exact ⟨hroom, hheld⟩
    have hmerged : setTime (u16 b 0) (u32 b 2) s0 = lookUpPrice (clockSet (u16 b 0) (u32 b 2) (mergedClose i s0)) :=
      setTime_merged (by rw [hfct]; exact hi) hplace
    have htells : Tells [.billing] [] s0 (setTime (u16 b 0) (u32 b 2) s0) := by
      rw [hmerged]
      exact ((mergedClose_tells i s0).silent (clockSet_touches _ _ _)).silent (lookUpPrice_touches _)
    have hraised : Raised .billing (setTime (u16 b 0) (u32 b 2) s0) := by
      have hquiet : Tells [] [] (mergedClose i s0) (setTime (u16 b 0) (u32 b 2) s0) := by
        rw [hmerged]
        exact .of_touches ((clockSet_touches _ _ _).step (lookUpPrice_touches _))
      exact hquiet.raised_of (mergedClose_raised i s0)
    have hct : (clockSet (u16 b 0) (u32 b 2) (mergedClose i s0)).ct = { s.ct with
        day := u16 b 0, sec := u32 b 2, valid := true, timebase := 0
        interval := some { i with latched := s.cfg.billIntervalMin, flags := { i.flags with merged := true } } } := by
      rw [clockSet_ct]
      show ({ ({ s0.ct with
        interval := some { i with latched := s0.cfg.billIntervalMin, flags := { i.flags with merged := true } } } :
          ClockTariff) with day := u16 b 0, sec := u32 b 2, valid := true, timebase := 0 } : ClockTariff) = _
      rw [hfct, hfcfg]
    refine ⟨?_, ?_, ?_, ?_, fun k => ?_, hraised, (htells.still _ (by decide)).of_se (found_se _ _)⟩
    · rw [hmerged, lookUpPrice_ct, hct]
      generalize priceOf _ _ = p
      by_cases hp : p = s.ct.price <;> simp [hp]
    · rw [hmerged, lookUpPrice_ct, hct]
    · rw [hmerged, lookUpPrice_ct, hct]
    · rw [hmerged]
      exact hfrs
    · rw [hmerged, lookUpPrice_ct, hct, kind_of_price]
      cases k <;> rfl

end Sys2Proof.Machine

/-! PROOFS. The policy of a stream (R155, R156, R161). -/

namespace Sys2Proof.Machine

set_option Elab.async false

/-! ## What an offer leaves of the other streams -/

/-- The other streams stand as they stood, each record of their queues in its place. -/
def Store.OthersStay (st : Stream) (r r' : Store) : Prop :=
  ∀ st', st' ≠ st → r'.stream st' = r.stream st' ∧
    ∀ j k, (r.stream st').join = some j → recordAt j k r' = recordAt j k r

theorem Store.OthersStay.refl (st : Stream) (r : Store) : r.OthersStay st r := fun _ _ => ⟨rfl, fun _ _ _ => rfl⟩

theorem Store.OthersStay.trans {st : Stream} {r r' r'' : Store} (h : r.OthersStay st r') (h' : r'.OthersStay st r'') :
    r.OthersStay st r'' := by
  intro st' hne
  obtain ⟨h1, h2⟩ := h st' hne
  obtain ⟨h3, h4⟩ := h' st' hne
  exact ⟨h3.trans h1, fun j k hj => (h4 j k (by rw [h1]; exact hj)).trans (h2 j k hj)⟩

section
variable {s : State} {st : Stream} {j : Join} {a : Area}

theorem StoreOk.othersStay {t : State} (ok : StoreOk s) (hj : (s.rs.stream st).join = some j)
    (ha : s.rs.defined j.area = some a) (q : QueueMoved st a s.rs t.rs) : s.rs.OthersStay st t.rs :=
  fun st' hne => ⟨q.others st' hne, fun _ k hj' => ok.recordAt_other hj ha q hj' hne k⟩

theorem dropRecord_othersStay (st : Stream) (s : State) : s.rs.OthersStay st (dropRecord st s).rs := by
  refine fun st' hne => ⟨Store.stream_putStream_other s.rs hne _, fun j k _ => ?_⟩
  have hareas : (dropRecord st s).rs.areas = s.rs.areas := Store.putStream_areas _ _ _
  have hslots : (dropRecord st s).rs.slots = s.rs.slots := Store.putStream_slots _ _ _
  rw [recordAt, recordAt, hslots, Store.area_congr hareas]

/-! ## The cases of an offer -/

theorem offer_of_unjoined (rec : Record) (h : (s.rs.stream st).join = none) : offer st rec s = offerUnjoined st s := by
  simp only [offer, h]

theorem offer_of_room (rec : Record) (h : (s.rs.stream st).join = some j) (hroom : j.count < (s.rs.area j.area).count) :
    offer st rec s = appendRecord st rec j s := by
  simp only [offer, h, if_pos hroom]

theorem offer_of_full (rec : Record) (h : (s.rs.stream st).join = some j) (hfull : ¬ j.count < (s.rs.area j.area).count) :
    offer st rec s = offerFull st rec j s := by
  simp only [offer, h, if_neg hfull]

/-- An offer that finds no stream, or a full one that keeps its queue: BILLING is left alone, the others count one lost. -/
def lostAt (st : Stream) (s : State) : State := if st = .billing then s else dropRecord st s

theorem offerUnjoined_eq (st : Stream) (s : State) : offerUnjoined st s = lostAt st s := by cases st <;> rfl

theorem offerFull_eq (rec : Record) (j : Join) (h : st ≠ .readings) : offerFull st rec j s = lostAt st s := by
  cases st
  case readings => exact absurd rfl h
  all_goals rfl

theorem lostAt_slots (st : Stream) (s : State) : (lostAt st s).rs.slots = s.rs.slots := by
  cases st <;> rfl

theorem lostAt_areas (st : Stream) (s : State) : (lostAt st s).rs.areas = s.rs.areas := by
  cases st <;> rfl

theorem lostAt_ports (st : Stream) (s : State) : (lostAt st s).ports = s.ports := by
  cases st <;> rfl

theorem lostAt_stream (hcap : (s.rs.stream st).lost ≤ 4294967295) : (lostAt st s).rs.stream st = { s.rs.stream st with
    lost := min 4294967295 ((s.rs.stream st).lost + if st = .billing then 0 else 1) } := by
  unfold lostAt
  split
  · rw [Nat.add_zero, Nat.min_eq_right hcap]
  · rw [dropRecord_stream]
    rfl

theorem lostAt_othersStay (st : Stream) (s : State) : s.rs.OthersStay st (lostAt st s).rs := by
  unfold lostAt
  split
  · exact .refl _ _
  · exact dropRecord_othersStay st s

/-- An offer leaves the other streams with their records and the area table (R155). -/
theorem offer_others (ok : StoreOk s) (st : Stream) (rec : Record) :
    s.rs.OthersStay st (offer st rec s).rs ∧ (offer st rec s).rs.areas = s.rs.areas := by
  cases hj : (s.rs.stream st).join with
  | none =>
    rw [offer_of_unjoined rec hj, offerUnjoined_eq]
    exact ⟨lostAt_othersStay _ _, lostAt_areas _ _⟩
  | some j =>
    obtain ⟨a, hdef, ha, hsized, hhead, -⟩ := ok.joined hj
    by_cases hroom : j.count < (s.rs.area j.area).count
    · rw [offer_of_room rec hj hroom]
      have q := appendRecord_moved (s := s) (st := st) rec ha hsized
      exact ⟨ok.othersStay hj hdef q, q.areas⟩
    · rw [offer_of_full rec hj hroom]
      by_cases hst : st = .readings
      · subst hst
        have q := overwriteRecord_moved (s := s) (st := .readings) rec hsized hhead
        exact ⟨ok.othersStay hj hdef q, q.areas⟩
      · rw [offerFull_eq rec j hst]
        exact ⟨lostAt_othersStay _ _, lostAt_areas _ _⟩

theorem appendRecord_flag (rec : Record) (p : Port) :
    flagSet .stream ((appendRecord st rec j s).ports.get p).flags = streamCondition p (appendRecord st rec j s) :=
  refreshStream_flag _ p

end

/-- Settles O44. -/
theorem offersFollowThePolicyOfTheStream : Obligations.OffersFollowThePolicyOfTheStream := by
  intro st rec s ok t x lost overs
  obtain ⟨hothers, hareas⟩ := offer_others ok st rec
  refine ⟨hothers, hareas, offer_touches st rec s, (offer_tells s st rec).flags, fun hlost hover => ?_⟩
  have hlost0 : x.lost = min 4294967295 (x.lost + 0) := by omega
  have hover0 : x.overwritten = min 4294967295 (x.overwritten + 0) := by omega
  refine ⟨fun hnone => ?_, fun j a hj hdef => ?_⟩
  · have hoffer : t = lostAt st s := (offer_of_unjoined rec hnone).trans (offerUnjoined_eq _ _)
    have hx := lostAt_stream hlost
    rw [← hoffer] at hx
    refine ⟨?_, ?_, ?_⟩
    · rw [hx]
      exact hnone
    · show (t.rs.stream st).lost = _
      rw [hx]
    · show (t.rs.stream st).overwritten = _
      rw [hx]
      exact hover0
  · obtain ⟨b, hb, ha, hsized, hhead, -⟩ := ok.joined hj
    obtain rfl : b = a := Option.some.inj (hb.symm.trans hdef)
    refine ⟨fun hroom => ?_, fun hfull hst => ?_, fun hfull hst => ?_⟩
    · have hoffer : t = appendRecord st rec j s := offer_of_room rec hj (by rw [ha]; exact hroom)
      have hx : t.rs.stream st = { x with join := some { j with count := j.count + 1 } } := by
        rw [hoffer]
        exact appendRecord_stream st rec j s
      refine ⟨?_, ?_, ⟨{ j with count := j.count + 1 }, by rw [hx], rfl, rfl, rfl, fun k hk => ?_, ?_⟩, fun p => ?_⟩
      · show (t.rs.stream st).lost = _
        rw [hx]
        exact hlost0
      · show (t.rs.stream st).overwritten = _
        rw [hx]
        exact hover0
      · rw [hoffer, appendRecord_recordAt rec ha hroom, if_neg hk.ne]
      · rw [hoffer, appendRecord_recordAt rec ha hroom, if_pos rfl]
      · rw [hoffer]
        exact appendRecord_flag rec p
    · have hoffer : t = lostAt st s :=
        (offer_of_full rec hj (by rw [ha]; omega)).trans (offerFull_eq rec j hst)
      have hx := lostAt_stream hlost
      rw [← hoffer] at hx
      refine ⟨?_, ?_, ?_, ?_, ?_⟩
      · rw [hoffer, lostAt_ports]
      · rw [hoffer, lostAt_slots]
      · rw [hx]
        exact hj
      · show (t.rs.stream st).lost = _
        rw [hx]
      · show (t.rs.stream st).overwritten = _
        rw [hx]
        exact hover0
    · subst hst
      have hoffer : t = overwriteRecord .readings rec j s := offer_of_full rec hj (by rw [ha]; omega)
      have hx : t.rs.stream .readings = { x with
          join := some { j with head := ringSlot (s.rs.area j.area) j.head 1 }
          overwritten := min 4294967295 (x.overwritten + 1) } := by
        rw [hoffer]
        exact overwriteRecord_stream .readings rec j s
      refine ⟨by rw [hoffer]; rfl, ?_, ?_, { j with head := ringSlot (s.rs.area j.area) j.head 1 }, by rw [hx], rfl, rfl, rfl,
        fun k hk => ?_, ?_⟩
      · show (t.rs.stream .readings).lost = _
        rw [hx]
        exact hlost0
      · show (t.rs.stream .readings).overwritten = _
        rw [hx]
      · rw [hoffer, overwriteRecord_recordAt rec ha hhead hfull, if_neg (by omega)]
      · have hpos := hsized.pos
        rw [hoffer, overwriteRecord_recordAt rec ha hhead hfull, if_pos (by omega)]

end Sys2Proof.Machine

/-! PROOFS. A change of the insulation level: its notice and entry, and what the session controller makes of it (R24, R30, R94
to R98, R102, R103). -/

namespace Sys2Proof.Machine

set_option Elab.async false

/-! ## Time stamps (R91, R102) -/

theorem stamp_unset (n : Nat) (s : State) : (stamp n s).unset = !s.ct.valid := by
  unfold stamp
  cases s.ct.valid <;> rfl

theorem stamp_valid {n : Nat} {s : State} (h : s.ct.valid = true) : stamp n s = ⟨false, s.ct.day, s.ct.sec⟩ := if_pos h

theorem stamp_sec {n : Nat} {s : State} (h : s.ct.valid = false) : (stamp n s).sec = n := by
  rw [stamp, if_neg (by simp [h])]

/-! ## Entries of the fault table (R102, R103) -/

section
variable {k : FaultKind} {x : Figures} {s : State}

theorem appendFault_of_room (hroom : s.im.faults.length < 8) (hseq : s.im.entrySeq < 4294967295) : appendFault k x s =
    raiseAll .faultTable ((stamped s).onIm fun m => { m with
      faults := m.faults ++ [⟨m.entrySeq + 1, k, stamp m.uptime s, x⟩], entrySeq := m.entrySeq + 1 }) := by
  refine if_neg ?_
  rintro (h | h)
  · omega
  · exact absurd h (by rw [show max32 = 4294967295 from rfl]; omega)

theorem appendFault_refused (h : 8 ≤ s.im.faults.length ∨ 4294967295 ≤ s.im.entrySeq) : appendFault k x s =
    if s.im.overflow then s.onIm fun m => { m with overflow := true, overflowCount := satAdd 255 m.overflowCount 1 }
    else raiseAll .faultTable (s.onIm fun m => { m with overflow := true, overflowCount := satAdd 255 m.overflowCount 1 }) :=
  if_pos h

theorem appendFault_tells (k : FaultKind) (x : Figures) (s : State) : Tells [.faultTable] [] s (appendFault k x s) := by
  have him (u : State) (f : Insulation → Insulation) : Tells [.faultTable] [] u (u.onIm f) := .of_touches (onIm_touches u f)
  have hstamp : Tells [.faultTable] [] s (stamped s) := .of_touches (stamped_touches s)
  unfold appendFault
  exact .ite (.ite (him s _) ((him s _).step (raiseAll_tells _ _))) ((hstamp.trans (him _ _)).step (raiseAll_tells _ _))

/-- An entry due with room and a sequence left (R102). -/
structure FaultEntered (k : FaultKind) (x : Figures) (s t : State) : Prop where
  entry : ∃ e, t.im.faults = s.im.faults ++ [e] ∧ e.seq = s.im.entrySeq + 1 ∧ e.kind = k ∧ e.figures = x ∧
    e.time.unset = !s.ct.valid ∧ (s.ct.valid = true → e.time = ⟨false, s.ct.day, s.ct.sec⟩) ∧
    (s.ct.valid = false → e.time.sec = s.im.uptime)
  counts : t.im.entrySeq = s.im.entrySeq + 1 ∧ t.im.overflow = s.im.overflow ∧ t.im.overflowCount = s.im.overflowCount
  raised : Raised .faultTable t

theorem appendFault_entered (hroom : s.im.faults.length < 8) (hseq : s.im.entrySeq < 4294967295) :
    FaultEntered k x s (appendFault k x s) := by
  have him : (appendFault k x s).im = { s.im with
      faults := s.im.faults ++ [⟨s.im.entrySeq + 1, k, stamp s.im.uptime s, x⟩], entrySeq := s.im.entrySeq + 1 } := by
    rw [appendFault_of_room hroom hseq, (raiseAll_touches _ _).im_eq, State.onIm_im, (stamped_touches s).im_eq]
  refine ⟨⟨_, by rw [him], rfl, rfl, rfl, stamp_unset _ s, stamp_valid, stamp_sec⟩, ?_, ?_⟩
  · rw [him]
    exact ⟨rfl, rfl, rfl⟩
  · rw [appendFault_of_room hroom hseq]
    exact raiseAll_raised _ _

/-- An entry due without room or sequence is refused and counted (R103). -/
theorem appendFault_refuses (h : 8 ≤ s.im.faults.length ∨ 4294967295 ≤ s.im.entrySeq) :
    (appendFault k x s).im = { s.im with overflow := true, overflowCount := min 255 (s.im.overflowCount + 1) } ∧
      (s.im.overflow = false → Raised .faultTable (appendFault k x s)) := by
  rw [appendFault_refused h]
  refine ⟨?_, fun hno => ?_⟩
  · split <;> rfl
  · rw [if_neg (by simp [hno])]
    exact raiseAll_raised _ _

end

/-! ## The change of the level (R97) -/

section
variable {l : Level} {x : Figures} {s : State}

/-- The level written, with its notice and its source. -/
def levelled (l : Level) (s : State) : State :=
  occur .levelChanged (raiseAll .insulation (s.onIm fun m => { m with level := l, worse := .empty, better := .empty }))

/-- The entry a change into a level appends. -/
def levelEntered (l : Level) (x : Figures) (s : State) : State :=
  match l.faultKind with
  | some k => appendFault k x s
  | none => s

theorem setLevel_same (h : s.im.level = l) : setLevel l x s = s := if_pos h

theorem setLevel_eq (h : s.im.level ≠ l) : setLevel l x s = takeLevel l (levelEntered l x (levelled l s)) := if_neg h

theorem levelled_touches (l : Level) (s : State) : Touches (.im :: signals) s (levelled l s) :=
  (((onIm_touches s _).mono).step (raiseAll_touches _ _)).step (occur_touches _ _)

theorem levelled_im (l : Level) (s : State) :
    (levelled l s).im = { s.im with level := l, worse := .empty, better := .empty } := by
  rw [levelled, (occur_touches _ _).im_eq, (raiseAll_touches _ _).im_eq]
  rfl

theorem levelled_tells (l : Level) (s : State) : Tells [.insulation, .capture] [.levelChanged] s (levelled l s) :=
  ((Tells.of_touches (onIm_touches s _)).step (raiseAll_tells _ _)).step (occur_tells _ _)

theorem levelled_told (l : Level) (s : State) : Raised .insulation (levelled l s) ∧ Fired .levelChanged s (levelled l s) := by
  have hwritten : Tells [.insulation] [] s
      (raiseAll .insulation (s.onIm fun m => { m with level := l, worse := .empty, better := .empty })) :=
    (Tells.of_touches (onIm_touches s _)).step (raiseAll_tells _ _)
  exact ⟨(occur_tells _ _).raised_of (raiseAll_raised _ _), hwritten.fired_since (occur_fired _ _)⟩

theorem levelEntered_of_none (h : l.faultKind = none) : levelEntered l x s = s := by
  unfold levelEntered
  rw [h]

theorem levelEntered_of_some {k : FaultKind} (h : l.faultKind = some k) : levelEntered l x s = appendFault k x s := by
  unfold levelEntered
  rw [h]

theorem levelEntered_touches (l : Level) (x : Figures) (s : State) :
    Touches [.im, .ports, .free] s (levelEntered l x s) := by
  unfold levelEntered
  split
  · exact (appendFault_touches _ _ _).mono
  · exact .refl _ _

theorem levelEntered_tells (l : Level) (x : Figures) (s : State) : Tells [.faultTable] [] s (levelEntered l x s) := by
  unfold levelEntered
  split
  · exact appendFault_tells _ _ _
  · exact .refl _ _ _

theorem levelEntered_im (l : Level) (x : Figures) (s : State) : (levelEntered l x s).im = { s.im with
    faults := (levelEntered l x s).im.faults
    entrySeq := (levelEntered l x s).im.entrySeq
    overflow := (levelEntered l x s).im.overflow
    overflowCount := (levelEntered l x s).im.overflowCount } := by
  unfold levelEntered
  split
  · exact appendFault_runs _ _ _
  · rfl

/-- The level and its entry, before the session controller takes it. -/
theorem levelEntered_levelled (l : Level) (x : Figures) (s : State) :
    Touches [.im, .ports, .se, .free] s (levelEntered l x (levelled l s)) ∧
      Tells [.insulation, .faultTable, .capture] [.levelChanged] s (levelEntered l x (levelled l s)) :=
  ⟨((levelled_touches l s).mono).step (levelEntered_touches _ _ _),
    ((levelled_tells l s).mono).step (levelEntered_tells _ _ _)⟩

/-! ## The session controller takes the level (R24, R30) -/

/-- INSULATION_UNKNOWN among the hold reasons. -/
def unknownHeld (l : Level) (c : Session) : HoldSet :=
  if c.state.isOpen then { c.hold with insulationUnknown := l = .unknown } else c.hold

def levelHeld (l : Level) (s : State) : State :=
  s.onSc fun c => if c.state.isOpen then { c with hold := { c.hold with insulationUnknown := l = .unknown } } else c

theorem levelHeld_sc (l : Level) (s : State) : (levelHeld l s).sc = { s.sc with hold := unknownHeld l s.sc } := by
  unfold levelHeld unknownHeld
  rw [State.onSc_sc]
  split <;> rfl

theorem takeLevel_fault (s : State) : takeLevel .fault s = enterLockout .insulationFault s := rfl

theorem takeLevel_sound (h : l ≠ .fault) : takeLevel l s = holdMove (levelHeld l s) := if_neg h

theorem takeLevel_tells (l : Level) (s : State) :
    Tells [.session, .stream, .billing, .tariff, .capture]
      [.stateChanged, .tariffApplied, .sessionClosed, .intervalClosed] s (takeLevel l s) := by
  by_cases h : l = .fault
  · subst h
    exact enterLockout_tells _ _
  · rw [takeLevel_sound h]
    have hheld : Tells [.session, .stream, .billing, .tariff, .capture]
        [.stateChanged, .tariffApplied, .sessionClosed, .intervalClosed] s (levelHeld l s) := .of_touches (onSc_touches s _)
    exact hheld.step (holdMove_tells _)

/-- What a level other than FAULT makes of the session (R24, R45). -/
structure LevelHeld (l : Level) (s t : State) : Prop where
  session : t.sc = { s.sc with state := t.sc.state, hold := unknownHeld l s.sc }
  state : t.sc.state =
    if s.sc.state = .preheat ∨ s.sc.state = .charging then (if t.sc.hold.any then .hold else s.sc.state)
    else if s.sc.state = .hold ∧ t.sc.hold.any = false then (if s.sc.gate then .charging else .preheat)
    else s.sc.state
  command : t.pc.pCmd = if t.sc.state ≠ s.sc.state ∧ t.sc.state = .hold then 0 else s.pc.pCmd
  moved : t.sc.state ≠ s.sc.state → Raised .session t ∧ Fired .stateChanged s t

theorem takeLevel_held (h : l ≠ .fault) : LevelHeld l s (takeLevel l s) := by
  have hheld : Tells [] [] s (levelHeld l s) := .of_touches (onSc_touches s _)
  have hsc : (holdMove (levelHeld l s)).sc =
      { s.sc with state := heldState (levelHeld l s).sc, hold := unknownHeld l s.sc } := by
    rw [holdMove_sc, levelHeld_sc]
  have hstate : heldState (levelHeld l s).sc =
      if s.sc.state = .hold ∧ (unknownHeld l s.sc).any = false then (if s.sc.gate then .charging else .preheat)
      else if (s.sc.state = .preheat ∨ s.sc.state = .charging) ∧ (unknownHeld l s.sc).any = true then .hold
      else s.sc.state := by
    rw [heldState_eq, levelHeld_sc]
  rw [takeLevel_sound h]
  refine ⟨by rw [hsc], ?_, ?_, fun hmove => ?_⟩
  · rw [hsc]
    dsimp only
    rw [hstate]
    cases hst : s.sc.state <;> cases hany : (unknownHeld l s.sc).any <;> simp
  · rw [holdMove_pCmd, hsc]
    dsimp only
    have hstill : (levelHeld l s).sc.state = s.sc.state := by rw [levelHeld_sc]
    rw [hstill]
    by_cases hmoved : heldState (levelHeld l s).sc = .hold ∧ s.sc.state ≠ .hold
    · rw [if_pos hmoved, if_pos ⟨by rw [hmoved.1]; exact hmoved.2.symm, hmoved.1⟩]
    · rw [if_neg hmoved, if_neg fun h => hmoved ⟨h.2, fun h' => h.1 (h.2.trans h'.symm)⟩]
      rfl
  · rw [hsc] at hmove
    have hne : heldState (levelHeld l s).sc ≠ (levelHeld l s).sc.state := by
      rw [levelHeld_sc] at hmove ⊢
      exact hmove
    obtain ⟨h1, h2⟩ := holdMove_moved _ hne
    exact ⟨h1, hheld.fired_since h2⟩

/-- The lockout a level FAULT brings (R30, R32). -/
theorem enterLockout_fault (s : State) : (enterLockout .insulationFault s).sc.state = .lockedOut ∧
    (enterLockout .insulationFault s).sc.lockout.insulationFault = true ∧
    (s.sc.state ≠ .lockedOut → (enterLockout .insulationFault s).pc.pCmd = 0 ∧
      (enterLockout .insulationFault s).sc.verify = none ∧ Raised .session (enterLockout .insulationFault s) ∧
      Fired .stateChanged s (enterLockout .insulationFault s)) ∧
    (s.sc.state = .lockedOut → (enterLockout .insulationFault s).pc = s.pc) := by
  obtain ⟨hstate, hlockout, haway, -⟩ := lockoutClosesTheSessionAndStopsPower .insulationFault s
  refine ⟨hstate, by rw [hlockout]; rfl, fun hne => ?_, fun heq => ?_⟩
  · obtain ⟨hverify, -, -, hcmd, -, -, -, -, -, hraised, hfired, -⟩ := haway hne
    exact ⟨hcmd, hverify, hraised, hfired⟩
  · rw [enterLockout, if_pos heq]
    exact (addLockoutReason_touches _ _).pc_eq

/-- A change of the level is one event (R97). -/
theorem setLevel_moved (h : s.im.level ≠ l) : LevelMoved l x s (setLevel l x s) := by
  rw [setLevel_eq h]
  obtain ⟨hframe, htells⟩ := levelEntered_levelled l x s
  have himv := levelEntered_im l x (levelled l s)
  have hct : (levelled l s).ct = s.ct := (levelled_touches l s).ct_eq
  have himl := levelled_im l s
  generalize hv : levelEntered l x (levelled l s) = v at hframe htells himv ⊢
  have him : (takeLevel l v).im = v.im := (takeLevel_touches l v).im_eq
  have hraise {n : Notice} (hr : Raised n v) (hn : n ≠ .stream := by decide) : Raised n (takeLevel l v) :=
    (takeLevel_tells l v).raised_of hr hn
  have hsc : v.sc = s.sc := hframe.sc_eq
  have hpc : v.pc = s.pc := hframe.pc_eq
  constructor
  · rw [him, himv, himl]
  · obtain ⟨h1, h2⟩ := levelled_told l s
    have hentered : Tells [.faultTable] [] (levelled l s) v := hv ▸ levelEntered_tells l x (levelled l s)
    exact ⟨hraise (hentered.raised_of h1), (takeLevel_tells l v).fired_of (hentered.fired_of h2)⟩
  · intro k hk hroom hseq
    rw [levelEntered_of_some hk] at hv
    obtain ⟨hentry, hcounts, hraised⟩ := appendFault_entered (k := k) (x := x) (s := levelled l s)
      (by rw [himl]; exact hroom) (by rw [himl]; exact hseq)
    rw [hv, himl] at hentry hcounts
    rw [hv] at hraised
    rw [hct] at hentry
    rw [him]
    exact ⟨hentry, hcounts.1, hcounts.2.1, hcounts.2.2, hraise hraised⟩
  · intro k hk hfull
    rw [levelEntered_of_some hk] at hv
    obtain ⟨hentry, hraised⟩ := appendFault_refuses (k := k) (x := x) (s := levelled l s) (by rw [himl]; exact hfull)
    rw [hv, himl] at hentry hraised
    rw [him, hentry]
    exact ⟨rfl, rfl, rfl, rfl, fun hno => hraise (hraised hno)⟩
  · intro hk
    rw [levelEntered_of_none hk] at hv
    rw [him, ← hv, himl]
    exact ⟨rfl, rfl, rfl, rfl⟩
  · rintro rfl
    obtain ⟨h1, h2, -⟩ := enterLockout_fault v
    exact ⟨h1, h2⟩
  · intro hl
    have hheld := (takeLevel_held (s := v) hl).session
    rw [hsc] at hheld
    exact hheld
  · intro hl
    have hheld := (takeLevel_held (s := v) hl).state
    rw [hsc] at hheld
    exact hheld
  · by_cases hl : l = .fault
    · subst hl
      obtain ⟨h1, -, h3, h4⟩ := enterLockout_fault v
      rw [hsc] at h3 h4
      rw [takeLevel_fault, h1]
      by_cases hlocked : s.sc.state = .lockedOut
      · rw [if_neg fun h => h.1 hlocked.symm, h4 hlocked, hpc]
      · rw [if_pos ⟨Ne.symm hlocked, .inr rfl⟩, (h3 hlocked).1]
    · obtain ⟨-, hstate, hcommand, -⟩ := takeLevel_held (s := v) hl
      rw [hsc] at hstate hcommand
      rw [hcommand, hpc]
      have hlocked : (takeLevel l v).sc.state = .lockedOut → (takeLevel l v).sc.state = s.sc.state := by
        intro hlocked
        rw [hstate] at hlocked ⊢
        split at hlocked
        · split at hlocked
          · cases hlocked
          · next h1 h2 => rw [if_pos h1, if_neg h2]
        · split at hlocked
          · split at hlocked <;> cases hlocked
          · next h1 h2 => rw [if_neg h1, if_neg h2]
      by_cases hmove : (takeLevel l v).sc.state ≠ s.sc.state ∧ (takeLevel l v).sc.state = .hold
      · rw [if_pos hmove, if_pos ⟨hmove.1, .inl hmove.2⟩]
      · rw [if_neg hmove, if_neg]
        rintro ⟨h1, h2 | h2⟩
        · exact hmove ⟨h1, h2⟩
        · exact h1 (hlocked h2)
  · intro hmove
    by_cases hl : l = .fault
    · subst hl
      obtain ⟨h1, -, h3, -⟩ := enterLockout_fault v
      rw [hsc] at h3
      rw [takeLevel_fault, h1] at hmove
      obtain ⟨-, -, hr, hf⟩ := h3 (Ne.symm hmove)
      exact ⟨hr, htells.fired_since hf⟩
    · obtain ⟨hr, hf⟩ := (takeLevel_held (s := v) hl).moved (by rw [hsc]; exact hmove)
      exact ⟨hr, htells.fired_since hf⟩

end

end Sys2Proof.Machine

/-! PROOFS. The runs, the localisation and the level (R93 to R95, R98, R100). -/

namespace Sys2Proof.Machine

set_option Elab.async false

/-! ## Runs written before a change of the level -/

/-- Runs, localisation record and localise hold are nothing a change of the level to another one reads. -/
theorem LevelMoved.of_runs {l : Level} {x : Figures} {s t : State} {w b : Run}
    (h : LevelMoved l x { s with im := { s.im with worse := w, better := b } } t) : LevelMoved l x s t :=
  ⟨h.monitor, h.notice, h.entry, h.refused, h.noEntry, h.lockout, h.session, h.state, h.command, h.moved⟩

/-! ## The classes and the levels (R93 to R95) -/

theorem floorOf_level {s : State} {k : Machine.Class} (hk : s.im.level.rank < k.rank) (hruns : RunsOk s) :
    s.im.level ≠ (floorOf s.im.worse k).level := by
  have hfloor := floorOf_rank _ hk hruns.worse
  intro h
  rw [h] at hfloor
  cases hf : floorOf s.im.worse k <;> rw [hf] at hfloor <;> simp [Class.level, Level.rank, Class.rank] at hfloor

theorem ceilingOf_level {s : State} {k : Machine.Class} (hk : k.rank < s.im.level.rank) (hruns : RunsOk s)
    (hlevel : s.im.level = .warning ∨ s.im.level = .fault) : s.im.level ≠ (ceilingOf s.im.better k).level := by
  have hceiling := ceilingOf_rank _ hk (hruns.better.imp id And.right)
  intro h
  rw [h] at hceiling hlevel
  cases hf : ceilingOf s.im.better k <;> rw [hf] at hceiling hlevel <;>
    simp [Class.level, Level.rank, Class.rank] at hceiling hlevel

section
variable {k : Machine.Class} {x : Figures} {leg : Bool} {s : State}

/-- A class at once the level, from UNMEASURED and UNKNOWN (R93). -/
theorem takeClass_first (h : s.im.level = .unmeasured ∨ s.im.level = .unknown) (hk : k ≠ .fault) :
    takeClass k x leg s = setLevel k.level x s := by
  unfold takeClass
  rcases h with h | h <;> rw [h] <;> exact if_neg hk

theorem takeClass_equal (hno : k ≠ .noClass) (h : k.level = s.im.level) : takeClass k x leg s = emptyRuns s := by
  unfold takeClass
  rw [← h]
  cases k <;> first | exact absurd rfl hno | rfl

theorem takeClass_worse (hno : k ≠ .noClass) (h : s.im.level.rank < k.rank) : takeClass k x leg s = takeWorse k x leg s := by
  unfold takeClass
  cases hl : s.im.level <;> rw [hl] at h <;> cases k <;> first | rfl | exact absurd rfl hno | exact absurd h (by decide)

theorem takeClass_better (hlevel : s.im.level = .warning ∨ s.im.level = .fault) (h : k.rank < s.im.level.rank) :
    takeClass k x leg s = takeBetter k x s := by
  unfold takeClass
  rcases hlevel with hl | hl <;> rw [hl] at h ⊢ <;> cases k <;> first | rfl | exact absurd h (by decide)

/-- The runs written, and nothing else. -/
def runsWritten (worse better : Run) (s : State) : State :=
  { s with im := { s.im with worse := worse, better := better } }

/-- A worse result that only begins the run (R94). -/
theorem takeWorse_first (h : s.im.worse.count = 0) : takeWorse k x leg s = runsWritten ⟨1, k⟩ .empty s := by
  have hfloor : floorOf s.im.worse k = k := if_pos (.inl h)
  unfold takeWorse
  rw [hfloor, h]
  rfl

/-- The second worse result decides (R94, R98). -/
theorem takeWorse_second (h : 0 < s.im.worse.count) : takeWorse k x leg s =
    if floorOf s.im.worse k = .fault ∧ leg = true ∧ s.hc.leg ≠ .isolated then
      beginLocalisation x (runsWritten ⟨2, floorOf s.im.worse k⟩ .empty s)
    else setLevel (floorOf s.im.worse k).level x (runsWritten ⟨2, floorOf s.im.worse k⟩ .empty s) := by
  have hcount : min 2 (s.im.worse.count + 1) = 2 := by omega
  unfold takeWorse
  rw [hcount]
  rfl

/-- The first two better results only lengthen the run (R95). -/
theorem takeBetter_lengthens (h : s.im.better.count ≤ 1) :
    takeBetter k x s = runsWritten .empty ⟨s.im.better.count + 1, ceilingOf s.im.better k⟩ s := by
  have hcount : min 3 (s.im.better.count + 1) = s.im.better.count + 1 := by omega
  have hne : s.im.better.count + 1 ≠ 3 := by omega
  unfold takeBetter
  rw [hcount]
  exact if_neg hne

/-- The third better result moves the level (R95). -/
theorem takeBetter_third (h : 2 ≤ s.im.better.count) : takeBetter k x s =
    setLevel (ceilingOf s.im.better k).level x (runsWritten .empty ⟨3, ceilingOf s.im.better k⟩ s) := by
  have hcount : min 3 (s.im.better.count + 1) = 3 := by omega
  unfold takeBetter
  rw [hcount]
  rfl

end

/-- The leg opens with its elements (R59, R73). -/
theorem Heater.openLeg_closed {h : Heater} (hleg : h.leg = .connecting ∨ h.leg = .connected) :
    h.openLeg.leg = .disconnected ∧ h.openLeg.settle = some 200 := by
  have hclosed : h.hldClosed = true := by
    rw [hldClosed_eq]
    exact decide_eq_true hleg
  rw [openLeg, if_pos hclosed]
  exact ⟨rfl, rfl⟩

/-- Settles O32. -/
theorem levelMovesByTheRuns : Obligations.LevelMovesByTheRuns := by
  intro k x leg s hno hruns t runs floor ceiling localises
  have hfloor : floorOf s.im.worse k = floor := rfl
  have hceiling : ceilingOf s.im.better k = ceiling := rfl
  refine ⟨fun hlevel hk => ?_, fun hequal => takeClass_equal hno hequal, fun hworse => ?_, fun hlevel hbetter => ?_⟩
  · rw [show t = setLevel k.level x s from takeClass_first hlevel hk]
    refine setLevel_moved ?_
    rcases hlevel with h | h <;> rw [h] <;> cases k <;> simp [Class.level]
  · have ht : t = takeWorse k x leg s := takeClass_worse hno hworse
    refine ⟨fun hzero => ht.trans (takeWorse_first hzero), fun hpos hloc => ?_, fun hpos hloc => ?_⟩
    · rw [takeWorse_second hpos, hfloor, if_pos hloc] at ht
      have hoff := (s.hc.allOff).openLeg_onlyOff.none s.hc.allOff_e1 s.hc.allOff_e2
      have him : t.im = { s.im with worse := ⟨2, floor⟩, better := .empty, meas := .localising, locRecord := some x } := by
        rw [ht]
        rfl
      rw [hloc.1] at him
      have hhc : t.hc = { s.hc.allOff.openLeg with localiseHold := true } := by
        rw [ht]
        rfl
      refine ⟨him, by rw [hhc], ?_, fun hleg => ?_, ?_⟩
      · rw [heaterOff, hhc]
        exact hoff
      · rw [hhc]
        exact Heater.openLeg_closed (by rwa [Heater.allOff_leg])
      · rw [ht]
        intro b hb
        cases b <;> first | rfl | simp at hb
    · rw [takeWorse_second hpos, hfloor, if_neg hloc] at ht
      rw [ht]
      refine LevelMoved.of_runs (setLevel_moved ?_)
      exact floorOf_level hworse hruns
  · have ht : t = takeBetter k x s := takeClass_better hlevel hbetter
    refine ⟨fun hfew => ht.trans (takeBetter_lengthens hfew), fun hmany => ?_⟩
    rw [ht, takeBetter_third hmany]
    refine LevelMoved.of_runs (setLevel_moved ?_)
    exact ceilingOf_level hbetter hruns hlevel

/-! ## The localise hold (R73, R100) -/

theorem Heater.turnOff_localiseHold (l : ElemState) (k : ElemId) (h : Heater) :
    (h.turnOff l k).localiseHold = h.localiseHold := by
  unfold turnOff
  split
  · cases k <;> rfl
  · rfl

theorem Heater.allOff_localiseHold (h : Heater) : h.allOff.localiseHold = h.localiseHold :=
  (turnOff_localiseHold _ _ _).trans (turnOff_localiseHold _ _ _)

theorem Heater.openLeg_localiseHold (h : Heater) : h.openLeg.localiseHold = h.localiseHold := by
  unfold openLeg
  split
  · exact allOff_localiseHold h
  · rfl

theorem Heater.fit_localiseHold (a : Nat) (h : Heater) : (h.fit a).localiseHold = h.localiseHold := by
  unfold fit
  dsimp only
  split
  · rfl
  · split
    · split <;> split <;> simp only [turnOff_localiseHold]
    · exact allOff_localiseHold h

/-- A leg that is open stays as it is. -/
theorem Heater.openLeg_open {h : Heater} (hleg : h.leg ≠ .connecting ∧ h.leg ≠ .connected) : h.openLeg = h := by
  refine if_neg ?_
  rw [hldClosed_eq, decide_eq_true_iff]
  rintro (h1 | h1)
  · exact hleg.1 h1
  · exact hleg.2 h1

/-- What a lockout or a hold move leaves of the leg: the localise hold, and an open leg. -/
structure LegKept (h h' : Heater) : Prop where
  hold : h'.localiseHold = h.localiseHold
  leg : h.leg ≠ .connecting → h.leg ≠ .connected → h'.leg = h.leg

theorem LegKept.refl (h : Heater) : LegKept h h := ⟨rfl, fun _ _ => rfl⟩

theorem LegKept.trans {a b c : Heater} (h : LegKept a b) (h' : LegKept b c) : LegKept a c where
  hold := h'.hold.trans h.hold
  leg h1 h2 := (h'.leg (by rwa [h.leg h1 h2]) (by rwa [h.leg h1 h2])).trans (h.leg h1 h2)

section
variable (s : State)

theorem setState_legKept (x : SessionState) : LegKept s.hc (setState x s).hc where
  hold := by
    by_cases h : s.sc.state = x
    · rw [setState_same h]
    · rw [setState_heater h]
      split
      · rfl
      · exact Heater.fit_localiseHold _ _
  leg _ _ := setState_leg x s

theorem heaterLockout_legKept : LegKept s.hc (heaterLockout s).hc where
  hold := (Heater.openLeg_localiseHold _).trans (Heater.allOff_localiseHold _)
  leg h1 h2 := by
    show (s.hc.allOff.openLeg).leg = _
    rw [Heater.openLeg_open (by rw [Heater.allOff_leg]; exact ⟨h1, h2⟩), Heater.allOff_leg]

theorem lockedMove_legKept : LegKept s.hc (lockedMove s).hc :=
  (setState_legKept s .lockedOut).trans (heaterLockout_legKept _)

theorem enterLockout_legKept (r : LockoutReason) : LegKept s.hc (enterLockout r s).hc := by
  by_cases h : s.sc.state = .lockedOut
  · rw [enterLockout, if_pos h, (addLockoutReason_touches _ _).hc_eq]
    exact .refl _
  · by_cases hasks : s.sc.state.isOpen = true ∧ s.ea.accruing = true
    · rw [enterLockout_asks h hasks.1 hasks.2, (answerClose_touches_away (by rw [lockedMove_sc]; simp)).hc_eq]
      have hclose : (finalClose .final true (lockingOut r s)).hc = s.hc := (finalClose_touches _ _ _).hc_eq
      rw [← hclose]
      exact lockedMove_legKept _
    · have hno : s.sc.state.isOpen = false ∨ s.ea.accruing = false := by
        cases h1 : s.sc.state.isOpen
        · exact .inl rfl
        · exact .inr (by simpa [h1] using hasks)
      rw [enterLockout_marks h hno]
      exact lockedMove_legKept (markedOut r s)

theorem takeLevel_legKept (l : Level) : LegKept s.hc (takeLevel l s).hc := by
  by_cases h : l = .fault
  · subst h
    exact enterLockout_legKept s _
  · rw [takeLevel_sound h, holdMove_eq]
    exact setState_legKept (levelHeld l s) _

theorem setLevel_legKept (l : Level) (x : Figures) : LegKept s.hc (setLevel l x s).hc := by
  by_cases h : s.im.level = l
  · rw [setLevel_same h]
    exact .refl _
  · rw [setLevel_eq h]
    have hframe := (levelEntered_levelled l x s).1
    have hkept := takeLevel_legKept (levelEntered l x (levelled l s)) l
    rwa [hframe.hc_eq] at hkept

theorem setLevel_tells (l : Level) (x : Figures) : Tells
    [.insulation, .faultTable, .session, .stream, .billing, .tariff, .capture]
    [.levelChanged, .stateChanged, .tariffApplied, .sessionClosed, .intervalClosed] s (setLevel l x s) := by
  by_cases h : s.im.level = l
  · rw [setLevel_same h]
    exact .refl _ _ _
  · rw [setLevel_eq h]
    exact ((levelEntered_levelled l x s).2.mono).step (takeLevel_tells l _)

/-- What a change of the level leaves of the monitor: all but level, runs and fault table. -/
theorem setLevel_im (l : Level) (x : Figures) : (setLevel l x s).im = { s.im with
    level := l
    worse := (setLevel l x s).im.worse
    better := (setLevel l x s).im.better
    faults := (setLevel l x s).im.faults
    entrySeq := (setLevel l x s).im.entrySeq
    overflow := (setLevel l x s).im.overflow
    overflowCount := (setLevel l x s).im.overflowCount } := by
  by_cases h : s.im.level = l
  · rw [setLevel_same h, ← h]
  · rw [(setLevel_moved (x := x) h).monitor]

/-- A change of the level only adds to the fault table. -/
theorem setLevel_faults (l : Level) (x : Figures) : ∃ rest, (setLevel l x s).im.faults = s.im.faults ++ rest := by
  by_cases h : s.im.level = l
  · exact ⟨[], by rw [setLevel_same h, List.append_nil]⟩
  · have hmoved := setLevel_moved (x := x) h
    cases hk : l.faultKind with
    | none => exact ⟨[], by rw [(hmoved.noEntry hk).1, List.append_nil]⟩
    | some k =>
      by_cases hroom : s.im.faults.length < 8 ∧ s.im.entrySeq < 4294967295
      · obtain ⟨⟨e, he, -⟩, -⟩ := hmoved.entry k hk hroom.1 hroom.2
        exact ⟨[e], he⟩
      · exact ⟨[], by rw [(hmoved.refused k hk (by omega)).1, List.append_nil]⟩

end

/-! ## The result of a localisation (R100) -/

section
variable {r : ResultRecord} {y : Figures} {s : State}

/-- The localisation record taken. -/
def localised (s : State) : State := { s with im := { s.im with locRecord := none } }

/-- The leg isolated, with its entry. -/
def legIsolated (y : Figures) (s : State) : State := appendFault .heaterLeg y (isolateLeg (localised s))

theorem takeLocalisation_inLeg (hy : s.im.locRecord = some y) (h : r.valid = true ∧ (r.cls = .ok ∨ r.cls = .warning)) :
    takeLocalisation r s = emptyRuns (setLevel r.cls.level r.figures (legIsolated y s)) := by
  unfold takeLocalisation
  rw [hy]
  exact if_pos h

theorem takeLocalisation_fault (h : ¬ (r.valid = true ∧ (r.cls = .ok ∨ r.cls = .warning))) :
    takeLocalisation r s = setLevel .fault r.figures (releaseLeg (localised s)) := by
  unfold takeLocalisation
  exact if_neg h

theorem isolateLeg_hc (s : State) : (isolateLeg s).hc = { s.hc with localiseHold := false, leg := .isolated } := by
  rw [isolateLeg, (heaterEvent_touches _).hc_eq]
  rfl

theorem legIsolated_hc (y : Figures) (s : State) :
    (legIsolated y s).hc = { s.hc with localiseHold := false, leg := .isolated } := by
  rw [legIsolated, (appendFault_touches _ _ _).hc_eq, isolateLeg_hc]
  rfl

theorem isolateLeg_localised_im (s : State) : (isolateLeg (localised s)).im = { s.im with locRecord := none } :=
  (isolateLeg_touches (localised s)).im_eq

theorem isolateLeg_tells (s : State) : Tells [.heater, .capture] [.heaterEvent] s (isolateLeg s) := by
  have hleg : Tells [.heater, .capture] [.heaterEvent] s
      (s.onHc fun h => { h with localiseHold := false, leg := .isolated }) := .of_touches (onHc_touches s _)
  exact hleg.trans (heaterEvent_tells _)

theorem isolateLeg_told (s : State) : Raised .heater (isolateLeg s) ∧ Fired .heaterEvent s (isolateLeg s) := by
  have hleg : Tells [] [] s (s.onHc fun h => { h with localiseHold := false, leg := .isolated }) :=
    .of_touches (onHc_touches s _)
  exact ⟨heaterEvent_raised _, hleg.fired_since (heaterEvent_fired _)⟩

theorem legIsolated_tells (y : Figures) (s : State) :
    Tells [.heater, .faultTable, .capture] [.heaterEvent] s (legIsolated y s) := by
  have hloc : Tells [.heater, .faultTable, .capture] [.heaterEvent] s (localised s) := .of_eq rfl rfl
  exact (hloc.step (isolateLeg_tells _)).step (appendFault_tells _ _ _)

theorem legIsolated_im (y : Figures) (s : State) : (legIsolated y s).im = { s.im with
    locRecord := none
    faults := (legIsolated y s).im.faults
    entrySeq := (legIsolated y s).im.entrySeq
    overflow := (legIsolated y s).im.overflow
    overflowCount := (legIsolated y s).im.overflowCount } := by
  conv_lhs => rw [legIsolated, appendFault_runs, isolateLeg_localised_im]
  rfl

theorem legIsolated_touches (y : Figures) (s : State) : Touches [.im, .hc, .ports, .se, .free] s (legIsolated y s) := by
  have hloc : Touches [.im, .hc, .ports, .se, .free] s (localised s) := fun b hb => by
    cases b <;> first | rfl | simp at hb
  exact (hloc.step (isolateLeg_touches _)).step (appendFault_touches _ _ _)

end

/-- Settles O33. -/
theorem localisationPlacesTheFault : Obligations.LocalisationPlacesTheFault := by
  intro r y s hloc hy t inLeg
  have ht : t = takeLocalisation r s := if_pos hloc
  by_cases hin : inLeg
  · have hlevel : r.cls.level ≠ .fault := by
      rcases hin.2 with h | h <;> rw [h] <;> simp [Class.level]
    rw [takeLocalisation_inLeg hy hin] at ht
    have hkept := setLevel_legKept (legIsolated y s) r.cls.level r.figures
    have htells := setLevel_tells (legIsolated y s) r.cls.level r.figures
    have him := setLevel_im (legIsolated y s) r.cls.level r.figures
    have hempty : Tells [] [] (setLevel r.cls.level r.figures (legIsolated y s)) t := by
      rw [ht]
      exact .of_touches (onIm_touches _ _)
    have hti : t.im = { (setLevel r.cls.level r.figures (legIsolated y s)).im with worse := .empty, better := .empty } := by
      rw [ht]
      rfl
    have hthc : t.hc = (setLevel r.cls.level r.figures (legIsolated y s)).hc := by
      rw [ht]
      rfl
    obtain ⟨hraised, hfired⟩ := isolateLeg_told (localised s)
    have hentry : Tells [.faultTable] [] (isolateLeg (localised s)) (legIsolated y s) := appendFault_tells _ _ _
    have hsame : Tells [] [] s (localised s) := .of_eq rfl rfl
    refine ⟨?_, ?_, fun _ => ⟨?_, ?_, ?_, ?_, ?_, ?_, fun hne => ?_, fun heq => ?_, fun hroom hseq => ?_⟩,
      fun hno => absurd hin hno⟩
    · rw [hti, him, legIsolated_im]
    · rw [hthc, hkept.hold, legIsolated_hc]
    · rw [hthc, hkept.leg (by rw [legIsolated_hc]; simp) (by rw [legIsolated_hc]; simp), legIsolated_hc]
    · exact hempty.raised_of (htells.raised_of (hentry.raised_of hraised))
    · exact hempty.fired_of (htells.fired_of (hentry.fired_of (hsame.fired_since hfired)))
    · rw [hti, him]
    · rw [hti]
    · rw [hti]
    · have hmoved := setLevel_moved (x := r.figures) (s := legIsolated y s) (l := r.cls.level) (by
        rw [legIsolated_im]
        exact hne)
      exact ⟨hempty.raised_of hmoved.notice.1,
        hempty.fired_of ((legIsolated_tells y s).fired_since hmoved.notice.2)⟩
    · rw [setLevel_same (by rw [legIsolated_im]; exact heq)] at ht
      have hquiet : Tells [.heater, .faultTable, .capture] [.heaterEvent] s t := by
        rw [ht]
        exact (legIsolated_tells y s).silent (onIm_touches _ _)
      refine ⟨hquiet.still _ (by decide), ?_, hquiet.flags⟩
      rw [ht]
      exact (legIsolated_touches y s).sc_eq
    · have him0 := isolateLeg_localised_im s
      obtain ⟨⟨e, he, heseq, hekind, hefig, -⟩, -, hr⟩ := appendFault_entered (k := .heaterLeg) (x := y)
        (s := isolateLeg (localised s)) (by rw [him0]; exact hroom) (by rw [him0]; exact hseq)
      rw [him0] at he heseq
      obtain ⟨rest, hrest⟩ := setLevel_faults (legIsolated y s) r.cls.level r.figures
      refine ⟨e, rest, ?_, hekind, hefig, heseq, hempty.raised_of (htells.raised_of hr)⟩
      rw [hti]
      show (setLevel r.cls.level r.figures (legIsolated y s)).im.faults = _
      rw [hrest, show (legIsolated y s).im.faults = _ from he, List.append_assoc]
      rfl
  · rw [takeLocalisation_fault hin] at ht
    have hkept := setLevel_legKept (releaseLeg (localised s)) .fault r.figures
    have him := setLevel_im (releaseLeg (localised s)) .fault r.figures
    rw [← ht] at hkept him
    refine ⟨?_, ?_, fun h => absurd h hin, fun _ => ⟨fun hleg => ?_, ?_, fun hne => ?_⟩⟩
    · rw [him]
      rfl
    · rw [hkept.hold]
      rfl
    · have hopen : (releaseLeg (localised s)).hc.leg = .disconnected := hleg
      rw [hkept.leg (by rw [hopen]; simp) (by rw [hopen]; simp), hopen]
    · rw [him]
    · rw [ht]
      exact setLevel_moved (s := releaseLeg (localised s)) (l := .fault) hne

end Sys2Proof.Machine

/-! PROOFS. The result event: record offered, kept, applied to the level, reported to the session controller (R21, R89 to
R97). -/

namespace Sys2Proof.Machine

set_option Elab.async false

/-! ## What billing leaves of the INSULATION stream -/

theorem offer_stream_other {st st' : Stream} (h : st' ≠ st) (rec : Record) (s : State) :
    (offer st rec s).rs.stream st' = s.rs.stream st' := by
  cases hj : (s.rs.stream st).join with
  | none =>
    rw [offer_of_unjoined rec hj, offerUnjoined_eq]
    exact (lostAt_othersStay st s st' h).1
  | some j =>
    by_cases hroom : j.count < (s.rs.area j.area).count
    · rw [offer_of_room rec hj hroom]
      exact (Store.stream_slots _ _ st').trans (Store.stream_putStream_other s.rs h _)
    · rw [offer_of_full rec hj hroom]
      by_cases hst : st = .readings
      · subst hst
        exact (Store.stream_slots _ _ st').trans (Store.stream_putStream_other s.rs h _)
      · rw [offerFull_eq rec j hst]
        exact (lostAt_othersStay st s st' h).1

/-- At most BILLING has been offered a record. -/
structure Billed (s t : State) : Prop where
  stream : t.rs.insulation = s.rs.insulation
  others : StoreOk s → StoreOk t ∧ s.rs.OthersStay .billing t.rs

theorem Billed.of_rs {s t : State} (h : t.rs = s.rs) : Billed s t :=
  ⟨by rw [h], fun ok => ⟨ok.of_rs h, by rw [h]; exact .refl _ _⟩⟩

theorem Billed.of_touches {bs : List Block} {s t : State} (h : Touches bs s t) (hb : bs.contains .rs = false := by rfl) :
    Billed s t := .of_rs (h.rs_eq hb)

theorem Billed.trans {s t u : State} (h : Billed s t) (h' : Billed t u) : Billed s u :=
  ⟨h'.stream.trans h.stream, fun ok => ⟨(h'.others (h.others ok).1).1, (h.others ok).2.trans (h'.others (h.others ok).1).2⟩⟩

theorem Billed.ite {s t u : State} {c : Prop} [Decidable c] (h : Billed s t) (h' : Billed s u) :
    Billed s (if c then t else u) := by
  split
  · exact h
  · exact h'

theorem offer_billed (r : BillingRecord) (s : State) : Billed s (offer .billing (.billing r) s) where
  stream := offer_stream_other (st := .billing) (st' := .insulation) (by decide) _ _
  others ok := ⟨ok.offer _ _, (offer_others ok _ _).1⟩

theorem placeRecord_billed (r : BillingRecord) (s : State) : Billed s (placeRecord r s) :=
  .ite (offer_billed r s)
    (.ite (.of_touches (((onCt_touches s _).mono (cs := [.ct, .ports])).step (raiseAll_touches _ _))) (.of_rs rfl))

theorem recorded_billed (r : BillingRecord) (s : State) : Billed s (recorded r s) := by
  have hcost : Billed s (costed s) := .of_touches (costed_touches s)
  exact hcost.trans (.ite (placeRecord_billed r _)
    (.of_touches (((onCt_touches _ _).mono (cs := [.ct, .ports])).step (raiseAll_touches _ _))))

theorem finalClose_billed (reason : BillingReason) (lockout : Bool) (s : State) : Billed s (finalClose reason lockout s) := by
  have hend : Billed s (accrualEnded s) := .of_touches (accrualEnded_touches s)
  cases h : s.ct.interval with
  | none =>
    rw [finalClose_of_none _ _ h]
    exact hend
  | some i =>
    rw [finalClose_of_some _ _ h]
    have hreal : Billed (accrualEnded s) (realClose reason lockout i (accrualEnded s)) :=
      (recorded_billed (formRecord reason lockout i (accrualEnded s)) (accrualEnded s)).trans (.of_rs (realClose_rs _ _ _ _))
    exact (hend.trans hreal).trans (.of_rs rfl)

theorem enterLockout_billed (r : LockoutReason) (s : State) : Billed s (enterLockout r s) := by
  by_cases h : s.sc.state = .lockedOut
  · rw [enterLockout, if_pos h]
    exact .of_touches (addLockoutReason_touches _ _)
  · by_cases hasks : s.sc.state.isOpen = true ∧ s.ea.accruing = true
    · rw [enterLockout_asks h hasks.1 hasks.2]
      have hlocking : Billed s (lockingOut r s) := .of_touches (lockingOut_touches r s)
      exact ((hlocking.trans (finalClose_billed _ _ _)).trans (.of_touches lockedMove_touches)).trans
        (.of_touches (answerClose_touches _))
    · have hno : s.sc.state.isOpen = false ∨ s.ea.accruing = false := by
        cases h1 : s.sc.state.isOpen
        · exact .inl rfl
        · exact .inr (by simpa [h1] using hasks)
      rw [enterLockout_marks h hno]
      have hmarked : Billed s (markedOut r s) := .of_touches (markedOut_touches r s)
      exact hmarked.trans (.of_touches lockedMove_touches)

theorem setLevel_billed (l : Level) (x : Figures) (s : State) : Billed s (setLevel l x s) := by
  by_cases h : s.im.level = l
  · rw [setLevel_same h]
    exact .of_rs rfl
  · rw [setLevel_eq h]
    refine (Billed.of_touches (levelEntered_levelled l x s).1).trans ?_
    by_cases hl : l = .fault
    · subst hl
      exact enterLockout_billed _ _
    · rw [takeLevel_sound hl]
      exact (Billed.of_touches (onSc_touches _ _)).trans (.of_touches (holdMove_touches _))

/-! ## What a level taken makes of the session -/

/-- The session controller and P_cmd after the level has been taken, or left. -/
structure LevelTaken (s t : State) : Prop where
  same : t.im.level = s.im.level → t.sc = s.sc ∧ t.pc.pCmd = s.pc.pCmd
  held : t.im.level ≠ s.im.level → t.im.level ≠ .fault →
    t.sc = { s.sc with state := t.sc.state, hold := unknownHeld t.im.level s.sc } ∧
      (t.sc.state = .verifying ↔ s.sc.state = .verifying) ∧ (t.sc.state = s.sc.state → t.pc.pCmd = s.pc.pCmd)
  locks : t.im.level = .fault → s.im.level ≠ .fault →
    t.sc.state = .lockedOut ∧ (s.sc.state ≠ .lockedOut → t.sc.verify = none)

theorem LevelTaken.still {s t : State} (hlevel : t.im.level = s.im.level) (hsc : t.sc = s.sc) (hpc : t.pc = s.pc) :
    LevelTaken s t :=
  ⟨fun _ => ⟨hsc, by rw [hpc]⟩, fun h => absurd hlevel h, fun h h' => absurd (hlevel.symm.trans h) h'⟩

/-- What stands around the taking leaves level, session and power. -/
theorem LevelTaken.between {s u v t : State} (h : LevelTaken u v) (hl0 : u.im.level = s.im.level) (hsc0 : u.sc = s.sc)
    (hpc0 : u.pc = s.pc) (hl1 : t.im.level = v.im.level) (hsc1 : t.sc = v.sc) (hpc1 : t.pc = v.pc) : LevelTaken s t := by
  obtain ⟨hsame, hheld, hlocks⟩ := h
  rw [hl0, ← hl1] at hsame hheld hlocks
  rw [hsc0, hpc0, ← hsc1, ← hpc1] at hsame hheld
  rw [hsc0, ← hsc1] at hlocks
  exact ⟨hsame, hheld, hlocks⟩

theorem setLevel_taken (l : Level) (x : Figures) (s : State) : LevelTaken s (setLevel l x s) := by
  by_cases h : s.im.level = l
  · rw [setLevel_same h]
    exact .still rfl rfl rfl
  · have hmoved := setLevel_moved (x := x) h
    have hlevel : (setLevel l x s).im.level = l := by rw [setLevel_im]
    refine ⟨fun heq => absurd (heq.symm.trans hlevel) h, fun _ hl => ?_, fun hl _ => ?_⟩
    · rw [hlevel] at hl ⊢
      refine ⟨hmoved.session hl, ?_, fun hstill => ?_⟩
      · rw [hmoved.state hl]
        cases hst : s.sc.state <;> simp
        · split <;> simp
        · split <;> simp
        · by_cases hany : (setLevel l x s).sc.hold.any = false
          · simp only [hany, if_true]
            split <;> simp
          · simp [hany]
      · rw [hmoved.command, if_neg fun hmove => hmove.1 hstill]
    · rw [hlevel] at hl
      subst hl
      refine ⟨(hmoved.lockout rfl).1, fun hne => ?_⟩
      have hsc := (levelEntered_levelled .fault x s).1.sc_eq
      rw [setLevel_eq h, takeLevel_fault]
      exact ((enterLockout_fault (levelEntered .fault x (levelled .fault s))).2.2.1 (by rw [hsc]; exact hne)).2.1

/-! ## A result applied (R93 to R95, R100) -/

/-- What applying a result leaves of the monitor: all but level, runs, fault table, localisation record and state. -/
def Insulation.LevelOnly (m m' : Insulation) : Prop := m' = { m with
  level := m'.level
  worse := m'.worse
  better := m'.better
  faults := m'.faults
  entrySeq := m'.entrySeq
  overflow := m'.overflow
  overflowCount := m'.overflowCount
  locRecord := m'.locRecord
  meas := m'.meas }

theorem Insulation.LevelOnly.trans {a b c : Insulation} (h : a.LevelOnly b) (h' : b.LevelOnly c) : a.LevelOnly c := by
  unfold LevelOnly at *
  rw [h', h]

/-- What one way of applying a result does beyond the level. -/
structure Applied (s t : State) : Prop where
  taken : LevelTaken s t
  billed : Billed s t
  monitor : s.im.LevelOnly t.im
  tells : Tells [.insulation, .faultTable, .heater, .session, .stream, .billing, .tariff, .capture]
    [.levelChanged, .heaterEvent, .stateChanged, .tariffApplied, .sessionClosed, .intervalClosed] s t
  meas : t.im.meas = s.im.meas ∨ t.im.meas = .localising

/-- A change of the monitor's own runs, and of the heater's leg. -/
theorem Applied.of_quiet {s t : State} (hlevel : t.im.level = s.im.level) (hsc : t.sc = s.sc) (hpc : t.pc = s.pc)
    (hrs : t.rs = s.rs) (hm : s.im.LevelOnly t.im) (htells : Tells [.heater, .faultTable, .capture] [.heaterEvent] s t)
    (hmeas : t.im.meas = s.im.meas ∨ t.im.meas = .localising) : Applied s t :=
  ⟨.still hlevel hsc hpc, .of_rs hrs, hm, htells.mono, hmeas⟩

theorem setLevel_applied (l : Level) (x : Figures) (s : State) : Applied s (setLevel l x s) where
  taken := setLevel_taken l x s
  billed := setLevel_billed l x s
  monitor := by
    unfold Insulation.LevelOnly
    conv_lhs => rw [setLevel_im]
    rw [setLevel_im]
  tells := (setLevel_tells s l x).mono
  meas := .inl (setLevel_meas l x s)

/-- A change of the level between changes of the monitor's runs and of the heater's leg. -/
theorem Applied.between {s u v t : State} (h : Applied u v) (hl0 : u.im.level = s.im.level) (hsc0 : u.sc = s.sc)
    (hpc0 : u.pc = s.pc) (hrs0 : u.rs = s.rs) (hm0 : s.im.LevelOnly u.im)
    (ht0 : Tells [.heater, .faultTable, .capture] [.heaterEvent] s u) (hmeas0 : u.im.meas = s.im.meas)
    (h1 : Touches [.im] v t) (hl1 : t.im.level = v.im.level) (hm1 : v.im.LevelOnly t.im) (hmeas1 : t.im.meas = v.im.meas) :
    Applied s t where
  taken := h.taken.between hl0 hsc0 hpc0 hl1 h1.sc_eq h1.pc_eq
  billed := (Billed.of_rs hrs0).trans (h.billed.trans (.of_touches h1))
  monitor := (hm0.trans h.monitor).trans hm1
  tells := (ht0.mono.trans h.tells).silent h1
  meas := by
    rw [hmeas1, ← hmeas0]
    exact h.meas

section
variable (k : Machine.Class) (x : Figures) (leg : Bool) (r : ResultRecord) (s : State)

theorem runsWritten_setLevel (l : Level) (w b : Run) : Applied s (setLevel l x (runsWritten w b s)) :=
  (setLevel_applied l x (runsWritten w b s)).between rfl rfl rfl rfl rfl (.of_eq rfl rfl) rfl (.refl _ _) rfl rfl rfl

theorem takeWorse_applied : Applied s (takeWorse k x leg s) := by
  unfold takeWorse
  extract_lets run u
  split
  · split
    · exact .of_quiet rfl rfl rfl rfl rfl (.of_eq rfl rfl) (.inr rfl)
    · exact runsWritten_setLevel x s _ _ _
  · exact .of_quiet rfl rfl rfl rfl rfl (.of_eq rfl rfl) (.inl rfl)

theorem takeBetter_applied : Applied s (takeBetter k x s) := by
  unfold takeBetter
  extract_lets run u
  split
  · exact runsWritten_setLevel x s _ _ _
  · exact .of_quiet rfl rfl rfl rfl rfl (.of_eq rfl rfl) (.inl rfl)

theorem emptyRuns_applied : Applied s (emptyRuns s) := .of_quiet rfl rfl rfl rfl rfl (.of_eq rfl rfl) (.inl rfl)

theorem takeClass_applied : Applied s (takeClass k x leg s) := by
  unfold takeClass
  split
  case h_1 | h_2 =>
    split
    · exact takeWorse_applied _ _ _ _
    · exact setLevel_applied _ _ _
  case h_3 =>
    split
    · exact emptyRuns_applied _
    · exact takeWorse_applied _ _ _ _
  case h_4 =>
    split
    · exact emptyRuns_applied _
    · split
      · exact takeWorse_applied _ _ _ _
      · exact takeBetter_applied _ _ _
  case h_5 =>
    split
    · exact emptyRuns_applied _
    · exact takeBetter_applied _ _ _

theorem takeLocalisation_applied : Applied s (takeLocalisation r s) := by
  have hleg (y : Figures) : s.im.LevelOnly (legIsolated y s).im := by
    unfold Insulation.LevelOnly
    conv_lhs => rw [legIsolated_im]
    rw [legIsolated_im]
  by_cases h : r.valid = true ∧ (r.cls = .ok ∨ r.cls = .warning)
  · have ht : takeLocalisation r s =
        emptyRuns (setLevel r.cls.level r.figures (legIsolated (s.im.locRecord.getD ⟨0, 0, 0⟩) s)) := if_pos h
    have hframe := legIsolated_touches (s.im.locRecord.getD ⟨0, 0, 0⟩) s
    rw [ht]
    exact (setLevel_applied _ _ _).between (by rw [legIsolated_im]) hframe.sc_eq hframe.pc_eq hframe.rs_eq (hleg _)
      (legIsolated_tells _ s) (by rw [legIsolated_im]) (onIm_touches _ _) rfl rfl rfl
  · rw [takeLocalisation_fault h]
    have hfree : Touches [.im, .hc] s (releaseLeg (localised s)) := fun b hb => by
      cases b <;> first | rfl | simp at hb
    exact (setLevel_applied .fault r.figures (releaseLeg (localised s))).between rfl rfl rfl rfl rfl (.of_touches hfree) rfl
      (.refl _ _) rfl rfl rfl

theorem applyResult_applied : Applied s (applyResult r s) := by
  unfold applyResult
  split
  · exact takeLocalisation_applied r s
  · split
    · exact takeClass_applied _ _ _ s
    · exact .of_quiet rfl rfl rfl rfl rfl (.of_eq rfl rfl) (.inl rfl)

end

/-! ## The result event (R92) -/

section
variable (r : ResultRecord) (s : State)

/-- The result offered and kept. -/
def resultKept : State := keepResult r (offer .insulation (.result r) s)

theorem resultEvent_eq : resultEvent r s = seekVerdict r.valid r.cls (applyResult r (resultKept r s)) := rfl

theorem resultKept_touches : Touches [.im, .rs, .ports] s (resultKept r s) :=
  ((offer_touches .insulation (.result r) s).mono).step (onIm_touches _ _)

theorem resultKept_im : (resultKept r s).im = { s.im with
    last := some r
    lastValid := if r.valid then some r.figures else s.im.lastValid
    age := if r.valid then some 0 else s.im.age } := by
  rw [resultKept, keepResult, State.onIm_im, (offer_touches .insulation (.result r) s).im_eq]

theorem resultKept_tells : Tells [.stream] [] s (resultKept r s) :=
  (offer_tells s .insulation (.result r)).silent (onIm_touches _ _)

/-- After the offer only BILLING takes records, so that the result stands where it was offered (R92). -/
theorem Billed.offered {r : ResultRecord} {s t : State} (h : Billed (offer .insulation (.result r) s) t) : Offered r s t where
  stream := h.stream
  records ok j k hj _ := by
    have hothers := (h.others (ok.offer .insulation (.result r))).2 .insulation (by decide)
    rw [h.stream] at hj
    exact hothers.2 j k hj

theorem Offered.of_rs {r : ResultRecord} {s u t : State} (h : Offered r u t) (hrs : u.rs = s.rs) : Offered r s t := by
  obtain ⟨hstream, hrecords⟩ := h
  rw [offer_rs_congr hrs] at hstream hrecords
  exact ⟨hstream, fun ok => hrecords (ok.of_rs hrs)⟩

/-- An invalid result begins no localisation. -/
theorem applyResult_invalid {r : ResultRecord} {s : State} (h : r.valid = false) :
    (applyResult r s).im.meas = s.im.meas := by
  by_cases hloc : r.localise = true
  · rw [applyResult, if_pos hloc, takeLocalisation_fault (by simp [h]), setLevel_meas]
    rfl
  · rw [applyResult, if_neg hloc, if_neg (by simp [h])]

/-- The verdict is due (R21). -/
def VerdictDue (s : State) : Prop :=
  s.sc.state = .verifying ∧ r.valid = true ∧ s.im.level.sound = true ∧ (r.cls = .ok ∨ r.cls = .warning)

theorem seekVerdict_due (h : VerdictDue r s) : seekVerdict r.valid r.cls s = giveVerdict s := if_pos h

theorem seekVerdict_none (h : ¬ VerdictDue r s) : seekVerdict r.valid r.cls s = s := if_neg h

/-- The state the verdict gives. -/
def verdictState (c : Session) : SessionState := if c.hold.any then .hold else poweredState c

/-- The verification timer stopped. -/
def verified (s : State) : State := s.onSc fun c => { c with verify := none }

theorem giveVerdict_eq : giveVerdict s = setState (verdictState s.sc) (verified s) := rfl

theorem verdictState_cases (c : Session) : verdictState c = .hold ∨ verdictState c = .preheat ∨ verdictState c = .charging := by
  unfold verdictState poweredState
  split
  · exact .inl rfl
  · split
    · exact .inr (.inr rfl)
    · exact .inr (.inl rfl)

/-- The verdict given (R21, R45). -/
structure VerdictGiven (s t : State) : Prop where
  session : t.sc = { s.sc with verify := none, state := verdictState s.sc }
  command : t.pc.pCmd = if t.sc.state = .hold then 0 else s.pc.pCmd
  told : Raised .session t ∧ Fired .stateChanged s t
  frame : Touches [.sc, .pc, .hc, .ports, .se, .free] s t

variable {s}

theorem giveVerdict_given (h : s.sc.state = .verifying) : VerdictGiven s (giveVerdict s) := by
  rw [giveVerdict_eq]
  have hne : (verified s).sc.state ≠ verdictState s.sc := by
    rw [show (verified s).sc.state = s.sc.state from rfl, h]
    rcases verdictState_cases s.sc with hv | hv | hv <;> rw [hv] <;> simp
  have hbefore : Tells [] [] s (verified s) := .of_touches (onSc_touches s _)
  have hopen : (verified s).sc.state.isOpen = false ∨ (verdictState s.sc).isOpen = true := by
    rcases verdictState_cases s.sc with hv | hv | hv <;> rw [hv] <;> exact .inr rfl
  refine ⟨by rw [setState_sc]; rfl, ?_, ⟨setState_raised hne, hbefore.fired_since (setState_fired hne)⟩,
    ((onSc_touches s _).mono).step (setState_within_touches hopen)⟩
  rw [setState_pCmd_held, setState_sc]
  · have hst : (verified s).sc.state ≠ .hold := by
      rw [show (verified s).sc.state = s.sc.state from rfl, h]
      simp
    by_cases hhold : verdictState s.sc = .hold
    · rw [if_pos ⟨hhold, hst⟩, if_pos hhold]
    · rw [if_neg fun h => hhold h.1, if_neg hhold]
      rfl
  · rcases verdictState_cases s.sc with hv | hv | hv
    · exact .inl hv
    · exact .inr (.inl hv)
    · exact .inr (.inr (.inl hv))

variable (s)

/-- What a result leaves behind: it is the last result, the monitor but for level, runs and fault table stays, and no block
but the ones a level and a verdict reach changes. -/
structure ResultTaken (s t : State) : Prop where
  last : t.im.last = some r
  offered : Offered r s t
  monitor : (resultKept r s).im.LevelOnly t.im
  meas : t.im.meas = s.im.meas ∨ t.im.meas = .localising
  invalid : r.valid = false → t.im.meas = s.im.meas

theorem seekVerdict_im (u : State) : (seekVerdict r.valid r.cls u).im = u.im := (seekVerdict_touches _ _ u).im_eq

theorem resultEvent_taken : ResultTaken r s (resultEvent r s) := by
  obtain ⟨-, hbilled, hmonitor, -, hmeas⟩ := applyResult_applied r (resultKept r s)
  have him := seekVerdict_im r (applyResult r (resultKept r s))
  rw [resultEvent_eq]
  refine ⟨?_, ?_, ?_, ?_, fun hinv => ?_⟩
  · rw [him, hmonitor, resultKept_im]
  · have hkept : Billed (offer .insulation (.result r) s) (resultKept r s) := .of_rs rfl
    exact ((hkept.trans hbilled).trans (.of_touches (seekVerdict_touches _ _ _))).offered
  · rw [him]
    exact hmonitor
  · rw [him]
    rw [resultKept_im] at hmeas
    exact hmeas
  · rw [him, applyResult_invalid hinv, resultKept_im]

end

theorem Level.sound_iff (l : Level) : l.sound = true ↔ l = .ok ∨ l = .warning := by
  cases l <;> simp [Level.sound]

/-- Settles O36. -/
theorem resultsAreKeptAppliedAndGiveTheVerdict : Obligations.ResultsAreKeptAppliedAndGiveTheVerdict := by
  intro r s t o kept a verdict
  have hoim : o.im = s.im := (offer_touches .insulation (.result r) s).im_eq
  have hkept : kept = resultKept r s := by
    show ({ o with im := { o.im with
      last := some r
      lastValid := if r.valid then some r.figures else s.im.lastValid
      age := if r.valid then some 0 else s.im.age } } : State) = keepResult r o
    rw [← hoim]
    rfl
  have ha : a = applyResult r (resultKept r s) := by
    rw [← hkept]
    show (if r.localise then applyResult r kept else _) = _
    by_cases hl : r.localise = true
    · exact if_pos hl
    · rw [if_neg hl, applyResult, if_neg hl]
  have ht : t = seekVerdict r.valid r.cls a := by rw [ha]; rfl
  have him : t.im = a.im := by rw [ht]; exact seekVerdict_im r a
  obtain ⟨htaken, -, hmonitor, htells, -⟩ := applyResult_applied r (resultKept r s)
  rw [← ha] at htaken hmonitor htells
  have hkim := resultKept_im r s
  have hkframe := resultKept_touches r s
  have hklevel : (resultKept r s).im.level = s.im.level := by rw [hkim]
  have hresult := resultEvent_taken r s
  obtain ⟨hsame, hheld, hlocks⟩ := htaken
  rw [hklevel, ← him, hkframe.sc_eq, hkframe.pc_eq] at hsame
  rw [hklevel, ← him, hkframe.sc_eq, hkframe.pc_eq] at hheld
  rw [hklevel, ← him, hkframe.sc_eq] at hlocks
  have hverify (hnf : t.im.level ≠ .fault ∨ s.im.level = .fault) : a.sc.state = .verifying ↔ s.sc.state = .verifying := by
    by_cases heq : t.im.level = s.im.level
    · rw [(hsame heq).1]
    · refine (hheld heq fun hf => ?_).2.1
      rcases hnf with h | h
      · exact h hf
      · exact heq (hf.trans h.symm)
  have hdue : VerdictDue r a ↔ verdict := by
    constructor
    · rintro ⟨h1, h2, h3, h4⟩
      rw [← him, Level.sound_iff] at h3
      exact ⟨(hverify (.inl (by rcases h3 with h | h <;> rw [h] <;> simp))).mp h1, h2, h4, h3⟩
    · rintro ⟨h1, h2, h3, h4⟩
      refine ⟨(hverify (.inl (by rcases h4 with h | h <;> rw [h] <;> simp))).mpr h1, h2, ?_, h3⟩
      rw [← him, Level.sound_iff]
      exact h4
  have hnone (h : ¬ verdict) : t = a := ht.trans (seekVerdict_none r a fun hd => h (hdue.mp hd))
  refine ⟨hresult.last, hresult.offered, fun hv => ?_, fun hv => ?_, him, hnone, fun hgive => ?_,
    fun hst hno => ⟨fun hnf => ?_, fun hf hnf => ?_⟩, fun hst => ?_⟩
  · rw [him, hmonitor, hkim]
    exact ⟨if_pos hv, if_pos hv⟩
  · rw [him, hmonitor, hkim]
    exact ⟨if_neg (by simp [hv]), if_neg (by simp [hv])⟩
  · have hgiven : VerdictGiven a t := by
      rw [ht, seekVerdict_due r a (hdue.mpr hgive)]
      exact giveVerdict_given (hdue.mpr hgive).1
    obtain ⟨hsession, hcommand, ⟨hraised, hfired⟩, hframe⟩ := hgiven
    have hlevel : t.im.level ≠ .fault ∧ t.im.level ≠ .unknown := by
      rcases hgive.2.2.2 with h | h <;> rw [h] <;> simp
    have hasc : a.sc = { s.sc with
        hold := { s.sc.hold with insulationUnknown := s.sc.hold.insulationUnknown && decide (t.im.level = s.im.level) } } ∧
        a.pc.pCmd = s.pc.pCmd := by
      by_cases heq : t.im.level = s.im.level
      · obtain ⟨h1, h2⟩ := hsame heq
        refine ⟨?_, h2⟩
        rw [h1]
        simp [heq]
      · obtain ⟨h1, h2, h3⟩ := hheld heq hlevel.1
        have hst : a.sc.state = s.sc.state := (h2.mpr hgive.1).trans hgive.1.symm
        refine ⟨?_, h3 hst⟩
        rw [h1, hst, unknownHeld, hgive.1]
        simp [heq, hlevel.2, SessionState.isOpen, hgive.1]
    have hsince : Tells [.insulation, .faultTable, .heater, .session, .stream, .billing, .tariff, .capture]
        [.levelChanged, .heaterEvent, .stateChanged, .tariffApplied, .sessionClosed, .intervalClosed] s a :=
      ((resultKept_tells r s).mono).trans htells
    refine ⟨?_, by rw [hcommand, hasc.2], hraised, hsince.fired_since hfired, hframe⟩
    rw [hsession, hasc.1]
    rfl
  · have hta := hnone hno
    rw [hta]
    refine ⟨(hverify hnf).mpr hst, ?_⟩
    by_cases heq : t.im.level = s.im.level
    · rw [(hsame heq).1]
    · rw [(hheld heq fun hf => by
        rcases hnf with h | h
        · exact h hf
        · exact heq (hf.trans h.symm)).1]
  · have hlock := hlocks hf hnf
    rw [hnone hno]
    exact ⟨hlock.1, hlock.2 (by rw [hst]; simp)⟩
  · rw [hnone fun hgive => hst hgive.1]
    by_cases hnf : t.im.level ≠ .fault ∨ s.im.level = .fault
    · exact fun h => hst ((hverify hnf).mp h)
    · rw [not_or, not_not] at hnf
      rw [(hlocks hnf.1 hnf.2).1]
      simp

end Sys2Proof.Machine

/-! PROOFS. Measurements: their invalid ends, disturbances, starts and the running of the monitor (R78 to R88, R99, R101). -/

namespace Sys2Proof.Machine

set_option Elab.async false

/-! ## The end of a measurement (R79, R80, R86 to R88) -/

section
variable {s : State}

/-- The measurement ended, and the time of its result stamped. -/
def measurementEnded (s : State) : State := stamped (endMeasurement s)

theorem measurementEnded_touches (s : State) : Touches [.fe, .im, .free] s (measurementEnded s) :=
  ((endMeasurement_touches s).mono).step (stamped_touches _)

theorem measurementEnded_im (s : State) :
    (measurementEnded s).im = { s.im with meas := .idle, phase := none, window := [], va := none } := by
  rw [measurementEnded, (stamped_touches _).im_eq]
  rfl

theorem measurementEnded_fe (s : State) : (measurementEnded s).fe = s.fe.setSwitches false false := by
  rw [measurementEnded, (stamped_touches _).fe_eq]
  rfl

/-- A measurement has ended with a result. -/
structure Ended (r : ResultRecord) (s t : State) : Prop where
  last : t.im.last = some r
  offered : Offered r s t
  stopped : t.im.phase = none ∧ t.im.va = none ∧ t.fe.insA = false ∧ t.fe.insB = false
  meas : t.im.meas = .idle ∨ t.im.meas = .localising
  invalid : r.valid = false → t.im.meas = .idle
  valid : r.valid = true → t.im.lastValid = some r.figures ∧ t.im.age = some 0
  running : t.im.running = s.im.running ∧ t.im.cycleRun = s.im.cycleRun ∧ t.im.cycleLeft = s.im.cycleLeft ∧
    t.im.request = s.im.request

theorem resultEvent_ended (r : ResultRecord) (s : State) : Ended r s (resultEvent r (measurementEnded s)) := by
  obtain ⟨hlast, hoffered, hmonitor, hmeas, hinvalid⟩ := resultEvent_taken r (measurementEnded s)
  have hfe : (resultEvent r (measurementEnded s)).fe = s.fe.setSwitches false false := by
    rw [(resultEvent_touches r _).fe_eq, measurementEnded_fe]
  obtain ⟨ha, hb⟩ := setSwitches_closed false false s.fe
  rw [measurementEnded_im] at hmeas hinvalid
  rw [resultKept_im, measurementEnded_im] at hmonitor
  refine ⟨hlast, hoffered.of_rs (measurementEnded_touches s).rs_eq, ?_, hmeas, hinvalid, fun hv => ?_, ?_⟩
  · rw [hmonitor, hfe]
    exact ⟨rfl, rfl, ha, hb⟩
  · rw [hmonitor]
    exact ⟨if_pos hv, if_pos hv⟩
  · rw [hmonitor]
    exact ⟨rfl, rfl, rfl, rfl⟩

/-- The record of an invalid result. -/
def invalidResult (why : InvalidReason) (u : Nat) (s : State) : ResultRecord :=
  { number := s.im.number, time := stamp s.im.uptime s, valid := false, reason := why
    va := (s.im.va.getD (0, 0)).1, vb := 0, figures := ⟨0, 0, u⟩, cls := .noClass
    settleA := (s.im.va.getD (0, 0)).2, settleB := 0
    leg := s.im.meas != .localising && s.im.legFlag
    localise := s.im.meas == .localising || s.im.localise }

theorem endInvalid_eq (why : InvalidReason) (u : Nat) (s : State) :
    endInvalid why u s = resultEvent (invalidResult why u s) (measurementEnded s) := rfl

theorem endInvalid_ended (why : InvalidReason) (u : Nat) (s : State) :
    Ended (invalidResult why u s) s (endInvalid why u s) := resultEvent_ended _ s

theorem endInvalid_idle (why : InvalidReason) (u : Nat) (s : State) : (endInvalid why u s).im.meas = .idle :=
  (endInvalid_ended why u s).invalid rfl

theorem not_inPhase {m : Insulation} (h : m.meas = .idle ∨ m.meas = .localising) : m.inPhase = false := by
  rcases h with h | h <;> simp [Insulation.inPhase, h]

/-! ## Disturbances (R47, R72, R88) -/

theorem disturb_idle (h : s.im.inPhase = false) : disturb s = s := if_neg (by simp [h])

/-- The attempt abandoned once. -/
def abandonedOnce (s : State) : State := (openSwitches s).onIm fun m => { m with abandoned := 1 }

theorem disturb_first (h : s.im.inPhase = true) (h0 : s.im.abandoned = 0) : disturb s = startAttempt (abandonedOnce s) := by
  rw [disturb, if_pos h, if_pos h0]
  rfl

theorem disturb_again (h : s.im.inPhase = true) (h0 : s.im.abandoned ≠ 0) :
    disturb s = endInvalid .disturbed (latestVBus s) s := by
  rw [disturb, if_pos h, if_neg h0]

/-- A new attempt: INS_A alone closed, chassis interval and index from 0 (R85). -/
structure Restarted (s t : State) : Prop where
  monitor : t.im = { s.im with
    abandoned := 1, meas := .phaseA, phase := some 3000, window := [], va := none
    legFlag := s.hc.hldClosed, request := false }
  switches : t.fe = { s.fe with insA := true, insB := false, chassisMs := 0, chassisIndex := 0 }
  frame : Touches [.im, .fe] s t

theorem startAttempt_restarted (s : State) : Restarted s (startAttempt (abandonedOnce s)) where
  monitor := rfl
  switches := by
    show (s.fe.setSwitches false false).setSwitches true false = _
    obtain ⟨ha, -⟩ := setSwitches_closed false false s.fe
    rw [setSwitches_restart (.inl (by simp [ha])), setSwitches_eq]
  frame := by
    have hopen : Touches [.im, .fe] s (abandonedOnce s) := ((openSwitches_touches s).mono).step (onIm_touches _ _)
    exact hopen.step (startAttempt_touches _)

theorem takeReports_eq {s t : State} (h : s.im.inPhase = true) : takeReports s t =
    let u := if commandFell s t then disturb t else t
    if driveOpened s t then disturb u else u := if_pos h

/-- A state that is not in a phase takes no report. -/
theorem takeReports_of_over {s t : State} (h : t.im.inPhase = false) : takeReports s t = t := by
  by_cases hs : s.im.inPhase = true
  · rw [takeReports_eq hs]
    dsimp only
    rw [disturb_idle h, ite_self, disturb_idle h, ite_self]
  · exact takeReports_of_idle (by simpa using hs)

theorem takeReports_undriven {s t : State} (hfell : commandFell s t = false) (hopened : driveOpened s t = false) :
    takeReports s t = t := by
  simp [takeReports, hfell, hopened]

theorem driveOpened_iff (s t : State) : driveOpened s t = true ↔
    (s.hc.e1.isOn = true ∧ t.hc.e1.isOn = false) ∨ (s.hc.e2.isOn = true ∧ t.hc.e2.isOn = false) ∨
      (s.hc.hldClosed = true ∧ t.hc.hldClosed = false) := by
  simp [driveOpened, or_assoc]

theorem commandFell_iff (s t : State) : commandFell s t = true ↔ t.pc.pCmd + 500 < s.pc.pCmd := by
  simp [commandFell]

end

/-- Settles O34. -/
theorem disturbancesRestartOnceThenEnd : Obligations.DisturbancesRestartOnceThenEnd := by
  intro s t r fell opened
  have hfell : commandFell s t = true ↔ fell := commandFell_iff s t
  have hopened : driveOpened s t = true ↔ opened := driveOpened_iff s t
  have hone (hs : s.im.inPhase = true) (h : (fell ∧ ¬ opened) ∨ (opened ∧ ¬ fell)) : r = disturb t := by
    show takeReports s t = _
    rw [takeReports_eq hs]
    rcases h with ⟨h1, h2⟩ | ⟨h1, h2⟩
    · simp only [hfell.mpr h1, if_true]
      exact if_neg fun h => h2 (hopened.mp h)
    · simp only [hopened.mpr h1, if_true]
      rw [if_neg fun h => h2 (hfell.mp h)]
  have hboth (hs : s.im.inPhase = true) (h1 : fell) (h2 : opened) : r = disturb (disturb t) := by
    show takeReports s t = _
    rw [takeReports_eq hs]
    simp only [hfell.mpr h1, hopened.mpr h2, if_true]
  refine ⟨fun h => ?_, fun hs ht h h0 => ?_, fun hs ht h h0 => ?_⟩
  · rcases h with h | h | ⟨h1, h2⟩
    · exact takeReports_of_idle h
    · exact takeReports_of_over h
    · exact takeReports_undriven (by simpa using fun hf => h1 (hfell.mp hf)) (by simpa using fun hf => h2 (hopened.mp hf))
  · rw [hone hs h, disturb_first ht h0]
    exact ⟨(startAttempt_restarted t).monitor, (startAttempt_restarted t).switches, (startAttempt_restarted t).frame⟩
  · have hends (w : State) (hw : r = endInvalid .disturbed (latestVBus w) w) (hnum : w.im.number = t.im.number)
        (hloc : w.im.localise = t.im.localise) (hmeas : w.im.inPhase = true) (hbus : latestVBus w = latestVBus t)
        (hrs : w.rs = t.rs) : r.im.meas = .idle ∧ r.im.phase = none ∧ r.fe.insA = false ∧ r.fe.insB = false ∧
        ∃ x, r.im.last = some x ∧ Offered x t r ∧ x.valid = false ∧ x.reason = .disturbed ∧ x.number = t.im.number ∧
          x.figures = ⟨0, 0, latestVBus t⟩ ∧ x.cls = .noClass ∧ x.vb = 0 ∧ x.localise = t.im.localise := by
      obtain ⟨hlast, hoffered, ⟨hphase, -, ha, hb⟩, -⟩ := endInvalid_ended .disturbed (latestVBus w) w
      have hidle := endInvalid_idle .disturbed (latestVBus w) w
      rw [← hw] at hlast hoffered hphase ha hb hidle
      refine ⟨hidle, hphase, ha, hb, _, hlast, hoffered.of_rs hrs, rfl, rfl, hnum, ?_, rfl, rfl, ?_⟩
      · rw [← hbus]
        rfl
      · rw [← hloc]
        have hne : (w.im.meas == .localising) = false := by
          rcases (inPhase_iff w.im).mp hmeas with h | h <;> rw [h] <;> rfl
        show (w.im.meas == .localising || w.im.localise) = _
        rw [hne, Bool.false_or]
    by_cases hzero : t.im.abandoned = 0
    · obtain ⟨h1, h2⟩ := h0.resolve_left (not_not.mpr hzero)
      obtain ⟨hmonitor, hswitches, hframe⟩ := startAttempt_restarted t
      rw [hboth hs h1 h2, disturb_first ht hzero] at hends ⊢
      have hphase : (startAttempt (abandonedOnce t)).im.inPhase = true := by
        rw [hmonitor]
        rfl
      refine hends _ (disturb_again hphase (by rw [hmonitor]; simp)) (by rw [hmonitor]) (by rw [hmonitor]) hphase ?_
        hframe.rs_eq
      rw [latestVBus, latestVBus, hswitches]
    · by_cases hand : fell ∧ opened
      · have hidle : (disturb t).im.inPhase = false := by
          rw [disturb_again ht hzero]
          exact not_inPhase (.inl (endInvalid_idle _ _ _))
        have hr : r = disturb t := (hboth hs hand.1 hand.2).trans (disturb_idle hidle)
        exact hends t (hr.trans (disturb_again ht hzero)) rfl rfl ht rfl rfl
      · have hr : r = disturb t := hone hs (by
          by_cases h1 : fell
          · exact .inl ⟨h1, fun h2 => hand ⟨h1, h2⟩⟩
          · exact .inr ⟨h.resolve_left h1, h1⟩)
        exact hends t (hr.trans (disturb_again ht hzero)) rfl rfl ht rfl rfl

end Sys2Proof.Machine

/-! PROOFS. The starts of measurements and the running of the monitor (R78 to R84, R99, R101). -/

namespace Sys2Proof.Machine

set_option Elab.async false

/-! ## Starts (R81 to R84) -/

section
variable {s : State}

/-- A start has no report: it drives nothing. -/
theorem started_reports {l : Bool} {u s t : State} (h : Started l s t) (hpc : s.pc = u.pc) (hhc : s.hc = u.hc) :
    takeReports u t = t :=
  takeReports_of_drive_eq (h.frame.pc_eq.trans hpc) (h.frame.hc_eq.trans hhc)

theorem startMeasurement_reports (l : Bool) (s : State) : takeReports s (startMeasurement l s) = startMeasurement l s :=
  started_reports (startMeasurement_started l s) rfl rfl

/-- The countdown at its end. -/
def cycleStopped (s : State) : State := s.onIm fun m => { m with cycleRun := false, cycleLeft := 0 }

theorem cycleEnds_idle (h : s.im.meas = .idle) : cycleEnds s = startMeasurement false (cycleStopped s) := if_pos h

theorem cycleEnds_waits (h : s.im.meas ≠ .idle) :
    cycleEnds s = { s with im := { s.im with cycleRun := false, cycleLeft := 0, request := true } } := if_neg h

/-- A start overwrites the countdown. -/
theorem startMeasurement_cycleStopped (l : Bool) (s : State) : Started l s (startMeasurement l (cycleStopped s)) := by
  obtain ⟨hmonitor, hswitches, hsampler, hframe⟩ := startMeasurement_started l (cycleStopped s)
  exact ⟨hmonitor, hswitches, hsampler, ((onIm_touches s _).mono (cs := [.im, .fe])).step hframe⟩

theorem cycleEnds_reports : takeReports s (cycleEnds s) = cycleEnds s := by
  by_cases h : s.im.meas = .idle
  · rw [cycleEnds_idle h]
    exact started_reports (startMeasurement_cycleStopped false s) rfl rfl
  · rw [cycleEnds_waits h]
    exact takeReports_of_drive_eq rfl rfl

theorem pendingDue_iff (m : Insulation) : pendingDue m = true ↔ m.request = true ∧ m.running = true ∧ m.meas = .idle := by
  simp [pendingDue, and_assoc]

/-- The settle timer stopped. -/
def settleStopped (s : State) : State := s.onHc fun h => { h with settle := none }

theorem legSettled_localises (h : s.hc.localiseHold = true ∧ s.im.meas = .localising) :
    legSettled s = startMeasurement true (settleStopped s) := if_pos h

theorem legSettled_rests (h : ¬ (s.hc.localiseHold = true ∧ s.im.meas = .localising)) :
    legSettled s = settleStopped s := if_neg h

/-- Neither the power command, an element nor the leg is moved. -/
theorem takeReports_of_same {s t : State} (hpc : t.pc = s.pc) (h1 : t.hc.e1 = s.hc.e1) (h2 : t.hc.e2 = s.hc.e2)
    (hleg : t.hc.leg = s.hc.leg) : takeReports s t = t := by
  apply takeReports_undriven
  · simp [commandFell, hpc]
  · rw [driveOpened, h1, h2, hldClosed_eq, hldClosed_eq, hleg, Bool.and_not_self, Bool.and_not_self, Bool.and_not_self]
    rfl

theorem legSettled_reports : takeReports s (legSettled s) = legSettled s := by
  by_cases h : s.hc.localiseHold = true ∧ s.im.meas = .localising
  · rw [legSettled_localises h]
    obtain ⟨-, -, -, hframe⟩ := startMeasurement_started true (settleStopped s)
    have hhc : (startMeasurement true (settleStopped s)).hc = (settleStopped s).hc := hframe.hc_eq
    have hpc : (startMeasurement true (settleStopped s)).pc = s.pc := hframe.pc_eq
    exact takeReports_of_same hpc (by rw [hhc]; rfl) (by rw [hhc]; rfl) (by rw [hhc]; rfl)
  · rw [legSettled_rests h]
    exact takeReports_of_same rfl rfl rfl rfl

end

/-- Settles O29. -/
theorem measurementsStartWhenDue : Obligations.MeasurementsStartWhenDue := by
  refine ⟨fun s => ⟨fun h => ?_, fun h => ?_, fun h => ?_⟩, fun s hs => ⟨?_, fun hreq hrun hidle => ?_, ?_, ?_⟩⟩
  · show Host.Outcome.next (atEnd (if s.im.cycleRun then some s.im.cycleLeft else none) cycleEnds s) = _
    rw [h]
    rfl
  · refine congrArg Host.Outcome.next (if_neg fun hdue => ?_)
    obtain ⟨hreq, hrun, hmeas⟩ := (pendingDue_iff s.im).mp hdue
    simp [hreq, hrun, hmeas] at h
  · show Host.Outcome.next (atEnd s.hc.settle legSettled s) = _
    rw [h]
    rfl
  · intro hrun u
    have hexec : exec .cycleCountdownExpiry s = .next (cycleEnds u) := by
      show Host.Outcome.next (atEnd (if s.im.cycleRun then some s.im.cycleLeft else none) cycleEnds s) = _
      rw [if_pos hrun, atEnd_high hs, cycleEnds_reports]
    have hmeas : u.im.meas = s.im.meas := by
      rw [show u.im = (elapse _ s).im from rfl, elapse_im_high hs]
      rfl
    exact ⟨fun hidle => ⟨_, hexec.trans (by rw [cycleEnds_idle (hmeas.trans hidle)]), startMeasurement_cycleStopped false u⟩,
      fun hbusy => hexec.trans (congrArg _ (cycleEnds_waits (by rwa [hmeas])))⟩
  · refine ⟨_, ?_, startMeasurement_started false s⟩
    refine congrArg Host.Outcome.next ((if_pos ((pendingDue_iff s.im).mpr ⟨hreq, hrun, hidle⟩)).trans ?_)
    rw [event_high hs, startMeasurement_reports]
  · intro p hp s0
    have hport : portOk .measureNow p = true := by rcases hp with rfl | rfl <;> rfl
    have him : s0.im = s.im := found_im p s
    refine ⟨fun h => ?_, fun h hidle hrun => ?_, fun h hwait => ?_⟩
    · exact congrArg Host.Outcome.next (request_of_answer_unchanged hs rfl hport (if_neg (by rw [found_im, h]; simp)))
    · have hframe := (startMeasurement_started false s0).frame
      refine ⟨_, congrArg Host.Outcome.next (request_undisturbed hs rfl hport ?_
        (hframe.pc_eq.trans (found_pc p s)) (hframe.hc_eq.trans (found_hc p s))), startMeasurement_started false s0⟩
      show answerMeasure s0 = _
      rw [answerMeasure, him, if_pos h, requestMeasurement_of_idle (by rw [him, hidle]) (by rw [him, hrun])]
      rfl
    · refine congrArg Host.Outcome.next (request_undisturbed hs rfl hport ?_ (found_pc p s) (found_hc p s))
      show answerMeasure s0 = _
      rw [answerMeasure, him, if_pos h, requestMeasurement_waits (by rwa [him]), ← him]
      rfl
  · intro n hn u u1
    have hexec : exec .settleTimerExpiry s = .next (legSettled u) := by
      show Host.Outcome.next (atEnd s.hc.settle legSettled s) = _
      rw [hn, atEnd_high hs, legSettled_reports]
    have hhold : u.hc.localiseHold = s.hc.localiseHold := by
      rw [show u.hc = (elapse _ s).hc from rfl, elapse_hc hs]
      rfl
    have hmeas : u.im.meas = s.im.meas := by
      rw [show u.im = (elapse _ s).im from rfl, elapse_im_high hs]
      rfl
    refine ⟨fun h1 h2 => ⟨_, hexec.trans (congrArg _ (legSettled_localises ?_)), startMeasurement_started true u1⟩,
      fun h => hexec.trans (congrArg _ (legSettled_rests ?_))⟩
    · rw [hhold, hmeas]
      exact ⟨h1, h2⟩
    · rw [hhold, hmeas]
      rintro ⟨h1, h2⟩
      rcases h with h | h
      · exact Bool.false_ne_true (h.symm.trans h1)
      · exact h h2

/-! ## Running (R78 to R80, R101) -/

section
variable {s : State}

/-- RUN_REQUESTED set. -/
def startRequested (s : State) : State := s.onIm fun m => { m with runRequested := true }

/-- RUNNING begun, the countdown restarted. -/
def runningBegun (s : State) : State :=
  s.onIm fun m => { m with running := true, cycleRun := true, cycleLeft := fullPeriod s }

theorem runningBegins_starts (h : s.im.request = true ∧ s.im.meas = .idle) :
    runningBegins s = startMeasurement false (runningBegun s) := if_pos h

theorem runningBegins_rests (h : s.im.request = false ∨ s.im.meas ≠ .idle) : runningBegins s = runningBegun s := by
  refine if_neg ?_
  rintro ⟨h1, h2⟩
  rcases h with h | h
  · exact Bool.false_ne_true (h.symm.trans h1)
  · exact h h2

theorem runningBegins_frame (s : State) : Touches [.im, .fe] s (runningBegins s) := by
  by_cases h : s.im.request = true ∧ s.im.meas = .idle
  · rw [runningBegins_starts h]
    exact ((onIm_touches s _).mono (cs := [.im, .fe])).step (startMeasurement_started false (runningBegun s)).frame
  · rw [runningBegins_rests (by simpa [← Bool.not_eq_true, ← not_and_or] using h)]
    exact (onIm_touches s _).mono

/-- RUNNING ended, the countdown stopped. -/
def runningEnded (s : State) : State := s.onIm fun m => { m with running := false, cycleRun := false }

theorem busy_iff (m : Insulation) : m.busy = true ↔ m.meas ≠ .idle := by
  cases h : m.meas <;> simp [Insulation.busy, h]

theorem runningEnds_idle (u : Nat) (h : s.im.meas = .idle) : runningEnds u s = runningEnded s :=
  if_neg fun hb => (busy_iff _).mp hb h

theorem runningEnds_busy (u : Nat) (h : s.im.meas ≠ .idle) : runningEnds u s = endInvalid .busLow u (runningEnded s) :=
  if_pos ((busy_iff _).mpr h)

theorem imTake_begins {x : SampleSet} (h : s.im.runRequested = true ∧ 500 ≤ x.vBus) (hrun : s.im.running = false) :
    imTake x s = runningBegins s := by
  simp [imTake, h, hrun]

theorem imTake_ends {x : SampleSet} (h : ¬ (s.im.runRequested = true ∧ 500 ≤ x.vBus)) (hrun : s.im.running = true) :
    imTake x s = runningEnds x.vBus s := by
  have hb : (s.im.runRequested && decide (500 ≤ x.vBus)) = false := by simpa using h
  simp [imTake, hb, hrun]

theorem imTake_rests {x : SampleSet} (h : (s.im.runRequested = true ∧ 500 ≤ x.vBus) ↔ s.im.running = true) :
    imTake x s = s := by
  have hb : (s.im.runRequested && decide (500 ≤ x.vBus)) = s.im.running := by
    rw [Bool.eq_iff_iff, ← h]
    simp
  simp [imTake, hb]

/-- A localisation runs in LOCALISING, and while a measurement of its own does. -/
theorem localisationRuns_iff (m : Insulation) : m.localisationRuns = true ↔
    (m.meas = .localising ∨ (m.meas ≠ .idle ∧ m.localise = true)) := by
  simp [Insulation.localisationRuns, busy_iff]

theorem forcedStop_frame (s : State) : Touches [.im, .hc, .fe] s (forcedStop s) := (forcedStop_touches s).mono

theorem forcedStop_im (s : State) : (forcedStop s).im = { s.im with
    runRequested := false, running := false, cycleRun := false, cycleLeft := s.cfg.insPeriodS * 1000
    request := false, meas := .idle, phase := none, window := [], va := none
    worse := if s.im.localisationRuns = true then ⟨1, .fault⟩ else s.im.worse
    locRecord := if s.im.localisationRuns = true then none else s.im.locRecord } := by
  unfold forcedStop
  dsimp only
  split <;> rfl

theorem forcedStop_hc (s : State) : (forcedStop s).hc =
    if s.im.localisationRuns = true then { s.hc with localiseHold := false } else s.hc := by
  unfold forcedStop
  dsimp only
  split <;> rfl

theorem forcedStop_fe (s : State) : (forcedStop s).fe = s.fe.setSwitches false false := by
  unfold forcedStop
  dsimp only
  split <;> rfl

theorem forcedStop_reports (s : State) : takeReports s (forcedStop s) = forcedStop s := by
  have hhc := forcedStop_hc s
  apply takeReports_of_same (forcedStop_frame s).pc_eq <;> rw [hhc] <;> split <;> rfl

end

/-- Settles O28. -/
theorem runningFollowsTheRequestAndTheBus : Obligations.RunningFollowsTheRequestAndTheBus := by
  refine ⟨?_, ?_, ?_⟩
  · intro s hs s0 begun
    have him : s0.im = s.im := found_im .v s
    have hbus : latestVBus s0 = latestVBus s := by rw [latestVBus, latestVBus, found_fe]
    have hstart (t : State) (ht : insStart s0 = t) (hframe : Touches [.im, .fe] s0 t) :
        exec (.insStart .v []) s = .next (replies .v .insStart .ok [] t) :=
      congrArg Host.Outcome.next (request_undisturbed (act := fun s => accept false (insStart s)) hs rfl rfl
        (congrArg (accept false) ht) (hframe.pc_eq.trans (found_pc .v s)) (hframe.hc_eq.trans (found_hc .v s)))
    have hrequested : Touches [.im, .fe] s0 (startRequested s0) := (onIm_touches s0 _).mono
    have hbegins (hr : s.im.runRequested = false) (h5 : 500 ≤ latestVBus s) :
        insStart s0 = runningBegins (startRequested s0) := by
      rw [insStart, if_neg (by rw [him, hr]; simp)]
      exact if_pos (by rw [← hbus] at h5; exact h5)
    have hbegun : runningBegun (startRequested s0) = begun s0 := by
      have hperiod : fullPeriod s0 = s.cfg.insPeriodS * 1000 := by rw [fullPeriod, found_cfg]
      show s0.onIm (fun m => { m with runRequested := true, running := true, cycleRun := true, cycleLeft := fullPeriod s0 }) = _
      rw [hperiod]
      rfl
    refine ⟨fun hr => ?_, fun hr h5 => ?_, fun hr h5 hw => ?_, fun hr h5 hq hi => ?_⟩
    · exact hstart s0 (if_pos (by rw [him, hr])) (.refl _ _)
    · have hrests : insStart s0 = startRequested s0 := by
        rw [insStart, if_neg (by rw [him, hr]; simp)]
        rw [← hbus] at h5
        exact if_neg (Nat.not_le.mpr h5)
      rw [← him]
      exact hstart _ hrests hrequested
    · have hrest : (startRequested s0).im.request = false ∨
          (startRequested s0).im.meas ≠ .idle := by
        rw [← him] at hw
        exact hw
      have ht := (hbegins hr h5).trans (runningBegins_rests hrest)
      rw [← hbegun]
      exact hstart _ ht (hrequested.step ((onIm_touches _ _).mono (cs := [.im, .fe])))
    · have hstarts : (startRequested s0).im.request = true ∧
          (startRequested s0).im.meas = .idle := by
        show s0.im.request = true ∧ s0.im.meas = .idle
        rw [him]
        exact ⟨hq, hi⟩
      have ht := hbegins hr h5
      refine ⟨_, hstart _ ht (hrequested.step (runningBegins_frame _)), ?_⟩
      rw [runningBegins_starts hstarts, hbegun]
      exact startMeasurement_started false (begun s0)
  · intro s hs s0 localises
    have him : s0.im = s.im := found_im .v s
    have hloc : s0.im.localisationRuns = true ↔ localises := by rw [him]; exact localisationRuns_iff s.im
    obtain ⟨ha, hb⟩ := setSwitches_closed false false s0.fe
    refine ⟨forcedStop s0, ?_, ?_, ?_, ?_, ?_, ?_, forcedStop_frame s0⟩
    · exact congrArg Host.Outcome.next ((request_answered (act := fun s => accept false (forcedStop s)) hs rfl rfl rfl).trans
        (congrArg _ (forcedStop_reports s0)))
    · rw [forcedStop_im, him, show s0.cfg = s.cfg from found_cfg .v s]
      rw [him] at hloc
      simp only [hloc]
    · rw [forcedStop_hc, show s0.hc = s.hc from found_hc .v s]
      simp only [hloc]
    · rw [forcedStop_fe, ha]
    · rw [forcedStop_fe, hb]
    · rw [forcedStop_fe, setSwitches_eq, show s0.fe = s.fe from found_fe .v s]
  · intro s x hs hx hdue s1 begun holds
    have hexec (t : State) (ht : takeReports s (imTake x s1) = t) : exec .imSampleTaking s = .next t := by
      show Host.Outcome.next (taking s.fe.dueIm (fun x s => imTake x (s.onFe FrontEnd.imTook)) s) = _
      rw [hdue, taking_due hs hx]
      exact congrArg Host.Outcome.next ht
    have hquiet (t : State) (ht : imTake x s1 = t) (hframe : Touches [.im, .fe] s1 t) : exec .imSampleTaking s = .next t := by
      refine hexec t ?_
      rw [ht]
      exact takeReports_of_drive_eq hframe.pc_eq hframe.hc_eq
    refine ⟨fun h => ?_, fun h hrun hw => ?_, fun h hrun hq hi => ?_, fun h hrun hi => ?_, fun h hrun hi => ?_⟩
    · exact hquiet _ (imTake_rests (s := s1) h) (.refl _ _)
    · exact hquiet (runningBegun s1) ((imTake_begins (s := s1) h hrun).trans (runningBegins_rests hw)) (onIm_touches s1 _).mono
    · refine ⟨_, hquiet _ (imTake_begins (s := s1) h hrun) (runningBegins_frame s1), ?_⟩
      rw [runningBegins_starts (s := s1) ⟨hq, hi⟩]
      exact startMeasurement_started false begun
    · exact hquiet (runningEnded s1) ((imTake_ends (s := s1) h hrun).trans (runningEnds_idle x.vBus hi)) (onIm_touches s1 _).mono
    · obtain ⟨hlast, hoffered, ⟨hphase, -, ha, hb⟩, -, -, -, hrunning⟩ := endInvalid_ended .busLow x.vBus (runningEnded s1)
      have hidle := endInvalid_idle .busLow x.vBus (runningEnded s1)
      have ht : imTake x s1 = endInvalid .busLow x.vBus (runningEnded s1) :=
        (imTake_ends (s := s1) h hrun).trans (runningEnds_busy x.vBus hi)
      obtain ⟨hr, hc, hl, hq⟩ := hrunning
      exact ⟨_, _, hexec _ (by rw [ht]; exact takeReports_of_over (not_inPhase (.inl hidle))), hlast,
        hoffered.of_rs rfl, rfl, rfl, rfl, rfl, rfl, rfl, rfl, rfl, rfl, hr, hc, hl, hq, hidle, hphase, ha, hb⟩

end Sys2Proof.Machine

/-! PROOFS. Chassis samples, the phase timer and the age of the level (R10, R11, R86 to R92, R96). -/

namespace Sys2Proof.Machine

set_option Elab.async false

/-! ## The phase timer and the age of the level (R87, R96) -/

section
variable {s : State}

/-- Time does not move the record of a measurement's end. -/
theorem invalidResult_elapse (hs : s.resetLow = false) (why : InvalidReason) (n : Nat) :
    invalidResult why (latestVBus (elapse n s)) (elapse n s) = { invalidResult why (latestVBus s) s with
      time := stamp s.im.uptime (elapse n s) } := by
  simp only [invalidResult, latestVBus_elapse hs, elapse_im_high hs, Insulation.elapse]

theorem seekVerdict_invalid (c : Machine.Class) (s : State) : seekVerdict false c s = s := by
  refine if_neg ?_
  rintro ⟨-, h, -⟩
  exact Bool.false_ne_true h

/-- An invalid result of no localisation is offered and kept, and no more (R92). -/
theorem resultEvent_invalid {r : ResultRecord} (hv : r.valid = false) (hl : r.localise = false) :
    resultEvent r s = resultKept r s := by
  rw [resultEvent_eq, hv, seekVerdict_invalid, applyResult, if_neg (by simp [hl]), if_neg (by simp [hv])]

theorem ageLeft_none (h : s.im.age = none ∨ s.im.level = .unknown) : ageLeft s = none := by
  unfold ageLeft
  split
  · rfl
  · next hl => rw [h.resolve_right hl]; rfl

theorem ageLeft_some {i : Nat} (h : s.im.age = some i) (hl : s.im.level ≠ .unknown) : ageLeft s = some (ageLimit s - i) := by
  rw [ageLeft, if_neg hl, h]
  rfl

/-- The age timer stopped. -/
def ageStopped (s : State) : State := s.onIm fun m => { m with age := none }

theorem levelAges_moved (h : s.im.level ≠ .unknown) : LevelMoved .unknown (s.im.lastValid.getD ⟨65535, 65535, 0⟩) (ageStopped s)
    (levelAges s) := setLevel_moved (s := ageStopped s) h

end

/-- Settles O31. -/
theorem invalidResultsAndAgeByTimer : Obligations.InvalidResultsAndAgeByTimer := by
  refine ⟨fun s => ⟨fun h => ?_, fun h => ?_⟩, ?_⟩
  · show Host.Outcome.next (atEnd s.im.phase (fun s => endInvalid .settleTimeout (latestVBus s) s) s) = _
    rw [h]
    rfl
  · exact congrArg (fun l => Host.Outcome.next (atEnd l levelAges s)) (ageLeft_none h)
  · intro s n hs u
    have him : u.im = s.im.elapse n := elapse_im_high hs n
    refine ⟨fun hn hphase => ?_, fun i hi hl hleft => ?_⟩
    · obtain ⟨hlast, hoffered, ⟨hph, hva, ha, hb⟩, -⟩ := endInvalid_ended .settleTimeout (latestVBus u) u
      have hidle := endInvalid_idle .settleTimeout (latestVBus u) u
      have hr := invalidResult_elapse hs .settleTimeout n
      have hmeas : (s.im.meas == .localising) = false := by
        rcases (inPhase_iff s.im).mp hphase with h | h <;> rw [h] <;> rfl
      have hquiet (hloc : s.im.localise = false) : endInvalid .settleTimeout (latestVBus u) u =
          resultKept (invalidResult .settleTimeout (latestVBus u) u) (measurementEnded u) := by
        rw [endInvalid_eq, resultEvent_invalid rfl]
        show (invalidResult .settleTimeout (latestVBus (elapse n s)) (elapse n s)).localise = false
        rw [hr]
        show (s.im.meas == .localising || s.im.localise) = false
        rw [hmeas, hloc]
        rfl
      have hexec : exec .phaseTimerExpiry s = .next (endInvalid .settleTimeout (latestVBus u) u) := by
        show Host.Outcome.next (atEnd s.im.phase (fun s => endInvalid .settleTimeout (latestVBus s) s) s) = _
        rw [hn, atEnd_high hs]
        exact congrArg Host.Outcome.next (takeReports_of_over (not_inPhase (.inl hidle)))
      have htime : (stamp s.im.uptime u).unset = !s.ct.valid := by
        rw [stamp_unset]
        show (!(elapse n s).ct.valid) = _
        rw [elapse_ct]
      refine ⟨_, _, hexec, hlast, hoffered.of_rs (elapse_rs n s), hidle, hph, hva, ha, hb, ?_⟩
      rw [show invalidResult .settleTimeout (latestVBus u) u = _ from hr]
      refine ⟨rfl, htime, rfl, rfl, rfl, rfl, rfl, rfl, rfl, rfl, ?_, ?_, fun hloc => ?_⟩
      · show (s.im.meas != .localising && s.im.legFlag) = _
        rw [bne, hmeas]
        rfl
      · show (s.im.meas == .localising || s.im.localise) = _
        rw [hmeas]
        rfl
      · rw [hquiet hloc]
        have hframe : Touches [.fe, .im, .rs, .ports, .free] u
            (resultKept (invalidResult .settleTimeout (latestVBus u) u) (measurementEnded u)) :=
          ((measurementEnded_touches u).mono).step (resultKept_touches _ _)
        have hmon := resultKept_im (invalidResult .settleTimeout (latestVBus u) u) (measurementEnded u)
        rw [measurementEnded_im, him] at hmon
        refine ⟨?_, ?_, ?_, ?_, ?_, ?_, ?_, hframe⟩
        · rw [hmon]
          rfl
        · rw [hmon]
          rfl
        · rw [hmon]
          rfl
        · rw [hmon, him]
          rfl
        · rw [hmon]
          rfl
        · rw [hmon]
          rfl
        · rw [← show invalidResult .settleTimeout (latestVBus u) u = _ from hr]
          exact offer_rs_congr (measurementEnded_touches u).rs_eq _ _
    · intro u1
      have hlu : u.im.level ≠ .unknown := by rw [him]; exact hl
      have hmoved := levelAges_moved hlu
      rw [show u.im.lastValid = s.im.lastValid by rw [him]; rfl] at hmoved
      refine ⟨levelAges u, ?_, hmoved⟩
      have hlimit : ageLimit s - i = n := hleft.symm
      show Host.Outcome.next (atEnd (ageLeft s) levelAges s) = _
      rw [ageLeft_some hi hl, hlimit, atEnd_high hs]

end Sys2Proof.Machine

/-! PROOFS. Chassis samples: the settling of the phases and the result of a measurement (R10, R11, R86, R89 to R92). -/

namespace Sys2Proof.Machine

set_option Elab.async false

/-! ## The window of a phase (R86) -/

theorem pushWindow_eq (w : List Nat) (v : Nat) : pushWindow w v = (if w.length = 3 then w.drop 1 else w) ++ [v] := by
  unfold pushWindow
  split
  · rfl
  · next h =>
    rw [if_neg]
    intro hl
    obtain ⟨a, b, c, rfl⟩ := List.length_eq_three.mp hl
    exact h a b c rfl

theorem settledWindow_iff (tol : Nat) (w : List Nat) :
    settledWindow tol w = true ↔ w.length = 3 ∧ ∀ a ∈ w, ∀ b ∈ w, a ≤ b + tol := by
  unfold settledWindow
  split
  · next a b c =>
    simp only [decide_eq_true_eq, List.length_cons, List.length_nil, List.mem_cons, List.not_mem_nil, or_false, true_and,
      forall_eq_or_imp, forall_eq]
    omega
  · next h =>
    simp only [Bool.false_eq_true, false_iff]
    rintro ⟨hl, -⟩
    obtain ⟨a, b, c, rfl⟩ := List.length_eq_three.mp hl
    exact h a b c rfl

/-! ## The result of a settled phase B (R89, R90) -/

section
variable (va sa vb sb u : Nat) (s : State)

/-- The figures of a sound measurement (R89). -/
def soundFigures : Figures := ⟨rpOf va vb, rnOf va vb u, u⟩

theorem settledResult_low {u : Nat} (h : u < 500) : settledResult va sa vb sb u s =
    { number := s.im.number, time := stamp s.im.uptime s, valid := false, reason := .busLow, va := va, vb := vb
      figures := ⟨0, 0, u⟩, cls := .noClass, settleA := sa, settleB := sb, leg := s.im.legFlag, localise := s.im.localise } := by
  simp [settledResult, h]

theorem settledResult_implausible {va vb u : Nat} (h : 500 ≤ u) (hv : va ≤ vb ∨ u < va) : settledResult va sa vb sb u s =
    { number := s.im.number, time := stamp s.im.uptime s, valid := false, reason := .implausible, va := va, vb := vb
      figures := ⟨0, 0, u⟩, cls := .noClass, settleA := sa, settleB := sb, leg := s.im.legFlag, localise := s.im.localise } := by
  simp [settledResult, Nat.not_lt.mpr h, hv]

theorem settledResult_sound {va vb u : Nat} (h : 500 ≤ u) (hv : vb < va) (hu : va ≤ u) : settledResult va sa vb sb u s =
    { number := s.im.number, time := stamp s.im.uptime s, valid := true, reason := .noReason, va := va, vb := vb
      figures := soundFigures va vb u, cls := classOf s.cfg (soundFigures va vb u), settleA := sa, settleB := sb
      leg := s.im.legFlag, localise := s.im.localise } := by
  have hno : ¬ (va ≤ vb ∨ u < va) := by omega
  simp [settledResult, Nat.not_lt.mpr h, hno, soundFigures]

/-- What every result of a settled phase B carries. -/
theorem settledResult_carried : (settledResult va sa vb sb u s).number = s.im.number ∧
    (settledResult va sa vb sb u s).time = stamp s.im.uptime s ∧
    (settledResult va sa vb sb u s).va = va ∧ (settledResult va sa vb sb u s).vb = vb ∧
    (settledResult va sa vb sb u s).settleA = sa ∧ (settledResult va sa vb sb u s).settleB = sb ∧
    (settledResult va sa vb sb u s).leg = s.im.legFlag ∧ (settledResult va sa vb sb u s).localise = s.im.localise :=
  ⟨rfl, rfl, rfl, rfl, rfl, rfl, rfl, rfl⟩

/-- A result is BUS_LOW, IMPLAUSIBLE or sound, by the bus and the two voltages (R89). -/
theorem settledResult_cases : (u < 500 ∨ (500 ≤ u ∧ (va ≤ vb ∨ u < va))) ∨ (500 ≤ u ∧ vb < va ∧ va ≤ u) := by omega

theorem settledResult_bus : (settledResult va sa vb sb u s).figures.u = u := by
  rcases settledResult_cases va vb u with (h | ⟨h, hv⟩) | ⟨h, hv, hu⟩
  · rw [settledResult_low _ _ _ _ _ h]
  · rw [settledResult_implausible _ _ _ h hv]
  · rw [settledResult_sound _ _ _ h hv hu]
    rfl

theorem settledResult_invalid (h : (settledResult va sa vb sb u s).valid = false) :
    (settledResult va sa vb sb u s).figures = ⟨0, 0, u⟩ ∧ (settledResult va sa vb sb u s).cls = .noClass := by
  rcases settledResult_cases va vb u with (hu | ⟨hu, hv⟩) | ⟨hu, hv, hle⟩
  · rw [settledResult_low _ _ _ _ _ hu]
    exact ⟨rfl, rfl⟩
  · rw [settledResult_implausible _ _ _ hu hv]
    exact ⟨rfl, rfl⟩
  · rw [settledResult_sound _ _ _ hu hv hle] at h
    cases h

end

section
variable {i : Items} {x : Figures}

theorem classOf_fault (h : min x.rp x.rn < rFault i x.u) : classOf i x = .fault := if_pos h

theorem classOf_warning (h : rFault i x.u ≤ min x.rp x.rn) (h' : min x.rp x.rn < rWarn i x.u) : classOf i x = .warning :=
  (if_neg (Nat.not_lt.mpr h)).trans (if_pos h')

theorem classOf_ok (h : rFault i x.u ≤ min x.rp x.rn) (h' : rWarn i x.u ≤ min x.rp x.rn) : classOf i x = .ok :=
  (if_neg (Nat.not_lt.mpr h)).trans (if_neg (Nat.not_lt.mpr h'))

end

/-! ## The taking of a chassis sample (R10, R86) -/

section
variable {x : ChassisSample} {s : State}

/-- The sample is one of phase A, taken with INS_A alone closed. -/
def sampleInA (x : ChassisSample) (s : State) : Prop := s.im.meas = .phaseA ∧ x.insA = true ∧ x.insB = false

/-- The sample is one of phase B, taken with INS_B alone closed. -/
def sampleInB (x : ChassisSample) (s : State) : Prop := s.im.meas = .phaseB ∧ x.insA = false ∧ x.insB = true

theorem takeChassis_idle (ha : ¬ sampleInA x s) (hb : ¬ sampleInB x s) : takeChassis x s = s := by
  unfold takeChassis
  cases hm : s.im.meas with
  | idle | localising => rfl
  | phaseA =>
    refine if_neg fun h => ha ⟨hm, ?_⟩
    simpa using h
  | phaseB =>
    refine if_neg fun h => hb ⟨hm, ?_⟩
    simpa [and_comm] using h

/-- The sample is in the window of its phase. -/
def windowPushed (x : ChassisSample) (s : State) : State := s.onIm fun m => { m with window := pushWindow m.window x.vChs }

theorem takeChassis_waits (h : sampleInA x s ∨ sampleInB x s)
    (hw : ¬ settledWindow s.cfg.insSettleTol (pushWindow s.im.window x.vChs) = true) : takeChassis x s = windowPushed x s := by
  unfold takeChassis
  rcases h with ⟨hm, ha, hb⟩ | ⟨hm, ha, hb⟩ <;> simp only [hm, ha, hb, hw] <;> rfl

theorem takeChassis_settlesA (h : sampleInA x s)
    (hw : settledWindow s.cfg.insSettleTol (pushWindow s.im.window x.vChs) = true) : takeChassis x s = settleA x s := by
  obtain ⟨hm, ha, hb⟩ := h
  simp [takeChassis, hm, ha, hb, hw]

theorem takeChassis_settlesB (h : sampleInB x s)
    (hw : settledWindow s.cfg.insSettleTol (pushWindow s.im.window x.vChs) = true) : takeChassis x s = settleB x s := by
  obtain ⟨hm, ha, hb⟩ := h
  simp [takeChassis, hm, ha, hb, hw]

/-- Phase A settled: the switches swapped in one event, so that the sampler restarts. -/
theorem settleA_eq (ha : s.fe.insA = true) : settleA x s = { s with
    fe := { s.fe with insA := false, insB := true, chassisMs := 0, chassisIndex := 0 }
    im := { s.im with meas := .phaseB, va := some (x.vChs, x.index * 50), phase := some 3000, window := [] } } := by
  unfold settleA
  show State.onIm { s with fe := s.fe.setSwitches false true } _ = _
  rw [setSwitches_restart (.inl (by simp [ha]))]
  rfl

theorem settleB_eq {va sa : Nat} (h : s.im.va = some (va, sa)) : settleB x s =
    resultEvent (settledResult va sa x.vChs (x.index * 50) (latestVBus s) s) (measurementEnded s) := by
  unfold settleB
  rw [h]
  rfl

/-- A 50 ms interval ended: the index counted, the next interval begun. -/
def intervalEnded (s : State) : State :=
  { s with fe := { s.fe with chassisMs := 0, chassisIndex := min 255 (s.fe.chassisIndex + 1) } }

/-- The end of an interval of the sampler, at its 50 ms. -/
theorem deliverChassis_eq (m : Mean) (h : s.fe.chassisMs = 50) :
    deliverChassis m s = takeChassis (chassisSample m (intervalEnded s).fe) (intervalEnded s) := by
  have hnext : s.onFe FrontEnd.nextChassis = intervalEnded s := by
    show { s with fe := { s.fe with chassisMs := s.fe.chassisMs - 50, chassisIndex := satAdd 255 s.fe.chassisIndex 1 } } = _
    rw [h]
    rfl
  rw [← hnext]
  rfl

theorem elapse_chassis (hs : s.resetLow = false) (hms : s.fe.chassisMs ≤ 50) (hon : s.fe.insA = true ∨ s.fe.insB = true) :
    (elapse (50 - s.fe.chassisMs) s).fe = { s.fe with
      windowMs := s.fe.windowMs + (50 - s.fe.chassisMs), chassisMs := 50 } := by
  rw [elapse_fe hs, FrontEnd.elapse, if_pos (by simpa using hon), Nat.add_sub_cancel' hms]

/-- CHASSIS_SAMPLE with a switch closed. -/
theorem exec_chassisSample (m : Mean) (hs : s.resetLow = false) (hms : s.fe.chassisMs ≤ 50)
    (hon : s.fe.insA = true ∨ s.fe.insB = true) :
    exec (.chassisSample m) s = .next (takeReports (elapse (50 - s.fe.chassisMs) s)
      (takeChassis (chassisSample m (intervalEnded (elapse (50 - s.fe.chassisMs) s)).fe)
        (intervalEnded (elapse (50 - s.fe.chassisMs) s)))) := by
  show Host.Outcome.next (atEnd (if s.fe.sampling then some (50 - s.fe.chassisMs) else none) (deliverChassis m) s) = _
  rw [if_pos (by simpa [FrontEnd.sampling] using hon), atEnd_high hs, deliverChassis_eq]
  rw [elapse_chassis hs hms hon]

end

/-- Settles O30. -/
theorem chassisSamplesSettleThePhases : Obligations.ChassisSamplesSettleThePhases := by
  refine ⟨fun m f => ⟨?_, outside_iff 0 6500 m, rfl, rfl, rfl⟩, fun m s ha hb => ?_, fun m s hs hms hon => ?_⟩
  · exact Int.toNat_of_nonneg (clampInt_nonneg (by decide))
  · show Host.Outcome.next (atEnd (if s.fe.sampling then some (50 - s.fe.chassisMs) else none) (deliverChassis m) s) = _
    rw [if_neg (by simp [FrontEnd.sampling, ha, hb])]
    rfl
  · intro v index u w settled inA inB
    have hexec := exec_chassisSample m hs hms hon
    have hfe : u.fe = { s.fe with windowMs := s.fe.windowMs + (50 - s.fe.chassisMs), chassisMs := 50 } :=
      elapse_chassis hs hms hon
    have him : u.im = s.im.elapse (50 - s.fe.chassisMs) := elapse_im_high hs _
    have hcfg : u.cfg = s.cfg := elapse_cfg _ s
    obtain ⟨n, hn⟩ : ∃ n, n = intervalEnded u := ⟨_, rfl⟩
    obtain ⟨x, hx⟩ : ∃ x, x = chassisSample m n.fe := ⟨_, rfl⟩
    have hindex : n.fe.chassisIndex = index := by
      rw [hn]
      show min 255 (u.fe.chassisIndex + 1) = _
      rw [hfe]
    have hstate : n = { u with fe := { u.fe with chassisMs := 0, chassisIndex := index } } := by
      rw [← hindex, hn]
      rfl
    have hnA : n.fe.insA = s.fe.insA := by rw [hn]; show u.fe.insA = _; rw [hfe]
    have hnB : n.fe.insB = s.fe.insB := by rw [hn]; show u.fe.insB = _; rw [hfe]
    have hnim : n.im = s.im.elapse (50 - s.fe.chassisMs) := by rw [hn]; exact him
    have hncfg : n.cfg = s.cfg := by rw [hn]; exact hcfg
    have hxv : x.vChs = v := by rw [hx]; rfl
    have hxi : x.index = index := by rw [hx]; exact hindex
    have hxA : x.insA = s.fe.insA := by rw [hx]; exact hnA
    have hxB : x.insB = s.fe.insB := by rw [hx]; exact hnB
    have hnmeas : n.im.meas = s.im.meas := by rw [hnim]; rfl
    have hA : sampleInA x n ↔ inA := by rw [sampleInA, hnmeas, hxA, hxB]
    have hB : sampleInB x n ↔ inB := by rw [sampleInB, hnmeas, hxA, hxB]
    have hwindow : pushWindow n.im.window x.vChs = w := by rw [hnim, hxv, pushWindow_eq]; rfl
    have hsettled : settledWindow n.cfg.insSettleTol (pushWindow n.im.window x.vChs) = true ↔ settled := by
      rw [hwindow, hncfg]
      exact settledWindow_iff _ _
    have hpc : n.pc = u.pc := by rw [hn]; rfl
    have hhc : n.hc = u.hc := by rw [hn]; rfl
    rw [← hn, ← hx] at hexec
    rw [hexec, ← hstate]
    have hquiet {t : State} (ht : takeChassis x n = t) (h1 : t.pc = n.pc) (h2 : t.hc = n.hc) :
        Host.Outcome.next (takeReports u (takeChassis x n)) = (.next t : Host.Outcome State Fault Refusal) := by
      rw [ht, takeReports_of_drive_eq (h1.trans hpc) (h2.trans hhc)]
    refine ⟨fun h1 h2 => ?_, fun h h' => ?_, fun h h' => ?_, ?_⟩
    · exact hquiet (takeChassis_idle (mt hA.mp h1) (mt hB.mp h2)) rfl rfl
    · have ht := takeChassis_waits (h.imp hA.mpr hB.mpr) (mt hsettled.mp h')
      rw [hquiet ht rfl rfl, windowPushed]
      show Host.Outcome.next { n with im := { n.im with window := pushWindow n.im.window x.vChs } } = _
      rw [hwindow, hstate]
    · have ht := takeChassis_settlesA (hA.mpr h) (hsettled.mpr h')
      rw [settleA_eq (by rw [hnA]; exact h.2.1), hxv, hxi] at ht
      rw [hquiet ht rfl rfl, hstate]
    · intro h h' va sa hva bus rp rn warn fault
      have hvan : n.im.va = some (va, sa) := by rw [hnim]; exact hva
      have hbus : latestVBus n = bus := by
        rw [hn]
        exact latestVBus_elapse hs _
      have ht := (takeChassis_settlesB (hB.mpr h) (hsettled.mpr h')).trans (settleB_eq hvan)
      rw [hxv, hxi, hbus] at ht
      obtain ⟨hlast, hoffered, ⟨hph, -, hoa, hob⟩, hmeas, -, hvalid, -⟩ :=
        resultEvent_ended (settledResult va sa v (index * 50) bus n) n
      obtain ⟨hnum, htime, hrva, hrvb, hrsa, hrsb, hleg, hloc⟩ := settledResult_carried va sa v (index * 50) bus n
      have hclock : n.ct.valid = s.ct.valid ∧ n.ct.day = s.ct.day ∧ n.ct.sec = s.ct.sec := by
        rw [hn]
        show (elapse _ s).ct.valid = _ ∧ (elapse _ s).ct.day = _ ∧ (elapse _ s).ct.sec = _
        rw [elapse_ct]
        exact ⟨rfl, rfl, rfl⟩
      obtain ⟨hcv, hcd, hcs⟩ := hclock
      rw [ht, takeReports_of_over (not_inPhase hmeas)]
      have hup : n.im.uptime = s.im.uptime := by rw [hnim]; rfl
      refine ⟨_, _, rfl, hlast, hoffered.of_rs (by rw [hn]; exact elapse_rs _ s), hnum.trans (by rw [hnim]; rfl), ?_, ?_, ?_,
        hrva, hrvb, hrsa, hrsb, settledResult_bus _ _ _ _ _ _, hleg.trans (by rw [hnim]; rfl), hloc.trans (by rw [hnim]; rfl),
        fun hlow => ?_, fun hu hv => ?_, settledResult_invalid _ _ _ _ _ _, fun hu hlt hle => ?_, hmeas, hph, hoa, hob⟩
      · rw [htime, stamp_unset, hcv]
      · intro hv
        rw [htime, stamp_valid (hcv.trans hv), hcd, hcs]
      · intro hv
        rw [htime, stamp_sec (hcv.trans hv), hup]
      · rw [settledResult_low _ _ _ _ _ hlow]
        exact ⟨rfl, rfl⟩
      · rw [settledResult_implausible _ _ _ hu hv]
        exact ⟨rfl, rfl⟩
      · have hr := settledResult_sound sa (index * 50) n hu hlt hle
        rw [hr] at hvalid ⊢
        rw [hncfg]
        refine ⟨rfl, rfl, rfl, fun h => classOf_fault (x := soundFigures va v bus) h,
          fun h h' => classOf_warning (x := soundFigures va v bus) h h',
          fun h h' => classOf_ok (x := soundFigures va v bus) h h', ?_⟩
        rw [hncfg] at hvalid
        exact hvalid rfl

end Sys2Proof.Machine

/-! PROOFS. The plan of the record store: areas set and cleared (R149 to R151, R194). -/

namespace Sys2Proof.Machine

set_option Elab.async false

/-! ## Plan requests (R149, R194) -/

section
variable {s t : State} {p : Port} {k : Kind} {b items : List Byte} {x : Status} {act : State → Answer}

/-- The state a plan reply leaves: a free value has been drawn for the area table. -/
theorem draw_found (hfree : t.free = s.free) : t.draw = { t with free := s.free + 1 } := by rw [State.draw, hfree]

/-- A plan request that drives nothing: its reply carries the area table after the request. -/
theorem request_planned (h : s.resetLow = false) (hlen : lengthOk k b = true) (hport : portOk k p = true)
    (hact : act (found p s) = planReply x items t) (hpc : t.pc = s.pc) (hhc : t.hc = s.hc) (hfree : t.free = s.free) :
    request p k b act s = replies p k x (items ++ areaTable t) { t with free := s.free + 1 } := by
  rw [request_undisturbed h hlen hport hact (t := t.draw) hpc hhc, draw_found hfree]

theorem found_free (p : Port) (s : State) : (found p s).free = s.free := found_frame p s .free (by simp)

/-- A plan request refused: the area table of the state it found. -/
theorem request_plan_refused (h : s.resetLow = false) (hlen : lengthOk k b = true) (hport : portOk k p = true)
    (hact : act (found p s) = planReply x [] (found p s)) :
    request p k b act s = replies p k x (areaTable (found p s)) { found p s with free := s.free + 1 } :=
  request_planned h hlen hport hact (found_pc p s) (found_hc p s) (found_free p s)

end

/-! ## The area table (R149, R194) -/

theorem be_length (k n : Nat) : (be k n).length = k := by simp [be]

theorem areaEntry_length (s : State) (i : Nat) (a : Option Area) : (areaEntry s i a).length = 5 := by
  cases a <;> simp [areaEntry, bFlag, b1, be_length]

theorem areaTable_length (s : State) : (areaTable s).length = 30 := by simp [areaTable, areaEntry_length]

/-- The entry of area `i` stands at 5 × `i`. -/
theorem areaTable_entry (s : State) {i : Nat} (hi : i ≤ 5) :
    ((areaTable s).drop (5 * i)).take 5 = areaEntry s i (s.rs.defined i) := by
  have hdrop {n k : Nat} (a : Option Area) (hn : 5 ≤ n) : (areaEntry s k a).drop n = [] :=
    List.drop_eq_nil_of_le (by rwa [areaEntry_length])
  have htake {k : Nat} (a : Option Area) : (areaEntry s k a).take 5 = areaEntry s k a :=
    List.take_of_length_le (areaEntry_length s k a).le
  have hl := areaEntry_length s
  match i, hi with
  | 0, _ => simp [areaTable, hl, Store.defined]
  | 1, _ => simp [areaTable, hl, Store.defined]
  | 2, _ => simp [areaTable, List.drop_append, hl, hdrop, Store.defined]
  | 3, _ => simp [areaTable, List.drop_append, hl, hdrop, Store.defined]
  | 4, _ => simp [areaTable, List.drop_append, hl, hdrop, Store.defined]
  | 5, _ => simp [areaTable, List.drop_append, hl, hdrop, htake, Store.defined]

theorem joinedOn_iff {r : Store} {i : Nat} {st : Stream} :
    ((r.stream st).join.any fun j => j.area == i) = true ↔ ∃ j, (r.stream st).join = some j ∧ j.area = i := by
  cases (r.stream st).join <;> simp

/-- The joined stream of an area is the one whose join names it (R194). -/
theorem joinedCode_of_own {r : Store} {i : Nat} {st : Stream} {j : Join} (hj : (r.stream st).join = some j) (hi : j.area = i)
    (hown : ∀ st' j', st' ≠ st → (r.stream st').join = some j' → j'.area ≠ i) : joinedCode r i = st.code := by
  have hon : ((r.stream st).join.any fun j => j.area == i) = true := joinedOn_iff.mpr ⟨j, hj, hi⟩
  have hoff {st' : Stream} (hne : st' ≠ st) : ((r.stream st').join.any fun j => j.area == i) = false :=
    Bool.eq_false_iff.mpr fun h => by
      obtain ⟨j', hj', ha⟩ := joinedOn_iff.mp h
      exact hown st' j' hne hj' ha
  have hcode : joinedCode r i = if (r.stream .billing).join.any (fun j => j.area == i) then 0
      else if (r.stream .insulation).join.any (fun j => j.area == i) then 1
      else if (r.stream .events).join.any (fun j => j.area == i) then 2
      else if (r.stream .readings).join.any (fun j => j.area == i) then 3 else 4 := rfl
  rw [hcode]
  cases st with
  | billing => rw [if_pos hon]; rfl
  | insulation => rw [hoff (st' := .billing) (by decide), if_pos hon]; rfl
  | events => rw [hoff (st' := .billing) (by decide), hoff (st' := .insulation) (by decide), if_pos hon]; rfl
  | readings =>
    rw [hoff (st' := .billing) (by decide), hoff (st' := .insulation) (by decide), hoff (st' := .events) (by decide),
      if_pos hon]
    rfl

theorem joinedCode_of_none {r : Store} {i : Nat} (h : ∀ st j, (r.stream st).join = some j → j.area ≠ i) :
    joinedCode r i = 4 := by
  have hoff (st : Stream) : ((r.stream st).join.any fun j => j.area == i) = false :=
    Bool.eq_false_iff.mpr fun hon => by
      obtain ⟨j, hj, ha⟩ := joinedOn_iff.mp hon
      exact h st j hj ha
  have h0 := hoff .billing
  have h1 := hoff .insulation
  have h2 := hoff .events
  have h3 := hoff .readings
  simp only [Store.stream] at h0 h1 h2 h3
  simp [joinedCode, h0, h1, h2, h3]

/-! ## AREA_SET and AREA_CLEAR (R150, R151) -/

section
variable {i : Nat} {a : Area} {r : Store}

/-- The slots of the area are too few, too many or outside the store (R150, check 3). -/
def Area.bad (a : Area) : Prop := a.count < 4 ∨ 256 < a.count ∨ 255 < a.first + a.count - 1

theorem areaSetRefusal_high (h : 5 < i) : areaSetRefusal i a r = some .invalid := if_pos h

theorem areaSetRefusal_joined (h : i ≤ 5) (hj : r.joined i = true) : areaSetRefusal i a r = some .busy :=
  (if_neg (Nat.not_lt.mpr h)).trans (if_pos hj)

theorem areaSetRefusal_bad (h : i ≤ 5) (hj : ¬ r.joined i = true) (hb : a.bad) : areaSetRefusal i a r = some .invalid :=
  (if_neg (Nat.not_lt.mpr h)).trans ((if_neg hj).trans (if_pos hb))

theorem areaSetRefusal_overlap (h : i ≤ 5) (hj : ¬ r.joined i = true) (hb : ¬ a.bad) (ho : r.overlaps i a = true) :
    areaSetRefusal i a r = some .overlap :=
  (if_neg (Nat.not_lt.mpr h)).trans ((if_neg hj).trans ((if_neg hb).trans (if_pos ho)))

theorem areaSetRefusal_none (h : i ≤ 5) (hj : ¬ r.joined i = true) (hb : ¬ a.bad) (ho : ¬ r.overlaps i a = true) :
    areaSetRefusal i a r = none :=
  (if_neg (Nat.not_lt.mpr h)).trans ((if_neg hj).trans ((if_neg hb).trans (if_neg ho)))

variable {b : List Byte} {s : State} {x : Status}

theorem answerAreaSet_refused (h : areaSetRefusal (u8 b 0) ⟨u8 b 1, u16 b 2⟩ s.rs = some x) :
    answerAreaSet b s = planReply x [] s := by
  unfold answerAreaSet
  dsimp only
  rw [h]

theorem answerAreaSet_done (h : areaSetRefusal (u8 b 0) ⟨u8 b 1, u16 b 2⟩ s.rs = none) :
    answerAreaSet b s = planReply .ok [] (s.onRs fun r => r.putArea (u8 b 0) (some ⟨u8 b 1, u16 b 2⟩)) := by
  unfold answerAreaSet
  dsimp only
  rw [h]

theorem answerAreaClear_high (h : 5 < u8 b 0) : answerAreaClear b s = planReply .invalid [] s := if_pos h

theorem answerAreaClear_joined (h : u8 b 0 ≤ 5) (hj : s.rs.joined (u8 b 0) = true) :
    answerAreaClear b s = planReply .busy [] s := (if_neg (Nat.not_lt.mpr h)).trans (if_pos hj)

theorem answerAreaClear_done (h : u8 b 0 ≤ 5) (hj : ¬ s.rs.joined (u8 b 0) = true) :
    answerAreaClear b s = planReply .ok [] (s.onRs fun r => r.putArea (u8 b 0) none) :=
  (if_neg (Nat.not_lt.mpr h)).trans (if_neg hj)

end

/-- Settles O45. -/
theorem areasAreSetAndClearedWhenFree : Obligations.AreasAreSetAndClearedWhenFree := by
  refine ⟨?_, fun s i hi => ⟨areaTable_length s, ?_⟩⟩
  · intro b s hs s0 i a joined bad meets wrote
    have hrs : s0.rs = s.rs := found_rs .t s
    have hjoined : s0.rs.joined i = true ↔ joined := by rw [hrs]; exact Store.joined_iff
    have hmeets : s0.rs.overlaps i a = true ↔ meets := by
      rw [hrs, Store.overlaps_iff]
      simp only [Area.meets, Bool.and_eq_true, decide_eq_true_eq]
      rfl
    have hwrote (x : Option Area) (hi : i ≤ 5) : wrote x (s0.onRs fun r => r.putArea i x) := by
      refine ⟨Store.defined_putArea_self hi x, fun n hn => ?_, ?_, fun st => ?_, onRs_touches s0 _⟩
      · show (s0.rs.putArea i x).defined n = _
        rw [Store.defined_putArea_other _ hn, hrs]
      · show s0.rs.slots = _
        rw [hrs]
      · show (s0.rs.putArea i x).stream st = _
        rw [Store.putArea_stream, hrs]
    refine ⟨fun hb => ?_, fun hb => ?_⟩
    · have hlen : lengthOk .areaSet b = true := beq_iff_eq.mpr hb
      have hrefused {x : Status} (h : areaSetRefusal i a s0.rs = some x) :
          exec (.areaSet .t b) s = .next (replies .t .areaSet x (areaTable s0) { s0 with free := s.free + 1 }) :=
        congrArg Host.Outcome.next (request_plan_refused hs hlen rfl (answerAreaSet_refused h))
      refine ⟨fun h => hrefused (areaSetRefusal_high h), fun h hj => hrefused (areaSetRefusal_joined h (hjoined.mpr hj)),
        fun h hj hbad => hrefused (areaSetRefusal_bad h (mt hjoined.mp hj) hbad),
        fun h hj hbad hm => hrefused (areaSetRefusal_overlap h (mt hjoined.mp hj) hbad (hmeets.mpr hm)),
        fun h hj hbad hm => ⟨_, hwrote (some a) h, ?_⟩⟩
      have hnone := areaSetRefusal_none (a := a) h (mt hjoined.mp hj) hbad (mt hmeets.mp hm)
      exact congrArg Host.Outcome.next (request_planned hs hlen rfl (answerAreaSet_done hnone) (found_pc .t s) (found_hc .t s)
        (found_free .t s))
    · have hlen : lengthOk .areaClear b = true := beq_iff_eq.mpr hb
      have hrefused {x : Status} (h : answerAreaClear b s0 = planReply x [] s0) :
          exec (.areaClear .t b) s = .next (replies .t .areaClear x (areaTable s0) { s0 with free := s.free + 1 }) :=
        congrArg Host.Outcome.next (request_plan_refused hs hlen rfl h)
      have hhigh (h : 5 < i) : answerAreaClear b s0 = planReply .invalid [] s0 := answerAreaClear_high h
      have hbusy (h : i ≤ 5) (hj : joined) : answerAreaClear b s0 = planReply .busy [] s0 :=
        answerAreaClear_joined h (hjoined.mpr hj)
      have hdone (h : i ≤ 5) (hj : ¬ joined) : answerAreaClear b s0 = planReply .ok [] (s0.onRs fun r => r.putArea i none) :=
        answerAreaClear_done h (mt hjoined.mp hj)
      have hcleared (h : i ≤ 5) (hj : ¬ joined) := request_planned (p := .t) (k := .areaClear) hs hlen rfl (hdone h hj)
        (found_pc .t s) (found_hc .t s) (found_free .t s)
      exact ⟨fun h => hrefused (hhigh h), fun h hj => hrefused (hbusy h hj), fun h hj => ⟨s0.onRs fun r => r.putArea i none,
        hwrote none h, congrArg Host.Outcome.next (hcleared h hj)⟩⟩
  · rw [areaTable_entry s hi]
    refine ⟨fun a ha => ?_, fun hnone => ?_, fun st j ok hj ha => ?_, joinedCode_of_none⟩
    · rw [ha]
      rfl
    · rw [hnone]
      exact ⟨rfl, rfl⟩
    · exact joinedCode_of_own hj ha fun st' j' hne hj' => ha ▸ ok.own st' st j' j hne hj' hj

end Sys2Proof.Machine

/-! PROOFS. The snapshot engine: occurrences, SNAPSHOT_NOW, and the setting of its tables (R166 to R169, R175). -/

namespace Sys2Proof.Machine

set_option Elab.async false

/-! ## Sets on the wire (R189) -/

theorem setSum_bit (b : Bool) (l : List Bool) : setSum (b :: l) = Nat.bit b (setSum l) := by
  cases b
  · exact Nat.zero_add _
  · exact Nat.add_comm _ _

theorem setSum_lt (l : List Bool) : setSum l < 2 ^ l.length := by
  induction l with
  | nil => exact Nat.one_pos
  | cons b l ih =>
    rw [List.length_cons, Nat.pow_succ, setSum]
    split <;> omega

/-- Bit `i` of a set is its member `i`. -/
theorem setSum_testBit (l : List Bool) (i : Nat) : (setSum l).testBit i = l[i]?.getD false := by
  induction l generalizing i with
  | nil => simp [setSum]
  | cons b l ih =>
    rw [setSum_bit]
    cases i with
    | zero => simp
    | succ i => simp [Nat.testBit_bit_succ, ih]

theorem sourceList_get (k : Fin 12) : sourceList[k.val]? = some k := by revert k; decide

/-- A set of sources. -/
theorem sourceSum_lt (f : Fin 12 → Bool) : setSum (sourceList.map f) < 4096 :=
  (setSum_lt _).trans_eq (by rw [List.length_map]; rfl)

theorem sourceSum_testBit (f : Fin 12 → Bool) (k : Fin 12) : (setSum (sourceList.map f)).testBit k.val = f k := by
  rw [setSum_testBit, List.getElem?_map, sourceList_get]
  rfl

/-! ## Occurrences (R166, R175) -/

section
variable {port : Option Port} {src : Source} {s : State}

theorem occurFrom_pends (h : occurOutcome src s = .pended) :
    (occurFrom port src s).se = { s.se with
      waiting := vput s.se.waiting src.code (some ⟨stamp s.se.uptime s, port⟩) } ∧
    Touches [.se, .free] s (occurFrom port src s) := by
  rw [occurFrom_pended s h]
  refine ⟨?_, ((stamped_touches s).mono (cs := [.se, .free])).step (onSe_touches _ _)⟩
  rw [State.onSe_se, stamped_se]

theorem occurFrom_misses (h : occurOutcome src s = .missed) :
    (occurFrom port src s).se = { s.se with
      missed := vput s.se.missed src.code (min 255 (s.se.missed.get src.code + 1)) } ∧
    Touches [.se, .ports] s (occurFrom port src s) ∧ Raised .capture (occurFrom port src s) := by
  rw [occurFrom_missed s h]
  refine ⟨?_, ((onSe_touches s _).mono (cs := [.se, .ports])).step (raiseAll_touches _ _), raiseAll_raised _ _⟩
  rw [(raiseAll_touches _ _).se_eq, State.onSe_se]
  rfl

theorem occurOutcome_code : (occurOutcome src s).code =
    if (s.se.vectors.get src.code).enabled = false then 2 else if s.se.waiting.get src.code = none then 0 else 1 := by
  cases h : occurOutcome src s with
  | disabled => rw [if_pos ((occurOutcome_eq_disabled s).mp h)]; rfl
  | pended =>
    obtain ⟨hon, hw⟩ := (occurOutcome_eq_pended s).mp h
    rw [if_neg (by simp [hon]), if_pos hw]
    rfl
  | missed =>
    obtain ⟨hon, hw⟩ := (occurOutcome_eq_missed s).mp h
    rw [if_neg (by simp [hon]), if_neg (by intro hn; simp [hn] at hw)]
    rfl

end

/-- Settles O48. -/
theorem occurrencesJoinOrAreMissed : Obligations.OccurrencesJoinOrAreMissed := by
  refine ⟨?_, ?_⟩
  · intro port src s t k on
    refine ⟨fun hoff => ?_, fun hon hw => ?_, fun m hon hw => ?_⟩
    · exact occurFrom_disabled s ((occurOutcome_eq_disabled s).mpr (Bool.eq_false_of_not_eq_true hoff))
    · obtain ⟨hse, hframe⟩ := occurFrom_pends (port := port) ((occurOutcome_eq_pended s).mpr ⟨hon, hw⟩)
      have hwait : t.se.waiting = vput s.se.waiting k (some ⟨stamp s.se.uptime s, port⟩) :=
        congrArg SnapshotEngine.waiting hse
      refine ⟨⟨_, by rw [hwait, vput_get_self], rfl, stamp_unset _ s, stamp_valid, stamp_sec⟩, fun i hi => ?_, ?_, hframe⟩
      · rw [hwait, vput_get_other _ _ _ _ hi]
      · rw [hwait]
        exact hse
    · obtain ⟨hse, hframe, hraised⟩ := occurFrom_misses (port := port)
        ((occurOutcome_eq_missed s).mpr ⟨hon, by rw [show src.code = k from rfl, hw]; rfl⟩)
      have hmissed : t.se.missed = vput s.se.missed k (min 255 (s.se.missed.get k + 1)) :=
        congrArg SnapshotEngine.missed hse
      refine ⟨by rw [hmissed, vput_get_self], fun i hi => ?_, ?_, hraised, (occurFrom_tells s port src).flags, hframe⟩
      · rw [hmissed, vput_get_other _ _ _ _ hi]
      · rw [hmissed]
        exact hse
  · intro p s hs s0 t outcome
    have hframe : Touches signals s0 t := occurFrom_touches _ _ s0
    have hcode : (occurOutcome .request s0).code = outcome := by
      rw [occurOutcome_code, show s0.se = s.se from found_se p s]
      rfl
    refine ⟨setSum (sourceList.map fun k => (t.se.waiting.get k).isSome), ?_, sourceSum_lt _, fun k => by
      rw [sourceSum_testBit]⟩
    rw [← hcode]
    exact congrArg Host.Outcome.next (request_undisturbed (act := answerSnapshot p) hs rfl rfl rfl
      (hframe.pc_eq.trans (found_pc p s)) (hframe.hc_eq.trans (found_hc p s)))

/-! ## DESC_SET and VECTOR_SET (R167 to R169) -/

section
variable {b : List Byte} {s : State}

/-- The checks of a DESC_SET's operands (R169). -/
def descBad (b : List Byte) : Prop := 15 < u8 b 0 ∨ 1 < u8 b 1 ∨ 5 < u8 b 2 ∨ u8 b 3 < 2 ∨ 3 < u8 b 3

theorem fieldSetOf_none {n : Nat} (h : 5 < n) : fieldSetOf n = none := by
  match n, h with
  | n + 6, _ => rfl

theorem fieldSetOf_code {n : Nat} {f : FieldSet} (h : fieldSetOf n = some f) : n ≤ 5 := by
  by_contra hn
  rw [fieldSetOf_none (by omega)] at h
  cases h

theorem fieldSetOf_some {n : Nat} (h : n ≤ 5) : ∃ f, fieldSetOf n = some f := by
  match n, h with
  | 0, _ => exact ⟨_, rfl⟩
  | 1, _ => exact ⟨_, rfl⟩
  | 2, _ => exact ⟨_, rfl⟩
  | 3, _ => exact ⟨_, rfl⟩
  | 4, _ => exact ⟨_, rfl⟩
  | 5, _ => exact ⟨_, rfl⟩

theorem descOf_bad (h : descBad b) : descOf b = none := by
  unfold descOf
  split
  · rfl
  · next f hf =>
    have hle := fieldSetOf_code hf
    exact if_pos (by unfold descBad at h; omega)

/-- The descriptor a sound DESC_SET carries (R169, R190). -/
def descCarried (f : FieldSet) (b : List Byte) : Descriptor :=
  { repeating := u8 b 1 = 1, fieldSet := f, toReadings := u8 b 3 = 3, count := u16 b 4
    reload := if u16 b 6 = 0 then 1 else u16 b 6, chain := (u8 b 8).testBit 0, notify := (u8 b 8).testBit 1 }

theorem descOf_good {f : FieldSet} (h : ¬ descBad b) (hf : fieldSetOf (u8 b 2) = some f) : descOf b = some (descCarried f b) := by
  have hno : ¬ (15 < u8 b 0 ∨ 1 < u8 b 1 ∨ u8 b 3 < 2 ∨ 3 < u8 b 3) := by unfold descBad at h; omega
  have hreload : max 1 (u16 b 6) = if u16 b 6 = 0 then 1 else u16 b 6 := by split <;> omega
  unfold descOf
  rw [hf]
  dsimp only
  rw [if_neg hno, hreload, descCarried, Nat.testBit_zero, Nat.testBit_succ, Nat.testBit_zero]

/-- The descriptor as its reply carries it (R194). -/
theorem descWire_carried (f : FieldSet) (h : ¬ descBad b) : descWire (descCarried f b) =
    b1 (u8 b 1) ++ b1 f.code ++ b1 (u8 b 3) ++ be 2 (descCarried f b).count ++ be 2 (descCarried f b).reload ++
      bFlag (descCarried f b).chain ++ bFlag (descCarried f b).notify := by
  have hmode : bFlag (descCarried f b).repeating = b1 (u8 b 1) := by
    have hcases : u8 b 1 = 0 ∨ u8 b 1 = 1 := by unfold descBad at h; omega
    rcases hcases with hc | hc <;> simp [descCarried, bFlag, hc]
  have hstream : (descCarried f b).stream.code = u8 b 3 := by
    have hcases : u8 b 3 = 2 ∨ u8 b 3 = 3 := by unfold descBad at h; omega
    rcases hcases with hc | hc <;> simp [descCarried, Descriptor.stream, hc, Stream.code]
  rw [descWire, hmode, hstream]
  rfl

theorem inService_iff (i : Nat) (e : SnapshotEngine) : inService i e = true ↔
    (∃ v, e.service = some v ∧ i ∈ v.chain) ∨ i ∈ e.justServed := by
  unfold inService
  cases e.service <;> simp

theorem answerDesc_bad (h : descBad b) : answerDesc b s = refuse .invalid s := by
  rw [answerDesc, descOf_bad h]

theorem answerDesc_busy {d : Descriptor} (hd : descOf b = some d) (h : inService (u8 b 0) s.se = true) :
    answerDesc b s = refuse .busy s := by
  rw [answerDesc, hd]
  exact if_pos h

theorem answerDesc_done {d : Descriptor} (hd : descOf b = some d) (h : ¬ inService (u8 b 0) s.se = true) :
    answerDesc b s = ⟨writeDesc (u8 b 0) d s, if u16 b 6 = 0 then .clamped else .ok,
      descWire d ++ be 2 (setSum (sourceList.map (disabledBy (u8 b 0) d s.se)))⟩ := by
  rw [answerDesc, hd]
  exact if_neg h

end

/-! ### Disabling -/

section
variable (f : Fin 12 → Bool) (e : SnapshotEngine)

theorem disable_waiting (k n : Fin 12) : (e.disable k).waiting.get n = if n = k then none else e.waiting.get n :=
  vput_get _ _ _ _

/-- Disabling changes the vectors and the pending set alone. -/
theorem disableWhere_rest (ks : List (Fin 12)) : e.disableWhere f ks = { e with
    vectors := (e.disableWhere f ks).vectors, waiting := (e.disableWhere f ks).waiting } := by
  induction ks generalizing e with
  | nil => rfl
  | cons k ks ih =>
    unfold SnapshotEngine.disableWhere
    rw [ih]
    split <;> rfl

/-- A source outside the condition or the list stays. -/
theorem disableWhere_kept {ks : List (Fin 12)} {n : Fin 12} (h : f n = false) :
    (e.disableWhere f ks).vectors.get n = e.vectors.get n ∧ (e.disableWhere f ks).waiting.get n = e.waiting.get n := by
  induction ks generalizing e with
  | nil => exact ⟨rfl, rfl⟩
  | cons k ks ih =>
    unfold SnapshotEngine.disableWhere
    obtain ⟨hv, hw⟩ := ih (if f k then e.disable k else e)
    rw [hv, hw]
    split
    · next hk =>
      have hne : n ≠ k := by
        rintro rfl
        exact Bool.false_ne_true (h.symm.trans hk)
      rw [disable_vector, disable_waiting, if_neg hne, if_neg hne]
      exact ⟨rfl, rfl⟩
    · exact ⟨rfl, rfl⟩

/-- A pending member withdrawn stays withdrawn. -/
theorem disableWhere_withdrawn {ks : List (Fin 12)} {n : Fin 12} (h : e.waiting.get n = none) :
    (e.disableWhere f ks).waiting.get n = none := by
  induction ks generalizing e with
  | nil => exact h
  | cons k ks ih =>
    unfold SnapshotEngine.disableWhere
    refine ih _ ?_
    split
    · rw [disable_waiting, h, ite_self]
    · exact h

theorem disableWhere_empties {ks : List (Fin 12)} {n : Fin 12} (hn : n ∈ ks) (h : f n = true) :
    (e.disableWhere f ks).waiting.get n = none := by
  induction ks generalizing e with
  | nil => cases hn
  | cons k ks ih =>
    unfold SnapshotEngine.disableWhere
    rcases List.mem_cons.mp hn with rfl | hmem
    · rw [if_pos h]
      exact disableWhere_withdrawn f _ (by rw [disable_waiting, if_pos rfl])
    · exact ih _ hmem

/-- Each source that satisfies the condition is disabled, its first descriptor kept, and its pending member withdrawn. -/
theorem disableWhere_hit {n : Fin 12} (h : f n = true) :
    (e.disableWhere f sourceList).vectors.get n = ⟨false, (e.vectors.get n).first⟩ ∧
    (e.disableWhere f sourceList).waiting.get n = none := by
  refine ⟨?_, disableWhere_empties f e (mem_sourceList n) h⟩
  have hoff := disableWhere_disabled (mem_sourceList n) h e
  have hfirst := (disableWhere_disablesOnly f sourceList e).first n
  rw [← hoff, ← hfirst]

end

section
variable {i : Nat} {d : Descriptor} {s : State}

theorem writeDesc_se : (writeDesc i d s).se = (s.se.putDesc i d).disableWhere (disabledBy i d s.se) sourceList := rfl

theorem writeDesc_touches : Touches [.se] s (writeDesc i d s) := onSe_touches s _

theorem writeDesc_desc_self : (writeDesc i d s).se.desc i = d := by
  rw [writeDesc_se, SnapshotEngine.desc, (disableWhere_disablesOnly _ _ _).descs]
  exact desc_putDesc_self s.se i d

theorem writeDesc_desc_other {m : Nat} (hi : i ≤ 15) (hm : m ≤ 15) (h : m ≠ i) :
    (writeDesc i d s).se.desc m = s.se.desc m := by
  rw [writeDesc_se, SnapshotEngine.desc, (disableWhere_disablesOnly _ _ _).descs]
  exact desc_putDesc_other s.se hi hm h d

theorem disabledBy_iff (e : SnapshotEngine) (k : Fin 12) : disabledBy i d e k = true ↔
    d.spent = true ∧ e.vectors.get k = ⟨true, i⟩ := by
  have hentry : e.vectors.get k = ⟨true, i⟩ ↔ (e.vectors.get k).first = i ∧ (e.vectors.get k).enabled = true := by
    obtain ⟨on, first⟩ := e.vectors.get k
    simp [and_comm]
  rw [hentry]
  simp [disabledBy, SnapshotEngine.names, and_assoc]

/-- The entry of a source written (R168). -/
theorem writeVector_se (k : Fin 12) (on : Bool) (first : Nat) (s : State) : (writeVector k on first s).se = { s.se with
    vectors := vput s.se.vectors k ⟨on, first⟩
    missed := vput s.se.missed k 0
    waiting := if on then s.se.waiting else vput s.se.waiting k none } := rfl

theorem spent_iff (d : Descriptor) : d.spent = true ↔ d.repeating = false ∧ d.count = 0 := by simp [Descriptor.spent]

theorem answerVector_bad {b : List Byte} (h : 11 < u8 b 0 ∨ 15 < u8 b 2) : answerVector b s = refuse .invalid s := if_pos h

theorem answerVector_spent {b : List Byte} (h : ¬ (11 < u8 b 0 ∨ 15 < u8 b 2))
    (hs : (flag b 1 && (s.se.desc (u8 b 2)).spent) = true) : answerVector b s = refuse .exhausted s :=
  (if_neg h).trans (if_pos hs)

theorem answerVector_done {b : List Byte} {k : Fin 12} (hk : k.val = u8 b 0) (h : ¬ (11 < u8 b 0 ∨ 15 < u8 b 2))
    (hs : ¬ (flag b 1 && (s.se.desc (u8 b 2)).spent) = true) : answerVector b s =
      ⟨writeVector k (flag b 1) (u8 b 2) s, .ok, bFlag (flag b 1) ++ b1 (u8 b 2) ++ b1 (s.se.missed.get k)⟩ := by
  have hof : Fin.ofNat 12 (u8 b 0) = k := by
    rw [← hk]
    exact Fin.ext (Nat.mod_eq_of_lt k.isLt)
  rw [answerVector, if_neg h, if_neg hs, hof]

end

/-- Settles O50. -/
theorem snapshotTablesAreSetWithTheirChecks : Obligations.SnapshotTablesAreSetWithTheirChecks := by
  intro b s hs s0 i
  have hse : s0.se = s.se := found_se .t s
  refine ⟨fun hb => ?_, fun hb => ?_⟩
  · intro invalid busy
    have hlen : lengthOk .descSet b = true := beq_iff_eq.mpr hb
    have hbusy : inService i s0.se = true ↔ busy := by
      rw [hse]
      exact inService_iff i s.se
    have hrefused {x : Status} (h : answerDesc b s0 = refuse x s0) :
        exec (.descSet .t b) s = .next (replies .t .descSet x [] s0) :=
      congrArg Host.Outcome.next (request_of_answer_unchanged hs hlen rfl h)
    refine ⟨fun h => hrefused (answerDesc_bad h), fun hgood hb => ?_, ?_⟩
    · obtain ⟨f, hf⟩ : ∃ f, fieldSetOf (u8 b 2) = some f := fieldSetOf_some (by
        have : ¬ descBad b := hgood
        unfold descBad at this
        omega)
      exact hrefused (answerDesc_busy (descOf_good hgood hf) (hbusy.mpr hb))
    · intro f hgood hfree hf d hit
      have hi : i ≤ 15 := by
        have : ¬ descBad b := hgood
        unfold descBad at this
        omega
      have hd : d = descCarried f b := rfl
      have hhit (k : Fin 12) : disabledBy i d s.se k = true ↔ hit k := by
        rw [disabledBy_iff, spent_iff, and_assoc]
        have hmode : d.repeating = false ↔ u8 b 1 = 0 := by
          have : ¬ descBad b := hgood
          unfold descBad at this
          have hcases : u8 b 1 = 0 ∨ u8 b 1 = 1 := by omega
          rcases hcases with hc | hc <;> simp [hd, descCarried, hc]
        rw [hmode]
      have hact := answerDesc_done (s := s0) (descOf_good hgood hf) (mt hbusy.mp hfree)
      rw [descWire_carried f hgood, show s0.se = s.se from hse] at hact
      refine ⟨writeDesc i d s0, setSum (sourceList.map (disabledBy i d s.se)), congrArg Host.Outcome.next
        (request_undisturbed hs hlen rfl hact (found_pc .t s) (found_hc .t s)), sourceSum_lt _, writeDesc_desc_self,
        fun m hm hne => by rw [writeDesc_desc_other hi hm hne, hse], fun k => ⟨?_, fun hk => ?_, fun hk => ?_⟩, ?_, ?_, ?_,
        writeDesc_touches⟩
      · rw [sourceSum_testBit, hhit]
      · obtain ⟨hv, hw⟩ := disableWhere_hit (disabledBy i d s.se) (s.se.putDesc i d) ((hhit k).mpr hk)
        rw [writeDesc_se, hse, hw, hv]
        refine ⟨?_, rfl⟩
        show VectorEntry.mk false (s.se.vectors.get k).first = _
        rw [hk.2.2]
      · rw [writeDesc_se, hse]
        exact disableWhere_kept (disabledBy i d s.se) (s.se.putDesc i d)
          (Bool.eq_false_of_not_eq_true (mt (hhit k).mp hk))
      · rw [writeDesc_se, hse, disableWhere_rest]
        rfl
      · rw [writeDesc_se, hse, disableWhere_rest]
        rfl
      · rw [writeDesc_se, hse, disableWhere_rest]
        rfl
  · intro on invalid spent
    have hlen : lengthOk .vectorSet b = true := beq_iff_eq.mpr hb
    have hon : flag b 1 = true ↔ on := by simp [flag_eq, on]
    have hspent : (flag b 1 && (s0.se.desc (u8 b 2)).spent) = true ↔ on ∧ spent := by
      rw [Bool.and_eq_true, hon, hse, spent_iff]
    have hrefused {x : Status} (h : answerVector b s0 = refuse x s0) :
        exec (.vectorSet .t b) s = .next (replies .t .vectorSet x [] s0) :=
      congrArg Host.Outcome.next (request_of_answer_unchanged hs hlen rfl h)
    refine ⟨fun h => hrefused (answerVector_bad h), fun hgood h1 h2 =>
      hrefused (answerVector_spent hgood (hspent.mpr ⟨h1, h2⟩)), fun k hk hgood hno => ?_⟩
    have hact := answerVector_done (s := s0) hk hgood (mt hspent.mp hno)
    have hflag : flag b 1 = decide on := by
      rw [Bool.eq_iff_iff, hon, decide_eq_true_eq]
    rw [hflag, show s0.se = s.se from hse] at hact
    refine ⟨writeVector k (decide on) (u8 b 2) s0, congrArg Host.Outcome.next (request_undisturbed hs hlen rfl hact
      (found_pc .t s) (found_hc .t s)), ?_, ?_, ?_, fun m hm => ?_, ?_, ?_, ?_, onSe_touches s0 _⟩
    all_goals rw [writeVector_se, hse]
    · exact vput_get_self _ _ _
    · exact vput_get_self _ _ _
    · by_cases h : on
      · simp [h]
      · simp [h]
    · refine ⟨vput_get_other _ _ _ _ hm, vput_get_other _ _ _ _ hm, ?_⟩
      by_cases h : on
      · simp [h]
      · simp [h, vput_get_other _ _ _ _ hm]

end Sys2Proof.Machine

/-! PROOFS. The snapshot engine: selection, composition and the counting of a use (R170 to R173). -/

namespace Sys2Proof.Machine

set_option Elab.async false

/-! ## Figures (R172) -/

/-- The figures of a field set are those of the other blocks. -/
theorem fieldBody_congr {s t : State} (h : Touches [.se, .rs, .ports] s t) (f : FieldSet) : fieldBody f t = fieldBody f s := by
  have hfree : t.free = s.free := h .free (by simp)
  cases f with
  | session => simp only [fieldBody, sessionBody, indexFigure, lengthFigure, h.sc_eq, h.ct_eq, hfree]
  | energy => simp only [fieldBody, energyBody, h.ea_eq]
  | power => simp only [fieldBody, powerBody, h.pc_eq, h.hc_eq, h.fe_eq]
  | thermal => simp only [fieldBody, thermalBody, h.hc_eq, h.fe_eq]
  | insulation => simp only [fieldBody, insulationBody, h.im_eq]
  | limits => simp only [fieldBody, limitsBody, limitsFigures, h.sc_eq, h.hc_eq, hfree]

/-! ## The chain (R170) -/

/-- The chain runs on while the chain flags say so, at most over `n` more descriptors. -/
theorem chainFrom_run (e : SnapshotEngine) (fuel i : Nat) : ∃ n, chainFrom e fuel i = List.range' i (n + 1) ∧ n ≤ fuel ∧
    (∀ k, i ≤ k → k < i + n → (e.desc k).chain = true) ∧ (n = fuel ∨ (e.desc (i + n)).chain = false) := by
  induction fuel generalizing i with
  | zero => exact ⟨0, rfl, Nat.le_refl 0, fun k h1 h2 => absurd h2 (by omega), .inl rfl⟩
  | succ fuel ih =>
    by_cases hc : (e.desc i).chain = true
    · obtain ⟨n, hchain, hn, hall, hend⟩ := ih (i + 1)
      refine ⟨n + 1, ?_, by omega, fun k h1 h2 => ?_, ?_⟩
      · rw [chainFrom, if_pos hc, hchain]
        rfl
      · rcases Nat.eq_or_lt_of_le h1 with rfl | h
        · exact hc
        · exact hall k h (by omega)
      · rcases hend with rfl | hend
        · exact .inl rfl
        · refine .inr ?_
          rwa [show i + (n + 1) = i + 1 + n by omega]
    · refine ⟨0, ?_, Nat.zero_le _, fun k h1 h2 => absurd h2 (by omega), .inr (by simpa using hc)⟩
      rw [chainFrom, if_neg hc]
      rfl

/-- The lowest-numbered pending source (R170). -/
theorem nextSource_eq {e : SnapshotEngine} {k : Fin 12} (hk : (e.waiting.get k).isSome = true)
    (hlow : ∀ i, i < k → e.waiting.get i = none) : nextSource e = some k := by
  refine List.find?_eq_some_iff_getElem.mpr ⟨hk, k.val, ?_, ?_, fun j hj => ?_⟩
  · exact (List.getElem?_eq_some_iff.mp (sourceList_get k)).1
  · exact (List.getElem?_eq_some_iff.mp (sourceList_get k)).2
  · have hget := (List.getElem?_eq_some_iff.mp (sourceList_get ⟨j, hj.trans k.isLt⟩)).2
    rw [hget, hlow ⟨j, hj.trans k.isLt⟩ hj]
    rfl

theorem nextSource_none {e : SnapshotEngine} (h : ∀ k, e.waiting.get k = none) : nextSource e = none :=
  List.find?_eq_none.mpr fun k _ => by rw [h k]; simp

/-! ## Compositions (R171) -/

section
variable (src : Fin 12) (m : Member) (chain : List Nat) (s : State)

theorem comeUp_idle {rest : List Nat} (h : rest.dropWhile (fun k => (s.se.desc k).spent) = []) :
    comeUp src m chain rest s = s.onSe fun e => { e with service := none } := by
  induction rest with
  | nil => rfl
  | cons i rest ih =>
    rw [List.dropWhile_cons] at h
    split at h
    · next hs => rw [comeUp, if_pos hs, ih h]
    · cases h

theorem comeUp_next {rest ks : List Nat} {k : Nat} (h : rest.dropWhile (fun k => (s.se.desc k).spent) = k :: ks) :
    comeUp src m chain rest s = beginComposition src m chain k ks s := by
  induction rest with
  | nil => cases h
  | cons i rest ih =>
    rw [List.dropWhile_cons] at h
    split at h
    · next hs => rw [comeUp, if_pos hs, ih h]
    · next hs =>
      cases h
      rw [comeUp, if_neg hs]

/-- A composition begins: the engine serves its record, and nothing else of it changes. -/
theorem beginComposition_se (i : Nat) (rest : List Nat) : (beginComposition src m chain i rest s).se =
    { s.se with service := some ⟨src.val, m, chain, rest, compose src m i s, 2⟩ } := by
  unfold beginComposition
  dsimp only
  rw [State.onSe_se]
  split <;> rfl

/-- What comes up is the service alone. -/
theorem comeUp_se (rest : List Nat) : (comeUp src m chain rest s).se =
    { s.se with service := (comeUp src m chain rest s).se.service } := by
  cases h : rest.dropWhile (fun k => (s.se.desc k).spent) with
  | nil => rw [comeUp_idle src m chain s h]; rfl
  | cons k ks => rw [comeUp_next src m chain s h, beginComposition_se]

theorem comeUp_desc (rest : List Nat) (i : Nat) : (comeUp src m chain rest s).se.desc i = s.se.desc i := by
  rw [comeUp_se]
  rfl

end

/-! ## Selection (R170) -/

section
variable {s : State} {k : Fin 12} {m : Member}

theorem select_rests (h : s.se.service.isSome = true ∨ ∀ k, s.se.waiting.get k = none) : select s = s := by
  unfold select
  rcases h with h | h
  · obtain ⟨v, hv⟩ := Option.isSome_iff_exists.mp h
    rw [hv]
  · rw [nextSource_none h]
    cases s.se.service <;> rfl

/-- The member taken out of the pending set. -/
def memberTaken (k : Fin 12) (s : State) : State := s.onSe fun e => { e with waiting := vput e.waiting k none }

theorem select_takes (hidle : s.se.service = none) (hm : s.se.waiting.get k = some m)
    (hlow : ∀ i, i < k → s.se.waiting.get i = none) :
    select s = comeUp k m (chainOf s.se (s.se.vectors.get k).first) (chainOf s.se (s.se.vectors.get k).first)
      (memberTaken k s) := by
  unfold select
  rw [hidle, nextSource_eq (by rw [hm]; rfl) hlow]
  dsimp only
  rw [hm]
  rfl

theorem select_reports (s : State) : takeReports s (select s) = select s :=
  takeReports_of_drive_eq (select_touches s).pc_eq (select_touches s).hc_eq

end

/-! ## The counting of a use (R173) -/

section
variable {src : Fin 12} {i : Nat} {s : State}

/-- The descriptor of a use with the count it leaves. -/
def useCounted (i : Nat) (s : State) : State :=
  s.onSe (SnapshotEngine.putDesc i { s.se.desc i with count := (s.se.desc i).countAfter })

/-- The source served and those that name the descriptor first (R173). -/
def servedOrNaming (src : Fin 12) (i : Nat) (e : SnapshotEngine) (k : Fin 12) : Bool := k == src || e.names i k

theorem servedOrNaming_iff (k : Fin 12) : servedOrNaming src i s.se k = true ↔ k = src ∨ (s.se.vectors.get k).first = i := by
  simp [servedOrNaming, SnapshotEngine.names]

theorem countUse_more (h : 1 < (s.se.desc i).count) : countUse src i s = useCounted i s := if_pos h

theorem countUse_repeats (h : ¬ 1 < (s.se.desc i).count) (hr : (s.se.desc i).repeating = true) :
    countUse src i s = if (s.se.desc i).notify then raiseAll .capture (useCounted i s) else useCounted i s :=
  (if_neg h).trans (if_pos hr)

theorem countUse_spends (h : ¬ 1 < (s.se.desc i).count) (hr : ¬ (s.se.desc i).repeating = true) :
    countUse src i s = raiseAll .capture ((useCounted i s).onSe fun e =>
      e.disableWhere (servedOrNaming src i (useCounted i s).se) sourceList) :=
  (if_neg h).trans (if_neg hr)

/-- What the counting of a use leaves of the engine. -/
structure UseCounted (src : Fin 12) (i : Nat) (s t : State) : Prop where
  desc : t.se.desc i = { s.se.desc i with count := (s.se.desc i).countAfter }
  descs : ∀ n, i ≤ 15 → n ≤ 15 → n ≠ i → t.se.desc n = s.se.desc n
  missed : t.se.missed = s.se.missed
  spends : (s.se.desc i).count ≤ 1 → (s.se.desc i).repeating = false → Raised .capture t ∧
    ∀ k, (servedOrNaming src i s.se k = true →
        t.se.vectors.get k = ⟨false, (s.se.vectors.get k).first⟩ ∧ t.se.waiting.get k = none) ∧
      (¬ servedOrNaming src i s.se k = true →
        t.se.vectors.get k = s.se.vectors.get k ∧ t.se.waiting.get k = s.se.waiting.get k)
  keeps : 1 < (s.se.desc i).count ∨ (s.se.desc i).repeating = true →
    t.se.vectors = s.se.vectors ∧ t.se.waiting = s.se.waiting
  notifies : (s.se.desc i).count ≤ 1 → (s.se.desc i).repeating = true → (s.se.desc i).notify = true → Raised .capture t
  quiet : 1 < (s.se.desc i).count ∨ ((s.se.desc i).repeating = true ∧ (s.se.desc i).notify = false) → t.ports = s.ports
  flags : FlagsBut [.capture] s t

theorem useCounted_desc_self : (useCounted i s).se.desc i = { s.se.desc i with count := (s.se.desc i).countAfter } :=
  desc_putDesc_self _ _ _

theorem useCounted_desc_other {n : Nat} (hi : i ≤ 15) (hn : n ≤ 15) (h : n ≠ i) :
    (useCounted i s).se.desc n = s.se.desc n := desc_putDesc_other _ hi hn h _

theorem countUse_counted : UseCounted src i s (countUse src i s) := by
  have hraise (u : State) (hp : u.ports = s.ports) : FlagsBut [.capture] s (raiseAll .capture u) := fun p n hn => by
    rw [(raiseAll_tells u .capture).flags p n hn, hp]
  by_cases h : 1 < (s.se.desc i).count
  · rw [countUse_more h]
    exact ⟨useCounted_desc_self, fun n hi hn hne => useCounted_desc_other hi hn hne, rfl, fun h' => absurd h (by omega),
      fun _ => ⟨rfl, rfl⟩, fun h' => absurd h (by omega), fun _ => rfl, fun _ _ _ => rfl⟩
  · by_cases hr : (s.se.desc i).repeating = true
    · rw [countUse_repeats h hr]
      by_cases hn : (s.se.desc i).notify = true
      · rw [if_pos hn]
        have hse : (raiseAll .capture (useCounted i s)).se = (useCounted i s).se := (raiseAll_touches _ _).se_eq
        refine ⟨by rw [hse]; exact useCounted_desc_self, fun n hi hn hne => by rw [hse]; exact useCounted_desc_other hi hn hne,
          by rw [hse]; rfl, fun _ h' => absurd (hr.symm.trans h') (by simp), fun _ => by rw [hse]; exact ⟨rfl, rfl⟩,
          fun _ _ _ => raiseAll_raised _ _, fun h' => ?_, hraise _ rfl⟩
        rcases h' with h' | ⟨-, h'⟩
        · exact absurd h' h
        · exact absurd (hn.symm.trans h') (by simp)
      · rw [if_neg hn]
        exact ⟨useCounted_desc_self, fun n hi hn hne => useCounted_desc_other hi hn hne, rfl,
          fun _ h' => absurd (hr.symm.trans h') (by simp), fun _ => ⟨rfl, rfl⟩, fun _ _ h' => absurd h' hn, fun _ => rfl,
          fun _ _ _ => rfl⟩
    · have hno : ¬ (1 < (s.se.desc i).count ∨ (s.se.desc i).repeating = true) := not_or.mpr ⟨h, hr⟩
      rw [countUse_spends h hr]
      have hse : (raiseAll .capture ((useCounted i s).onSe fun e =>
          e.disableWhere (servedOrNaming src i (useCounted i s).se) sourceList)).se =
          (useCounted i s).se.disableWhere (servedOrNaming src i s.se) sourceList := (raiseAll_touches _ _).se_eq
      have hdescs := (disableWhere_disablesOnly (servedOrNaming src i s.se) sourceList (useCounted i s).se).descs
      refine ⟨?_, fun n hi hn hne => ?_, ?_, fun _ _ => ⟨raiseAll_raised _ _, fun k => ⟨fun hk => ?_, fun hk => ?_⟩⟩,
        fun h' => absurd h' hno, fun _ h' => absurd h' hr, fun h' => absurd (h'.imp_right And.left) hno, hraise _ rfl⟩
      · rw [hse, SnapshotEngine.desc, hdescs]
        exact useCounted_desc_self
      · rw [hse, SnapshotEngine.desc, hdescs]
        exact useCounted_desc_other hi hn hne
      · rw [hse, disableWhere_rest]
        rfl
      · rw [hse]
        exact disableWhere_hit _ (useCounted i s).se hk
      · rw [hse]
        exact disableWhere_kept _ (useCounted i s).se (Bool.eq_false_of_not_eq_true hk)

end

/-! ## The completion of a composition (R171, R173) -/

section
variable {s : State} {v : Service}

/-- The record offered to the stream of its descriptor. -/
def captureOffered (v : Service) (s : State) : State := offer (s.se.desc v.record.desc).stream (.captured v.record) s

/-- The use counted and the chain kept as just served. -/
def captureCounted (v : Service) (s : State) : State :=
  (countUse (Fin.ofNat 12 v.source) v.record.desc (captureOffered v s)).onSe fun e => { e with justServed := v.chain }

theorem complete_eq (h : s.se.service = some v) :
    complete s = comeUp (Fin.ofNat 12 v.source) v.member v.chain v.rest (captureCounted v s) := by
  unfold complete
  rw [h]
  rfl

theorem complete_reports (s : State) : takeReports s (complete s) = complete s :=
  takeReports_of_drive_eq (complete_touches s).pc_eq (complete_touches s).hc_eq

theorem captureOffered_touches : Touches [.rs, .ports] s (captureOffered v s) := offer_touches _ _ s

theorem captureCounted_touches : Touches [.se, .rs, .ports] s (captureCounted v s) :=
  ((captureOffered_touches.mono).step (countUse_touches _ _ _)).step (onSe_touches _ _)

end

/-- Settles O49. -/
theorem chainsAreSelectedComposedAndCounted : Obligations.ChainsAreSelectedComposedAndCounted := by
  refine ⟨fun s => ⟨fun h => ?_, fun h => ?_⟩, ?_, ?_⟩
  · show Host.Outcome.next (event select s) = _
    cases hs : s.resetLow with
    | true => rw [event_low hs]
    | false => rw [event_high hs, select_reports, select_rests h]
  · show Host.Outcome.next (atEnd (s.se.service.map (·.left)) complete s) = _
    rw [h]
    rfl
  · intro s k m hs hidle hm hlow first d hfirst hlive
    obtain ⟨n, hchain, hn, hall, hend⟩ := chainFrom_run s.se (15 - first) first
    have hspent : ((memberTaken k s).se.desc first).spent = false := by
      show (s.se.desc first).spent = false
      rw [Bool.eq_false_iff, Ne, spent_iff]
      rintro ⟨h1, h2⟩
      rcases hlive with h | h
      · exact Bool.false_ne_true (h1.symm.trans h)
      · exact absurd h2 (by have : 0 < (s.se.desc first).count := h; omega)
    have hdrop : (List.range' first (n + 1)).dropWhile (fun i => ((memberTaken k s).se.desc i).spent) =
        first :: List.range' (first + 1) n := by
      rw [List.range'_succ, List.dropWhile_cons, if_neg (by rw [hspent]; simp)]
    have hchainOf : chainOf s.se first = List.range' first (n + 1) := hchain
    have hselect : select s = beginComposition k m (List.range' first (n + 1)) first (List.range' (first + 1) n)
        (memberTaken k s) := by
      rw [select_takes hidle hm hlow, show chainOf s.se (s.se.vectors.get k).first = _ from hchainOf, comeUp_next _ _ _ _ hdrop]
    have hse := beginComposition_se k m (List.range' first (n + 1)) (memberTaken k s) first (List.range' (first + 1) n)
    rw [← hselect] at hse
    have hbody : fieldBody d.fieldSet (memberTaken k s) = fieldBody d.fieldSet s :=
      fieldBody_congr ((onSe_touches s _).mono) _
    refine ⟨select s, n, ?_, ?_, fun i hi => ?_, by omega, hall, ?_, ?_, ?_, select_touches s⟩
    · show Host.Outcome.next (event select s) = _
      rw [event_high hs, select_reports]
    · rw [hse]
      exact vput_get_self _ _ _
    · rw [hse]
      exact vput_get_other _ _ _ _ hi
    · exact hend.imp (fun h => by omega) id
    · rw [hse]
      show some (Service.mk _ _ _ _ (compose k m first (memberTaken k s)) _) = _
      rw [← hbody]
      rfl
    · rw [hse]
      rfl
  · intro s v hs hv hsrc hdesc u i d runsOut hit
    obtain ⟨v', hv'⟩ : ∃ v' : Service, v' = { v with left := v.left - v.left } := ⟨_, rfl⟩
    have hue : u.se = s.se.elapse v.left := elapse_se hs _
    have huv : u.se.service = some v' := by
      rw [hue, hv', SnapshotEngine.elapse, hv]
      rfl
    have hrecord : v'.record = v.record := by rw [hv']
    obtain ⟨o, ho⟩ : ∃ o, o = captureOffered v' u := ⟨_, rfl⟩
    obtain ⟨c, hc⟩ : ∃ c, c = captureCounted v' u := ⟨_, rfl⟩
    obtain ⟨w, hw⟩ : ∃ w, w = countUse (Fin.ofNat 12 v'.source) v'.record.desc o := ⟨_, rfl⟩
    have hcw : c = w.onSe fun e => { e with justServed := v'.chain } := by rw [hc, hw, ho]; rfl
    have hose : o.se = u.se := by rw [ho]; exact captureOffered_touches.se_eq
    have hodesc (n : Nat) : o.se.desc n = s.se.desc n := by rw [hose, hue]; rfl
    have hvec : o.se.vectors = s.se.vectors := by rw [hose, hue]; rfl
    have hwait : o.se.waiting = s.se.waiting := by rw [hose, hue]; rfl
    have hmiss : o.se.missed = s.se.missed := by rw [hose, hue]; rfl
    obtain ⟨h1, h2, h3, h4, h5, h6, h7, h8⟩ : UseCounted (Fin.ofNat 12 v'.source) v'.record.desc o w := hw ▸ countUse_counted
    rw [hrecord, hodesc] at h1 h4 h5 h6 h7
    rw [hrecord] at h2
    rw [hvec] at h5
    rw [hwait] at h5
    obtain ⟨t, ht⟩ : ∃ t, t = comeUp (Fin.ofNat 12 v'.source) v'.member v'.chain v'.rest c := ⟨_, rfl⟩
    have hframe : Touches [.se, .free] c t := ht ▸ comeUp_touches _ _ _ _ _
    have hse : t.se = { c.se with service := t.se.service } := by
      rw [ht]
      exact comeUp_se _ _ _ _ _
    have hvectors : t.se.vectors = w.se.vectors := by rw [hse, hcw]; rfl
    have hwaiting : t.se.waiting = w.se.waiting := by rw [hse, hcw]; rfl
    have htdesc (n : Nat) : t.se.desc n = w.se.desc n := by rw [hse, hcw]; rfl
    have hports : t.ports = w.ports := by rw [hframe.ports_eq, hcw]; rfl
    have hraised (h : Raised .capture w) : Raised .capture t := fun p => by rw [hports]; exact h p
    have hoflags : FlagsBut [.stream] s o := by
      have hoffer : Tells [.stream] [] u o := by
        rw [ho]
        exact offer_tells u _ _
      intro p n hn
      rw [hoffer.flags p n hn, show u.ports = s.ports from elapse_ports _ s]
    have hsource (k : Fin 12) : servedOrNaming (Fin.ofNat 12 v'.source) i o.se k = true ↔ hit k := by
      have hk : k = Fin.ofNat 12 v'.source ↔ k.val = v.source := by
        rw [Fin.ext_iff, hv']
        show k.val = v.source % 12 ↔ _
        rw [Nat.mod_eq_of_lt hsrc]
      rw [servedOrNaming_iff, hk, hvec]
    have hcu : Touches [.se, .rs, .ports] u c := hc ▸ captureCounted_touches
    refine ⟨t, ?_, ?_, ?_, fun n hn hne => ?_, ?_, ?_, fun hout hr => ?_, fun h => ?_, fun hout hr hn => ?_, fun h => ?_, ?_,
      ⟨fun hrest => ?_, fun k ks hrest => ?_⟩, (hcu.mono).trans (hframe.mono)⟩
    · show Host.Outcome.next (atEnd (s.se.service.map (·.left)) complete s) = _
      rw [hv]
      show Host.Outcome.next (atEnd (some v.left) complete s) = _
      rw [atEnd_high hs, complete_reports, ht, hc]
      exact congrArg _ (complete_eq huv)
    · rw [hframe.rs_eq, hcw]
      show w.rs = _
      rw [hw, (countUse_touches _ _ _).rs_eq, ho, captureOffered, hrecord, hue]
      rfl
    · rw [htdesc, h1]
      rfl
    · rw [htdesc, h2 n hdesc hn hne, hodesc]
    · rw [hse, hcw]
      exact h3.trans hmiss
    · rw [hse, hcw]
      show v'.chain = _
      rw [hv']
    · obtain ⟨hr1, hr2⟩ := h4 hout hr
      refine ⟨hraised hr1, fun k => ?_⟩
      obtain ⟨hk1, hk2⟩ := hr2 k
      rw [hvec] at hk1 hk2
      rw [hwait] at hk2
      rw [hvectors, hwaiting]
      exact ⟨fun h => hk1 ((hsource k).mpr h), fun h => hk2 (mt (hsource k).mp h)⟩
    · rw [hvectors, hwaiting]
      exact h5 (h.imp_left Nat.lt_of_not_le)
    · exact hraised (h6 hout hr hn)
    · intro p n hn
      rw [hports, h7 (h.imp_left Nat.lt_of_not_le)]
      exact hoflags p n hn
    · intro p n hn
      rw [hports, h8 p n (fun h => hn (by simp at h ⊢; exact .inr h)),
        hoflags p n (fun h => hn (by simp at h ⊢; exact .inl h))]
    · have hdrop : v'.rest.dropWhile (fun k => (c.se.desc k).spent) = [] := by
        have hd (k : Nat) : c.se.desc k = t.se.desc k := by rw [hse]; rfl
        simp only [hd, hv']
        exact hrest
      rw [ht, comeUp_idle _ _ _ _ hdrop]
      rfl
    · have hd (k : Nat) : c.se.desc k = t.se.desc k := by rw [hse]; rfl
      have hdrop : v'.rest.dropWhile (fun k => (c.se.desc k).spent) = k :: ks := by
        simp only [hd, hv']
        exact hrest
      have hnext : t = beginComposition (Fin.ofNat 12 v'.source) v'.member v'.chain k ks c := by
        rw [ht, comeUp_next _ _ _ _ hdrop]
      have hval : (Fin.ofNat 12 v'.source).val = v.source := by
        rw [hv']
        exact Nat.mod_eq_of_lt hsrc
      have hservice : t.se.service =
          some ⟨(Fin.ofNat 12 v'.source).val, v'.member, v'.chain, ks, compose (Fin.ofNat 12 v'.source) v'.member k c, 2⟩ := by
        rw [hnext, beginComposition_se]
      refine ⟨_, hservice, hval, by rw [hv'], by rw [hv'], rfl, rfl, rfl, hval, by rw [hv']; rfl, by rw [hv']; rfl, ?_, ?_⟩
      · rw [← hd]
        rfl
      · rw [← hd]
        exact fieldBody_congr hcu _

end Sys2Proof.Machine

/-! PROOFS. The port units: broken frames, FETCH, and the checks of every request (R178 to R182, R190). -/

namespace Sys2Proof.Machine

set_option Elab.async false

/-! ## One port unit alone (R178) -/

section
variable {p : Port} {s t : State} {u : PortUnit}

/-- Port unit `p` becomes `u`, and nothing else changes. -/
def OnlyPort (p : Port) (u : PortUnit) (s t : State) : Prop :=
  Touches [.ports] s t ∧ (∀ q, q ≠ p → t.ports.get q = s.ports.get q) ∧ t.ports.get p = u

theorem onPort_only (f : PortUnit → PortUnit) : OnlyPort p (f (s.ports.get p)) s (s.onPort p f) :=
  ⟨onPort_touches s p f, fun _ hq => Ports.get_put_other _ _ _ _ hq, Ports.get_put_self _ _ _⟩

theorem OnlyPort.onPort (h : OnlyPort p u s t) (f : PortUnit → PortUnit) : OnlyPort p (f u) s (t.onPort p f) := by
  obtain ⟨hframe, hother, hself⟩ := h
  obtain ⟨hframe', hother', hself'⟩ := onPort_only (p := p) (s := t) f
  exact ⟨hframe.trans hframe', fun q hq => (hother' q hq).trans (hother q hq), hself'.trans (by rw [hself])⟩

/-- Nothing to report where a port unit alone changes. -/
theorem OnlyPort.reports (h : OnlyPort p u s t) : takeReports s t = t := takeReports_of_drive_eq h.1.pc_eq h.1.hc_eq

theorem event_onlyPort {f : State → State} (hs : s.resetLow = false) (h : OnlyPort p u s (f s)) : event f s = f s := by
  rw [event_high hs, h.reports]

/-- The unit once a new exchange has come. -/
theorem newExchange_only : OnlyPort p (s.ports.get p).newExchange s (newExchange p s) := onPort_only _

/-- An error recorded. -/
def PortUnit.failed (x : PortError) (u : PortUnit) : PortUnit := { u with errors := u.errors.add x, flags := u.flags ||| 0x800#12 }

theorem OnlyPort.recordError (h : OnlyPort p u s t) (x : PortError) : OnlyPort p (u.failed x) s (recordError p x t) :=
  h.onPort _

theorem brokenFrame_only (x : PortError) : OnlyPort p ((s.ports.get p).newExchange.failed x) s (brokenFrame p x s) :=
  newExchange_only.recordError x

theorem found_of_none (h : (s.ports.get p).reply = none) : found p s = newExchange p s := by
  have hr : ((newExchange p s).ports.get p).reply = none := by rw [newExchange_only.2.2]; exact h
  rw [found, overrun, hr]

theorem found_of_some (h : (s.ports.get p).reply ≠ none) :
    found p s = recordError p .overrun ((newExchange p s).onPort p fun u => { u with reply := none }) := by
  obtain ⟨r, hr⟩ := Option.ne_none_iff_exists'.mp h
  have hr : ((newExchange p s).ports.get p).reply = some r := by rw [newExchange_only.2.2]; exact hr
  rw [found, overrun, hr]

/-- Taking a request with no reply pending. -/
theorem found_only_none (h : (s.ports.get p).reply = none) : OnlyPort p (s.ports.get p).newExchange s (found p s) := by
  rw [found_of_none h]
  exact newExchange_only

/-- Taking a request overruns a pending reply (R180). -/
theorem found_only_some (h : (s.ports.get p).reply ≠ none) :
    OnlyPort p ({ (s.ports.get p).newExchange with reply := none }.failed .overrun) s (found p s) := by
  rw [found_of_some h]
  exact (newExchange_only.onPort _).recordError _

/-! ## FETCH (R181) -/

theorem fetchReply_only : OnlyPort p (s.ports.get p).newExchange.fetch s (fetchReply p s) := newExchange_only.onPort _

theorem fetch_of_some {r : Reply} (h : u.reply = some r) :
    u.newExchange.fetch = { u with request := [], shift := r.frame, shiftsReply := true } := by
  obtain ⟨_, reply, _, _, _, _, _, _⟩ := u
  obtain rfl : reply = some r := h
  rfl

/-- Without a pending reply the WAIT frame is driven. -/
theorem fetch_of_none (h : u.reply = none) :
    u.newExchange.fetch = { u with request := [], shift := [0x80#8, 0x02#8, 0x00#8, 0x21#8], shiftsReply := false } := by
  have hwait : waitReply.frame = [0x80#8, 0x02#8, 0x00#8, 0x21#8] := by decide +kernel
  obtain ⟨_, reply, _, _, _, _, _, _⟩ := u
  obtain rfl : reply = none := h
  rw [← hwait]
  rfl

theorem exec_fetch (hs : s.resetLow = false) : exec (.fetch p []) s = .next (fetchReply p s) :=
  congrArg Host.Outcome.next (event_onlyPort hs fetchReply_only)

theorem shifted_only : OnlyPort p (s.ports.get p).shifted s (s.onPort p PortUnit.shifted) := onPort_only _

theorem exec_replyShiftComplete (hs : s.resetLow = false) (h : (s.ports.get p).shiftsReply = true) :
    exec (.replyShiftComplete p) s = .next (s.onPort p PortUnit.shifted) :=
  congrArg Host.Outcome.next ((if_pos h).trans (event_onlyPort hs shifted_only))

theorem dataOut_afterFetch (hs : s.resetLow = false) (n : Nat) :
    dataOut p (.afterFetch n) s = .drives ((s.ports.get p).shift.getD n 0) := if_neg (by simp [hs])

/-! ## Broken frames (R178, R179) -/

theorem partialFrame_iff (received : List Byte) (bits : Nat) : partialFrame received bits = true ↔
    (received = [] ∧ 0 < bits) ∨ received.length = 1 ∨
      ∃ k l rest, received = k :: l :: rest ∧ l.toNat ≤ 60 ∧ rest.length ≤ l.toNat := by
  match received with
  | [] => simp [partialFrame]
  | [x] => simp [partialFrame]
  | k :: l :: rest =>
    have hcons : (∃ k' l' rest', k :: l :: rest = k' :: l' :: rest' ∧ l'.toNat ≤ 60 ∧ rest'.length ≤ l'.toNat) ↔
        l.toNat ≤ 60 ∧ rest.length ≤ l.toNat := by
      constructor
      · rintro ⟨k', l', rest', h, h'⟩
        cases h
        exact h'
      · exact fun h => ⟨k, l, rest, rfl, h⟩
    rw [hcons]
    have hmax : l.toNat ≤ maxBody ↔ l.toNat ≤ 60 := Iff.rfl
    simp [partialFrame, hmax]

end

/-- Settles O51. -/
theorem brokenFramesAndFetch : Obligations.BrokenFramesAndFetch := by
  refine ⟨fun p s => ⟨fun x h => if_pos h, ite_self _, fun hs => ⟨if_neg (by simp [hs]), ?_, fun h => ?_⟩⟩, ?_⟩
  · obtain ⟨hframe, -, hself⟩ := fetchReply_only (p := p) (s := s)
    have hhigh : (fetchReply p s).resetLow = false := hframe.resetLow_eq.trans hs
    refine ⟨_, exec_fetch hs, fun n => ⟨fun r hr => ?_, fun hr => ?_⟩⟩
    · rw [dataOut_afterFetch hhigh, hself, fetch_of_some hr]
    · rw [dataOut_afterFetch hhigh, hself, fetch_of_none hr]
  · obtain ⟨hframe, -, hself⟩ := shifted_only (p := p) (s := s)
    refine ⟨_, exec_replyShiftComplete hs h, fun n => ?_⟩
    rw [dataOut_afterFetch (hframe.resetLow_eq.trans hs), hself]
    rfl
  · intro p s hs broken driven
    have hbroken (x : PortError) (c : Instr) (hc : exec c s = .next (event (brokenFrame p x) s)) :
        ∃ t, exec c s = .next t ∧ broken (fun u => u.errors.add x) t := by
      refine ⟨brokenFrame p x s, ?_, brokenFrame_only x⟩
      rw [hc, event_onlyPort hs (brokenFrame_only x)]
    refine ⟨?_, fun k l => ⟨fun h => ?_, fun h => ?_⟩,
      fun k check b => ⟨fun hlen hbad => ?_, fun h => ?_⟩, fun k b => ⟨fun h => ?_, fun h => ?_⟩, ?_, fun h => ?_, fun h => ?_,
      found_only_none, found_only_some⟩
    · intro received bits cut
      have hcut : partialFrame received bits = true ↔ cut := partialFrame_iff received bits
      exact ⟨fun h => hbroken .framing _ (congrArg Host.Outcome.next (if_pos (hcut.mpr h))),
        fun h => congrArg Host.Outcome.next (if_neg (mt hcut.mp h))⟩
    · exact hbroken .framing _ (congrArg Host.Outcome.next (if_pos h))
    · exact congrArg Host.Outcome.next (if_neg (Nat.not_lt.mpr h))
    · refine hbroken .crc _ (congrArg Host.Outcome.next (if_pos ?_))
      rw [Bool.and_eq_true, bne_iff_ne]
      exact ⟨decide_eq_true hlen, hbad⟩
    · refine congrArg Host.Outcome.next (if_neg ?_)
      rw [Bool.and_eq_true, bne_iff_ne]
      rintro ⟨h1, h2⟩
      rcases h with h | h
      · exact absurd (of_decide_eq_true h1) (Nat.not_le.mpr h)
      · exact h2 h
    · refine congrArg Host.Outcome.next ((if_neg (by simp [h])).trans ?_)
      rw [event_high hs]
      exact takeReports_of_drive_eq (found_pc p s) (found_hc p s)
    · exact congrArg Host.Outcome.next (if_pos h)
    · obtain ⟨hframe, hother, hself⟩ := fetchReply_only (p := p) (s := s)
      refine ⟨_, exec_fetch hs, fun r hr => ?_, fun hr => ?_⟩
      · exact ⟨hframe, hother, hself.trans (fetch_of_some hr)⟩
      · exact ⟨hframe, hother, hself.trans (fetch_of_none hr)⟩
    · exact ⟨_, exec_replyShiftComplete hs h, shifted_only⟩
    · exact congrArg Host.Outcome.next (if_neg (by simp [h]))

/-! ## The checks of every request (R180, R190) -/

/-- Every request command but an empty FETCH is a request of its kind on its port (R180). -/
theorem exec_asRequest {c : Instr} {p : Port} {k : Kind} {b : List Byte} (h : asRequest c = some (p, k, b))
    (hc : c ≠ .fetch p []) : ∃ act, ∀ s, exec c s = .next (request p k b act s) := by
  cases c
  case fetch q b' =>
    cases h
    refine ⟨refuse .length, fun s => congrArg Host.Outcome.next (if_neg ?_)⟩
    rw [List.isEmpty_iff]
    rintro rfl
    exact hc rfl
  all_goals cases h
  all_goals exact ⟨_, fun _ => rfl⟩

section
variable {p : Port} {k : Kind} {b : List Byte} {s : State} {x : Status} {act : State → Answer}

theorem Kind.plan_iff (k : Kind) : k.plan = true ↔ k = .areaSet ∨ k = .areaClear ∨ k = .joinStream ∨ k = .unjoin := by
  simp [Kind.plan, or_assoc]

/-- The port unit refuses a request by its length or its port, with `x`. -/
def Refused (p : Port) (k : Kind) (b : List Byte) (x : Status) : Prop :=
  (lengthOk k b = false ∧ x = .length) ∨ (lengthOk k b = true ∧ portOk k p = false ∧ x = .permission)

theorem answer_of_refused (h : Refused p k b x) : answer p k b act s = refuseTaken k x s := by
  unfold answer
  rcases h with ⟨hl, rfl⟩ | ⟨hl, hp, rfl⟩
  · rw [if_pos (by simp [hl])]
  · rw [if_neg (by simp [hl]), if_pos (by simp [hp])]

theorem request_refused (hs : s.resetLow = false) (h : Refused p k b x) (hplan : ¬ k.plan = true) :
    request p k b act s = replies p k x [] (found p s) := by
  rw [request_high hs, answer_of_refused h, refuseTaken, if_neg hplan, refuse, takeReports_self]

theorem request_plan_refusedTaken (hs : s.resetLow = false) (h : Refused p k b x) (hplan : k.plan = true) :
    request p k b act s = replies p k x (areaTable (found p s)) { found p s with free := s.free + 1 } := by
  have hquiet : takeReports (found p s) (found p s).draw = { found p s with free := s.free + 1 } := by
    rw [← draw_found (found_free p s)]
    exact takeReports_of_drive_eq rfl rfl
  rw [request_high hs, answer_of_refused h, refuseTaken, if_pos hplan, ← hquiet]
  rfl

/-- A request taken leaves a reply of its kind pending on its port (R180). -/
theorem request_pending (hs : s.resetLow = false) : ∃ r, ((request p k b act s).ports.get p).reply = some r ∧
    r.kind = BitVec.ofNat 8 k.code := by
  refine ⟨⟨_, (answer p k b act (found p s)).status, (answer p k b act (found p s)).body⟩, ?_, rfl⟩
  rw [request_high hs, replies, putReply, (onPort_only _).2.2]
  rfl

end

/-- Settles O52. -/
theorem everyRequestIsCheckedForLengthAndPort : Obligations.EveryRequestIsCheckedForLengthAndPort := by
  refine ⟨?_, fun k b h1 h2 => ?_, fun b => ?_, fun b => ?_,
    fun k p => ?_⟩
  · intro c p k b s hreq hs s0 plan
    refine ⟨fun x hx => ?_, fun hc => ?_⟩
    · have hc : c ≠ .fetch p [] := by
        rintro rfl
        cases hreq
        rcases hx with ⟨h, -⟩ | ⟨-, h, -⟩ <;> cases h
      obtain ⟨act, hexec⟩ := exec_asRequest hreq hc
      rw [hexec s]
      exact ⟨fun hp => congrArg _ (request_refused hs hx (mt (Kind.plan_iff k).mp hp)),
        fun hp => congrArg _ (request_plan_refusedTaken hs hx ((Kind.plan_iff k).mpr hp))⟩
    · obtain ⟨act, hexec⟩ := exec_asRequest hreq hc
      obtain ⟨r, hr, hk⟩ := request_pending (p := p) (k := k) (b := b) (act := act) hs
      exact ⟨_, r, hexec s, hr, hk⟩
  · cases k
    case sessionOpen => exact absurd rfl h1
    case tariffLoad => exact absurd rfl h2
    all_goals exact beq_iff_eq
  · simp [lengthOk, and_assoc]
  · simp only [lengthOk, Bool.and_eq_true, decide_eq_true_eq, beq_iff_eq]
    constructor
    · rintro ⟨⟨h6, h34⟩, hmod⟩
      exact ⟨b.length / 4, by omega, by omega, by omega⟩
    · rintro ⟨n, h1, h8, hn⟩
      omega
  · cases k
    all_goals cases p <;> decide

end Sys2Proof.Machine

/-! PROOFS. Notices, errors and status of a port (R182 to R184, R187). -/

namespace Sys2Proof.Machine

set_option Elab.async false

/-! ## Sets of notices -/

/-- Every bit of a flag set is the flag of a notice. -/
theorem Notice.exists_code {i : Nat} (h : i < 12) : ∃ n : Notice, n.code = i := by
  match i, h with
  | 0, _ => exact ⟨.session, rfl⟩
  | 1, _ => exact ⟨.insulation, rfl⟩
  | 2, _ => exact ⟨.faultTable, rfl⟩
  | 3, _ => exact ⟨.heater, rfl⟩
  | 4, _ => exact ⟨.derate, rfl⟩
  | 5, _ => exact ⟨.limitsStale, rfl⟩
  | 6, _ => exact ⟨.tariff, rfl⟩
  | 7, _ => exact ⟨.billing, rfl⟩
  | 8, _ => exact ⟨.capture, rfl⟩
  | 9, _ => exact ⟨.stream, rfl⟩
  | 10, _ => exact ⟨.alarm, rfl⟩
  | 11, _ => exact ⟨.portError, rfl⟩

/-- Two flag sets meet exactly where some flag is set in both. -/
theorem flags_meet_iff (f m : BitVec 12) : (f &&& m) ≠ 0 ↔ ∃ n, flagSet n f = true ∧ flagSet n m = true := by
  constructor
  · intro h
    by_contra hno
    refine h (BitVec.eq_of_getLsbD_eq fun i hi => ?_)
    obtain ⟨n, hn⟩ := Notice.exists_code hi
    have hbit : ¬ (flagSet n f = true ∧ flagSet n m = true) := fun hb => hno ⟨n, hb⟩
    rw [flagSet_eq, flagSet_eq, hn, ← Bool.and_eq_true, ← BitVec.getLsbD_and] at hbit
    simpa using hbit
  · rintro ⟨n, hf, hm⟩ h0
    rw [flagSet_eq] at hf hm
    have hbit : (f &&& m).getLsbD n.code = true := by rw [BitVec.getLsbD_and, hf, hm]; rfl
    rw [h0] at hbit
    simp at hbit

theorem noticeLine_iff (p : Port) (s : State) : noticeLine p s = true ↔
    s.resetLow = false ∧ ∃ n, flagSet n (s.ports.get p).flags = true ∧ flagSet n (s.ports.get p).mask = true := by
  rw [← flags_meet_iff, noticeLine, Bool.and_eq_true, bne_iff_ne, Bool.not_eq_true']

/-- A clear of the named flags, STREAM left to its condition (R184). -/
theorem flagSet_cleared (n : Notice) (f x : BitVec 12) : flagSet n (f &&& ~~~ writeFlag .stream false x) = true ↔
    flagSet n f = true ∧ (flagSet n x = false ∨ n = .stream) := by
  have hclear : flagSet n (f &&& ~~~ writeFlag .stream false x) = (flagSet n f && !flagSet n (writeFlag .stream false x)) := by
    rw [flagSet_eq, flagSet_eq, flagSet_eq, BitVec.getLsbD_and, BitVec.getLsbD_not]
    simp [Notice.code_lt n]
  rw [hclear, flagSet_writeFlag]
  by_cases h : n = .stream <;> simp [h]

/-! ## STATUS_GET (R187) -/

/-- The figures of the blocks are those before the request was taken, and the error set is the port's. -/
theorem statusBody_found (p : Port) (s : State) : statusBody p (found p s) =
    statusSession s ++ statusInsulation s ++ statusHeater s ++ statusPower s ++ statusBilling s ++
      b1 ((found p s).ports.get p).errors.sum := by
  have hct : (found p s).ct = s.ct := found_ct p s
  simp only [statusBody, statusSession, statusInsulation, statusHeater, statusPower, statusBilling, limitsFigures, indexFigure,
    found_sc, found_im, found_hc, found_pc, found_free, hct]

/-- Settles O54. -/
theorem noticesErrorsAndStatusOfAPort : Obligations.NoticesErrorsAndStatusOfAPort := by
  refine ⟨noticeLine_iff, fun p b s hs => ?_⟩
  intro s0 u set x
  have honly {f : PortUnit → PortUnit} {k : Kind} {b body : List Byte} {y : Status} {act : State → Answer}
      (hlen : lengthOk k b = true) (hport : portOk k p = true) (hact : act s0 = ⟨s0.onPort p f, y, body⟩) :
      request p k b act s = replies p k y body { s0 with ports := s0.ports.put p (f u) } :=
    request_undisturbed hs hlen hport hact (found_pc p s) (found_hc p s)
  refine ⟨?_, ?_, fun hb hbad => ⟨?_, ?_⟩, fun hb hgood => ⟨?_, _, ?_, fun n => flagSet_cleared n u.flags x⟩, ?_⟩
  · exact congrArg Host.Outcome.next (request_of_answer_unchanged hs rfl rfl rfl)
  · exact congrArg Host.Outcome.next (honly (act := answerErrors p) rfl rfl rfl)
  · have hlen : lengthOk .noticeClear b = true := beq_iff_eq.mpr hb
    exact congrArg Host.Outcome.next (request_of_answer_unchanged hs hlen rfl (if_pos (decide_eq_true hbad)))
  · have hlen : lengthOk .noticeEnable b = true := beq_iff_eq.mpr hb
    exact congrArg Host.Outcome.next (request_of_answer_unchanged hs hlen rfl (if_pos (decide_eq_true hbad)))
  · have hlen : lengthOk .noticeEnable b = true := beq_iff_eq.mpr hb
    have hno : ¬ flagsBad b = true := fun h => absurd (of_decide_eq_true h) (Nat.not_lt.mpr hgood)
    exact congrArg Host.Outcome.next (honly (act := answerEnable p b) hlen rfl (if_neg hno))
  · have hlen : lengthOk .noticeClear b = true := beq_iff_eq.mpr hb
    have hno : ¬ flagsBad b = true := fun h => absurd (of_decide_eq_true h) (Nat.not_lt.mpr hgood)
    have hflags : ((s0.onPort p (PortUnit.clearFlags x)).ports.get p).flags = u.flags &&& ~~~ writeFlag .stream false x := by
      rw [(onPort_only _).2.2]
      rfl
    have hact : answerClear p b s0 = ⟨s0.onPort p (PortUnit.clearFlags x), .ok,
        set (u.flags &&& ~~~ writeFlag .stream false x)⟩ := by
      rw [← hflags]
      exact if_neg hno
    exact congrArg Host.Outcome.next (honly hlen rfl hact)
  · refine ⟨(answerStatus p s0).state.free, ?_, ?_⟩
    · have hstate : (answerStatus p s0).state = { s0 with free := (answerStatus p s0).state.free } := by
        unfold answerStatus
        dsimp only
        split <;> rfl
      have hact : answerStatus p s0 = ⟨{ s0 with free := (answerStatus p s0).state.free }, .ok, statusBody p s0⟩ := by
        rw [← hstate]
        rfl
      exact congrArg Host.Outcome.next (request_undisturbed hs rfl rfl hact (found_pc p s) (found_hc p s))
    · rw [show statusBody p s0 = _ from statusBody_found p s]
      simp only [statusSession, statusInsulation, statusHeater, statusPower, statusBilling, List.append_assoc]
      rfl

end Sys2Proof.Machine

/-! PROOFS. The configuration: items read, clamped, stored, and what a new value brings at once (R185, R186). -/

namespace Sys2Proof.Machine

set_option Elab.async false

/-! ## The clamps (R185) -/

theorem clampNat_eq {lo hi : Nat} (h : lo ≤ hi) (x : Nat) : clampNat lo hi x = max lo (min hi x) := by
  unfold clampNat
  split
  · omega
  · split <;> omega

/-- The value stored for a value sent. -/
theorem clampItem_eq (i : Items) (k : Item) (y : Nat) : clampItem i k y =
    let x := max k.range.1 (min k.range.2 y)
    if k = .insFaultOpv then (if i.insWarnOpv ≤ x then i.insWarnOpv - 10 else x)
      else if k = .derateTWarm then min x (i.derateTHot - 10)
      else if k = .derateTHot then max (i.derateTWarm + 10) (min x (i.derateTTrip - 10))
      else if k = .derateTTrip then max x (i.derateTHot + 10) else x := by
  unfold clampItem
  rw [clampNat_eq k.range_ordered]
  cases k <;> rfl

/-! ## The idle limit and the opening of a leg without elements (R68) -/

theorem Heater.turnOff_off {h : Heater} {l : ElemState} {k : ElemId} (hk : (h.get k).isOn = false) : h.turnOff l k = h :=
  if_neg (by simp [hk])

theorem Heater.allOff_off {h : Heater} (h1 : h.e1.isOn = false) (h2 : h.e2.isOn = false) : h.allOff = h := by
  rw [allOff, turnOff_off (k := .e1) h1, turnOff_off (k := .e2) h2]

/-- A leg with no element on opens, and the settle timer starts (R59). -/
theorem Heater.openLeg_off {h : Heater} (hleg : h.leg = .connecting ∨ h.leg = .connected) (h1 : h.e1.isOn = false)
    (h2 : h.e2.isOn = false) : h.openLeg =
      { h with leg := .disconnected, settle := some 200, connect := none, idle := none, idleDeferred := false } := by
  have hclosed : h.hldClosed = true := by rw [hldClosed_eq]; exact decide_eq_true hleg
  rw [openLeg, if_pos hclosed, allOff_off h1 h2]

theorem Heater.idleReached_iff (v : Nat) (h : Heater) : h.idleReached v = true ↔ 0 < v ∧ ∃ i, h.idle = some i ∧ v * 1000 ≤ i := by
  unfold idleReached
  cases h.idle <;> simp

section
variable {s : State}

theorem idleChanged_runs (h : ¬ s.hc.idleReached s.cfg.heatIdleS = true) :
    idleChanged s = { s with hc := { s.hc with idleDeferred := false } } := if_neg h

theorem idleChanged_acts (h : s.hc.idleReached s.cfg.heatIdleS = true) : idleChanged s = idleLimit s := if_pos h

theorem idleLimit_waits (h : s.im.inPhase = true) : idleLimit s = { s with hc := { s.hc with idleDeferred := true } } := if_pos h

theorem idleLimit_opens (h : s.im.inPhase = false) : idleLimit s = s.onHc Heater.openLeg := if_neg (by simp [h])

/-- A leg CONNECTED with no element on opens at the idle limit. -/
theorem idleLimit_disconnects (h : s.im.inPhase = false) (hleg : s.hc.leg = .connected) (hoff : heaterOff s) :
    idleLimit s = { s with hc := { s.hc with
      leg := .disconnected, settle := some 200, connect := none, idle := none, idleDeferred := false } } := by
  obtain ⟨h1, h2⟩ := hoff
  rw [idleLimit_opens h]
  exact congrArg (fun h => { s with hc := h }) (Heater.openLeg_off (.inr hleg) h1 h2)

/-! ## The limit update (R44) -/

theorem allowanceOf_limited (v : Nat) (s : State) : allowanceOf v (limited s) = allowanceOf v s := by
  have hrec := recompute_pc (latestVBus s) s
  refine allowanceOf_congr v (limited_touches s).sc_eq ?_ ?_ (limited_touches s).cfg_eq
  · show (recompute (latestVBus s) s).pc.derate = _
    rw [hrec]
  · show (recompute (latestVBus s) s).pc.exhausted = _
    rw [hrec]

/-- A limit update in any state that does not ask the final close. -/
theorem limitUpdate_rests (h : ¬ (s.sc.state = .closing ∧ (limited s).pc.pCmd = 0 ∧ s.sc.commandZero = false)) :
    (limitUpdate s).pc.aH = allowanceOf (latestVBus s) s ∧ Touches [.pc, .hc] s (limitUpdate s) ∧
      (limitUpdate s).pc.pCmd = if s.sc.state = .preheat ∨ s.sc.state = .charging ∨ s.sc.state = .closing
        then (limited s).pc.pCmd else s.pc.pCmd := by
  by_cases hlim : s.sc.state = .preheat ∨ s.sc.state = .charging ∨ s.sc.state = .closing
  · have hstay : commandZeroReached (limited s) = limited s := by
      refine commandZeroReached_of_not ?_
      rw [show (limited s).sc = s.sc from (limited_touches s).sc_eq]
      by_contra hno
      simp only [not_or, not_not, Bool.not_eq_true] at hno
      exact h ⟨hno.1, hno.2.1, hno.2.2⟩
    rw [limitUpdate_limits hlim, hstay, if_pos hlim]
    exact ⟨(limited_aH s).trans (allowanceOf_limited _ s), limited_touches s, rfl⟩
  · rw [limitUpdate_recomputes (fun h => hlim (.inl h)) (fun h => hlim (.inr (.inl h))) (fun h => hlim (.inr (.inr h))),
      if_neg hlim, recomputeNow, recompute_pc]
    exact ⟨rfl, recompute_touches _ s, rfl⟩

end

/-! ## CONFIG_GET and CONFIG_SET (R185, R186) -/

section
variable {p : Port} {b : List Byte} {s : State} {k : Item}

theorem answerConfigGet_unknown (h : itemOf (u8 b 0) = none) : answerConfigGet b s = refuse .invalid s := by
  rw [answerConfigGet, h]

theorem answerConfigGet_item (h : itemOf (u8 b 0) = some k) : answerConfigGet b s =
    ⟨s, .ok, b1 (u8 b 0) ++ be 2 (s.cfg.get k) ++ be 2 k.range.1 ++ be 2 k.range.2 ++ be 2 (Items.get .reset k) ++
      b1 (portCode k.owner)⟩ := by
  rw [answerConfigGet, h]

theorem answerConfigSet_unknown (h : itemOf (u8 b 0) = none) : answerConfigSet p b s = refuse .invalid s := by
  rw [answerConfigSet, h]

theorem answerConfigSet_foreign (h : itemOf (u8 b 0) = some k) (hp : p ≠ k.owner) :
    answerConfigSet p b s = refuse .permission s := by
  rw [answerConfigSet, h]
  exact if_pos hp

theorem answerConfigSet_stores (h : itemOf (u8 b 0) = some k) (hp : p = k.owner) : answerConfigSet p b s =
    ⟨storeItem k (clampItem s.cfg k (u16 b 1)) s, if clampItem s.cfg k (u16 b 1) = u16 b 1 then .ok else .clamped,
      b1 (u8 b 0) ++ be 2 (s.cfg.get k) ++ be 2 (clampItem s.cfg k (u16 b 1))⟩ := by
  rw [answerConfigSet, h]
  exact if_neg (not_not.mpr hp)

/-- The value stored, before its effect. -/
def itemStored (k : Item) (v : Nat) (s : State) : State := s.onCfg fun i => i.put k v

theorem storeItem_eq (k : Item) (v : Nat) (s : State) :
    storeItem k v s = itemEffect k (decide (s.cfg.get k ≠ v)) (itemStored k v s) := rfl

theorem storeItem_cfg (k : Item) (v : Nat) (s : State) : (storeItem k v s).cfg = s.cfg.put k v :=
  (itemEffect_touches k _ (itemStored k v s)).cfg_eq

end

/-- Settles O53. -/
theorem itemsAreClampedStoredAndTakeEffect : Obligations.ItemsAreClampedStoredAndTakeEffect := by
  intro p b s hs s0
  have hcfg : s0.cfg = s.cfg := found_cfg p s
  refine ⟨fun hb => ⟨fun hnone => ?_, fun k hk => ?_⟩, fun hb => ⟨fun hnone => ?_, fun k hk => ⟨fun hp => ?_, ?_⟩⟩⟩
  · have hlen : lengthOk .configGet b = true := beq_iff_eq.mpr hb
    exact congrArg Host.Outcome.next (request_of_answer_unchanged hs hlen rfl (answerConfigGet_unknown hnone))
  · have hlen : lengthOk .configGet b = true := beq_iff_eq.mpr hb
    have hact := answerConfigGet_item (s := s0) hk
    rw [hcfg] at hact
    exact congrArg Host.Outcome.next (request_of_answer_unchanged hs hlen rfl hact)
  · have hlen : lengthOk .configSet b = true := beq_iff_eq.mpr hb
    exact congrArg Host.Outcome.next (request_of_answer_unchanged hs hlen rfl (answerConfigSet_unknown hnone))
  · have hlen : lengthOk .configSet b = true := beq_iff_eq.mpr hb
    exact congrArg Host.Outcome.next (request_of_answer_unchanged hs hlen rfl (answerConfigSet_foreign hk hp))
  · intro hp x v s1
    have hlen : lengthOk .configSet b = true := beq_iff_eq.mpr hb
    have hv : clampItem s0.cfg k (u16 b 1) = v := by
      rw [hcfg]
      exact clampItem_eq s.cfg k (u16 b 1)
    have hs1 : itemStored k v s0 = s1 := by
      show { s0 with cfg := s0.cfg.put k v } = _
      rw [hcfg]
    obtain ⟨t, ht⟩ : ∃ t, t = storeItem k v s0 := ⟨_, rfl⟩
    have heffect : t = itemEffect k (decide (s.cfg.get k ≠ v)) s1 := by rw [ht, storeItem_eq, hs1, hcfg]
    have htcfg : t.cfg = s.cfg.put k v := by rw [ht, storeItem_cfg, hcfg]
    have hact := answerConfigSet_stores (s := s0) hk hp
    rw [hv, ← ht, hcfg] at hact
    have hsc : s1.sc = s.sc := found_sc p s
    have hpc : s1.pc = s.pc := found_pc p s
    have hhc : s1.hc = s.hc := found_hc p s
    have him : s1.im = s.im := found_im p s
    refine ⟨t, congrArg Host.Outcome.next (request_answered hs hlen rfl hact), ?_, fun k' hk' => ?_, fun h => ?_, fun h => ?_,
      fun h => ?_, fun h => ⟨fun hsame => ?_, ?_⟩, fun h => ⟨fun hsame => ?_, ?_⟩, ?_⟩
    · rw [htcfg, Items.get_put_self]
    · rw [htcfg, Items.get_put_other _ hk']
    · have hea : s1.ea = s.ea := found_ea p s
      have hzero : t = s1.onEa EnergyAccount.zeroPulses := by rw [heffect]; rcases h with rfl | rfl <;> rfl
      rw [hzero, ← hea]
      rfl
    · have hse : s1.se = s.se := found_se p s
      subst h
      rw [heffect, ← hse]
      rfl
    · have hrefresh : t = refreshStream s1 := by rw [heffect]; rcases h with rfl | rfl | rfl | rfl <;> rfl
      have hflags := (refreshStream_tells s1).flags
      rw [hrefresh]
      exact ⟨refreshStream_touches s1, hflags, refreshStream_flag s1⟩
    · rw [heffect, decide_eq_false (not_not.mpr hsame)]
      rcases h with rfl | rfl <;> rfl
    · intro hne q ends
      have hlimit : t = limitUpdate s1 := by
        rw [heffect, decide_eq_true hne]
        rcases h with rfl | rfl <;> rfl
      have hq : (limited s1).pc.pCmd = q := by
        rw [limited_pCmd, hpc]
        rfl
      have hbus : latestVBus s1 = latestVBus s := latestVBus_congr (found_fe p s)
      rw [hlimit]
      refine ⟨fun hends => ?_, fun hends => ?_⟩
      · obtain ⟨h1, h2, h3⟩ := hends
        rw [← hsc] at h1 h3 ⊢
        exact limitUpdate_closed h1 (hq.trans h2) h3
      · have hrests := limitUpdate_rests (s := s1) (by rw [hsc, hq]; exact hends)
        rw [hsc, hq, hbus, hpc] at hrests
        exact hrests
    · subst h
      have hsame' : s.cfg.get .heatIdleS = v := hsame
      rw [heffect, decide_eq_false (not_not.mpr hsame')]
      rfl
    · intro hne reached
      subst h
      have hne' : s.cfg.get .heatIdleS ≠ v := hne
      have hidle : t = idleChanged s1 := by
        rw [heffect, decide_eq_true hne']
        rfl
      have hreached : s1.hc.idleReached s1.cfg.heatIdleS = true ↔ reached := by
        rw [Heater.idleReached_iff, hhc]
        rfl
      rw [hidle, ← hhc]
      refine ⟨fun hno => idleChanged_runs (mt hreached.mp hno), fun hr hph => ?_, fun hr hph hleg hoff => ?_⟩
      · rw [idleChanged_acts (hreached.mpr hr), idleLimit_waits (by rw [him]; exact hph)]
      · rw [idleChanged_acts (hreached.mpr hr)]
        exact idleLimit_disconnects (by rw [him]; exact hph) hleg (by rw [heaterOff, hhc]; exact hoff)
    · intro n1 n2 n3 n4 n5 n6 n7 n8 n9 n10
      rw [heffect]
      cases k <;> first | rfl | contradiction

end Sys2Proof.Machine

/-! PROOFS. The wire: counts, signed figures, sets, the layouts of the records and of the field sets (R189 to R193). -/

namespace Sys2Proof.Machine

set_option Elab.async false

/-! ## Counts and signed figures (R189) -/

theorem countOf_append (l : List Byte) (x : Byte) : countOf (l ++ [x]) = countOf l * 256 + x.toNat := by
  rw [countOf, List.foldl_append]
  rfl

/-- The `k` low bytes of a count, most significant first. -/
def bytesOf (k x : Nat) : List Byte := (List.range k).map fun i => BitVec.ofNat 8 (x / 256 ^ (k - 1 - i))

theorem be_eq (k n : Nat) : be k n = bytesOf k (min n (256 ^ k - 1)) := rfl

/-- One byte more: the last byte is the remainder by 256, those before it carry the quotient. -/
theorem bytesOf_succ (k x : Nat) : bytesOf (k + 1) x = bytesOf k (x / 256) ++ [BitVec.ofNat 8 x] := by
  have hlast : x / 256 ^ (k + 1 - 1 - k) = x := by
    rw [Nat.add_sub_cancel, Nat.sub_self, Nat.pow_zero, Nat.div_one]
  have hinit : ∀ i ∈ List.range k, BitVec.ofNat 8 (x / 256 ^ (k + 1 - 1 - i)) =
      BitVec.ofNat 8 (x / 256 / 256 ^ (k - 1 - i)) := by
    intro i hi
    have hik : k + 1 - 1 - i = k - 1 - i + 1 := by
      have := List.mem_range.mp hi
      omega
    rw [hik, Nat.pow_succ, Nat.mul_comm, Nat.div_div_eq_div_mul]
  rw [bytesOf, List.range_succ, List.map_append, List.map_singleton, hlast, List.map_congr_left hinit]
  rfl

theorem countOf_bytesOf {k x : Nat} (h : x < 256 ^ k) : countOf (bytesOf k x) = x := by
  induction k generalizing x with
  | zero =>
    rw [Nat.pow_zero] at h
    obtain rfl : x = 0 := by omega
    rfl
  | succ k ih =>
    have hquot : x / 256 < 256 ^ k := by
      rw [Nat.div_lt_iff_lt_mul (by decide), ← Nat.pow_succ]
      exact h
    rw [bytesOf_succ, countOf_append, ih hquot, BitVec.toNat_ofNat]
    exact Nat.div_add_mod' x 256

/-- A count is carried as it is, or at the field's largest value. -/
theorem countOf_be (k n : Nat) : countOf (be k n) = min n (256 ^ k - 1) := by
  have hpos : 0 < 256 ^ k := Nat.pow_pos (by decide)
  rw [be_eq]
  exact countOf_bytesOf (by omega)

theorem beSigned_length (k : Nat) (x : Int) : (beSigned k x).length = k := by
  unfold beSigned
  split <;> exact be_length _ _

theorem pow_256 (k : Nat) : 256 ^ (k + 1) = 2 * 2 ^ (8 * k + 7) := by
  rw [show (256 : Nat) = 2 ^ 8 from rfl, ← Nat.pow_mul, ← Nat.pow_succ']
  congr 1

/-- A signed figure in two's complement. -/
theorem countOf_beSigned (k : Nat) (x : Int) (hlo : -(2 ^ (8 * k + 7) : Int) ≤ x) (hhi : x < 2 ^ (8 * k + 7)) :
    (countOf (beSigned (k + 1) x) : Int) = x % 256 ^ (k + 1) := by
  have hmod : (256 : Int) ^ (k + 1) = ((256 ^ (k + 1) : Nat) : Int) := by norm_num
  have hhalf : (2 : Int) ^ (8 * k + 7) = ((2 ^ (8 * k + 7) : Nat) : Int) := by norm_num
  have hM := pow_256 k
  rw [hhalf] at hlo hhi
  rw [hmod, beSigned]
  generalize 2 ^ (8 * k + 7) = half at hM hlo hhi
  generalize hMod : 256 ^ (k + 1) = M at hM ⊢
  split
  · next h =>
    rw [countOf_be, hMod, Int.emod_eq_of_lt h (by omega)]
    omega
  · next h =>
    rw [countOf_be, hMod, ← Int.add_emod_right, Int.emod_eq_of_lt (by omega) (by omega)]
    omega

/-! ## Layouts -/

/-- Fields that follow one another from offset `o` to `n`. -/
def Contiguous : Nat → Nat → List (Nat × List Byte) → Prop
  | o, n, [] => o = n
  | o, n, f :: fs => f.1 = o ∧ Contiguous (o + f.2.length) n fs

theorem Contiguous.length {o n : Nat} {fs : List (Nat × List Byte)} (h : Contiguous o n fs) :
    o + (fs.map Prod.snd).flatten.length = n := by
  induction fs generalizing o with
  | nil => exact h
  | cons f fs ih =>
    have := ih h.2
    simp only [List.map_cons, List.flatten_cons, List.length_append]
    omega

/-- Each field stands at its offset in the run of all of them. -/
theorem Contiguous.field {o n : Nat} {fs : List (Nat × List Byte)} (h : Contiguous o n fs) {f : Nat × List Byte} (hf : f ∈ fs) :
    o ≤ f.1 ∧ ((fs.map Prod.snd).flatten.drop (f.1 - o)).take f.2.length = f.2 := by
  induction fs generalizing o with
  | nil => cases hf
  | cons g fs ih =>
    obtain ⟨hg, htail⟩ := h
    rw [List.map_cons, List.flatten_cons]
    rcases List.mem_cons.mp hf with rfl | hmem
    · rw [hg, Nat.sub_self, List.drop_zero, List.take_left]
      exact ⟨Nat.le_refl _, rfl⟩
    · obtain ⟨hle, htake⟩ := ih htail hmem
      refine ⟨by omega, ?_⟩
      rw [List.drop_append, List.drop_eq_nil_of_le (by omega), List.nil_append, Nat.sub_sub]
      exact htake

theorem Contiguous.laid {n : Nat} {fs : List (Nat × List Byte)} (h : Contiguous 0 n fs) {b : List Byte}
    (hb : b = (fs.map Prod.snd).flatten) : Laid b n fs := by
  refine ⟨by rw [hb, ← h.length, Nat.zero_add], fun f hf => ?_⟩
  rw [hb]
  exact (h.field hf).2

theorem Laid.subset {b : List Byte} {n : Nat} {fs gs : List (Nat × List Byte)} (h : Laid b n fs) (hsub : ∀ f ∈ gs, f ∈ fs) :
    Laid b n gs := ⟨h.1, fun f hf => h.2 f (hsub f hf)⟩

theorem b1_length (n : Nat) : (b1 n).length = 1 := be_length 1 n

theorem bFlag_length (b : Bool) : (bFlag b).length = 1 := b1_length _

/-- A byte of a code below 256 is that code. -/
theorem b1_code {n : Nat} (h : n < 256) : b1 n = [BitVec.ofNat 8 n] := by
  rw [b1, be_eq, Nat.min_eq_left (by omega), bytesOf_succ]
  rfl

/-! ## The records (R191 to R193) -/

theorem billing_laid (r : BillingRecord) : Laid (Record.billing r).wire 48
    [(0, [1]), (1, b1 (r.reason.code + 8 * r.payer.code)),
      (2, be 2 (setSum [r.clockUnset, r.noTariff, r.merged, r.mixedPrice, r.reverse, r.saturatedInput, r.saturatedAccount,
        r.lockout, r.final, r.aborted])),
      (4, be 4 r.number), (8, be 2 r.index), (10, be 2 r.generation),
      (12, be 2 (if r.clockUnset then 0 else r.startDay)), (14, be 4 r.startSec), (18, be 3 r.duration), (21, be 2 r.price),
      (23, be 4 r.wh.g), (27, be 4 r.wh.bg), (31, be 4 r.wh.hg), (35, be 4 r.wh.lg), (39, be 4 r.wh.hb), (43, be 5 r.cost)] := by
  refine Contiguous.laid ?_ ?_
  · simp only [Contiguous, be_length, b1_length, List.length_singleton]
    decide
  · have h1 : b1 1 = [1] := b1_code (by decide)
    simp only [Record.wire, BillingRecord.wire, h1, List.map_cons, List.map_nil, List.flatten_cons, List.flatten_nil,
      List.append_assoc, List.append_nil]

theorem result_laid (r : ResultRecord) : Laid (Record.result r).wire 48
    [(0, [2]), (1, b1 (setSum [r.valid, r.leg, r.localise, r.time.unset])), (2, b1 r.reason.code), (3, b1 r.cls.code),
      (4, be 4 r.number), (8, be 2 r.time.day), (10, be 4 r.time.sec), (14, be 2 r.va), (16, be 2 r.vb),
      (18, be 2 r.figures.u), (20, be 2 r.figures.rp), (22, be 2 r.figures.rn), (24, be 2 r.settleA), (26, be 2 r.settleB),
      (28, List.replicate 20 0)] := by
  refine Contiguous.laid ?_ ?_
  · simp only [Contiguous, be_length, b1_length, List.length_singleton, List.length_replicate]
    decide
  · have h2 : b1 2 = [2] := b1_code (by decide)
    simp only [Record.wire, ResultRecord.wire, padTo, bTime, h2, List.map_cons, List.map_nil, List.flatten_cons,
      List.flatten_nil, List.append_assoc, List.append_nil, List.length_append, List.length_singleton, be_length, b1_length]

theorem captured_laid (r : CapturedRecord) (h : r.body.length ≤ 30) : Laid (Record.captured r).wire 48
    [(0, [3]), (1, b1 r.source), (2, b1 (r.port.elim 0 portCode)), (3, b1 r.desc), (4, bFlag r.repeating),
      (5, b1 r.fieldSet.code), (6, b1 (setSum [r.time.unset, r.seq.isNone])), (7, b1 r.missed), (8, be 2 r.time.day),
      (10, be 4 r.time.sec), (14, be 2 (r.seq.getD 0)), (16, be 2 r.countAfter), (18, r.body),
      (18 + r.body.length, List.replicate (30 - r.body.length) 0)] := by
  refine Contiguous.laid ?_ ?_
  · simp only [Contiguous, be_length, b1_length, bFlag_length, List.length_singleton, List.length_replicate, Nat.zero_add,
      Nat.reduceAdd, true_and]
    omega
  · have h3 : b1 3 = [3] := b1_code (by decide)
    simp only [Record.wire, CapturedRecord.wire, padTo, bTime, h3, List.map_cons, List.map_nil, List.flatten_cons,
      List.flatten_nil, List.append_assoc, List.append_nil]

/-! ## The field sets (R193) -/

section
variable (s : State)

theorem session_laid : Laid (fieldBody .session s) 23
    [(0, b1 s.sc.state.code), (1, b1 s.sc.hold.sum), (2, b1 s.sc.lockout.sum),
      (3, b1 (setSum [s.sc.finalPending, s.sc.record.pause, s.ct.held.isSome])), (4, be 4 s.sc.record.number),
      (8, b1 s.sc.record.payer.code), (9, be 2 s.sc.record.offer), (11, b1 s.sc.record.closeReason.code),
      (12, be 2 (indexFigure s)), (14, b1 (lengthFigure s)), (15, be 2 s.ct.price), (17, be 6 s.ct.cost)] := by
  refine Contiguous.laid ?_ ?_
  · simp only [Contiguous, be_length, b1_length]
    decide
  · simp only [fieldBody, sessionBody, List.map_cons, List.map_nil, List.flatten_cons, List.flatten_nil, List.append_assoc,
      List.append_nil]

theorem energy_laid : Laid (fieldBody .energy s) 30
    [(0, be 3 s.ea.session.g.wh), (3, be 3 s.ea.session.bg.wh), (6, be 3 s.ea.session.hg.wh), (9, be 3 s.ea.session.lg.wh),
      (12, be 3 s.ea.session.hb.wh), (15, b1 (residue256 s.ea.session.g)), (16, b1 (residue256 s.ea.session.bg)),
      (17, b1 (residue256 s.ea.session.hg)), (18, b1 (residue256 s.ea.session.lg)), (19, b1 (residue256 s.ea.session.hb)),
      (20, b1 (setSum [s.ea.session.saturated, s.ea.accruing, s.ea.lifetime.saturated])), (21, be 4 s.ea.lifetime.g.wh),
      (25, be 3 s.ea.unassigned.wh), (28, b1 s.ea.pulses), (29, b1 s.ea.lost)] := by
  refine Contiguous.laid ?_ ?_
  · simp only [Contiguous, be_length, b1_length]
    decide
  · simp only [fieldBody, energyBody, List.map_cons, List.map_nil, List.flatten_cons, List.flatten_nil, List.append_assoc,
      List.append_nil]

theorem power_laid : Laid (fieldBody .power s) 19
    ([(0, be 2 s.pc.pCmd), (2, be 2 s.pc.aH), (4, be 2 s.hc.hOn), (6, b1 s.pc.derate.code), (7, bFlag s.pc.exhausted),
      (8, be 2 (s.pc.used / whUnit))] ++ match s.fe.latest with
        | some x => [(10, beSigned 2 x.pIn), (12, be 2 x.vBus), (14, beSigned 2 x.iBat), (16, be 2 x.iHeat),
          (18, b1 (setSum [x.satPIn, x.satVBus, x.satIBat, x.satIHeat]))]
        | none => [(10, List.replicate 9 0)]) := by
  refine Contiguous.laid ?_ ?_
  · cases s.fe.latest <;>
      simp only [Contiguous, List.cons_append, List.nil_append, be_length, b1_length, bFlag_length, beSigned_length,
        List.length_replicate] <;> decide
  · cases h : s.fe.latest <;>
      simp only [fieldBody, powerBody, h, List.cons_append, List.nil_append, List.map_cons, List.map_nil, List.flatten_cons,
        List.flatten_nil, List.append_assoc, List.append_nil]

theorem thermal_laid : Laid (fieldBody .thermal s) 20
    ([(0, b1 s.hc.e1.state.code), (1, b1 s.hc.e1.cause.code), (2, b1 s.hc.e2.state.code), (3, b1 s.hc.e2.cause.code),
      (4, b1 s.hc.leg.code), (5, b1 (setSum [s.hc.thermostat, s.hc.sensor])), (6, be 2 s.hc.demand)] ++
      match s.fe.latest with
        | some x => [(8, beSigned 2 x.tPack.value), (10, beSigned 2 x.tEl1.value), (12, beSigned 2 x.tEl2.value),
          (14, beSigned 2 x.tObc.value), (16, b1 x.tPack.mark.code), (17, b1 x.tEl1.mark.code), (18, b1 x.tEl2.mark.code),
          (19, b1 x.tObc.mark.code)]
        | none => [(8, List.replicate 12 0)]) := by
  refine Contiguous.laid ?_ ?_
  · cases s.fe.latest <;>
      simp only [Contiguous, List.cons_append, List.nil_append, be_length, b1_length, beSigned_length,
        List.length_replicate] <;> decide
  · cases h : s.fe.latest <;>
      simp only [fieldBody, thermalBody, h, List.cons_append, List.nil_append, List.map_cons, List.map_nil,
        List.flatten_cons, List.flatten_nil, List.append_assoc, List.append_nil]

theorem insulation_laid : Laid (fieldBody .insulation s) 21
    ([(0, b1 s.im.level.code), (1, b1 (setSum [s.im.runRequested, s.im.running])), (2, b1 s.im.meas.code)] ++
      (match s.im.last with
        | some r => [(3, be 4 r.number), (7, b1 (setSum [r.valid, r.localise])), (8, b1 r.cls.code),
          (9, be 2 r.figures.rp), (11, be 2 r.figures.rn), (13, be 2 r.figures.u)]
        | none => [(3, List.replicate 12 0)]) ++
      [(15, b1 s.im.faults.length), (16, bFlag s.im.overflow), (17, b1 s.im.worse.count), (18, b1 s.im.worse.bound.code),
        (19, b1 s.im.better.count), (20, b1 s.im.better.bound.code)]) := by
  refine Contiguous.laid ?_ ?_
  · cases s.im.last <;>
      simp only [Contiguous, List.cons_append, List.nil_append, be_length, b1_length, bFlag_length,
        List.length_replicate] <;> decide
  · cases h : s.im.last <;>
      simp only [fieldBody, insulationBody, h, List.cons_append, List.nil_append, List.map_cons, List.map_nil,
        List.flatten_cons, List.flatten_nil, List.append_assoc, List.append_nil]

/-- The last three figures of a LIMITS body. -/
def limitsTail : List (Nat × List Byte) :=
  [(9, b1 (s.sc.validity.getD 0 / 100)), (10, bFlag s.hc.mode), (11, beSigned 2 s.hc.target)]

theorem limits_laid_some {l : LimitsRecord} (h : s.sc.limits = some l) : Laid (fieldBody .limits s) 13
    ([(0, be 2 l.iBmax), (2, be 2 l.vBmax), (4, beSigned 2 l.tAccept), (6, be 2 l.pHeatBatt), (8, b1 (limitsCode s.sc))] ++
      limitsTail s) := by
  refine Contiguous.laid ?_ ?_
  · simp only [Contiguous, limitsTail, List.cons_append, List.nil_append, be_length, b1_length, bFlag_length, beSigned_length]
    decide
  · simp only [fieldBody, limitsBody, limitsFigures, limitsTail, h, List.cons_append, List.nil_append, List.map_cons,
      List.map_nil, List.flatten_cons, List.flatten_nil, List.append_assoc, List.append_nil]

/-- Without a record the four figures before the code are free values. -/
theorem limits_laid_none (h : s.sc.limits = none) : Laid (fieldBody .limits s) 13 ((8, b1 2) :: limitsTail s) := by
  have hcode : limitsCode s.sc = 2 := by rw [limitsCode, h]
  have hall : Laid (fieldBody .limits s) 13 ([(0, be 2 (Config.absentIbmax s.free).toNat),
      (2, be 2 (Config.absentVbmax s.free).toNat), (4, be 2 (Config.absentTaccept s.free).toNat),
      (6, be 2 (Config.absentPheat s.free).toNat)] ++ ((8, b1 2) :: limitsTail s)) := by
    refine Contiguous.laid ?_ ?_
    · simp only [Contiguous, limitsTail, List.cons_append, List.nil_append, be_length, b1_length, bFlag_length,
        beSigned_length]
      decide
    · simp only [fieldBody, limitsBody, limitsFigures, limitsTail, h, hcode, List.cons_append, List.nil_append, List.map_cons,
        List.map_nil, List.flatten_cons, List.flatten_nil, List.append_assoc, List.append_nil]
  exact hall.subset fun f hf => List.mem_append_right _ hf

end

/-- Settles O56. -/
theorem recordsAndFieldSetsHaveTheirLayouts : Obligations.RecordsAndFieldSetsHaveTheirLayouts := by
  refine ⟨fun k n => ⟨be_length k n, countOf_be k n⟩, fun k x hlo hhi => ⟨beSigned_length _ _, countOf_beSigned k x hlo hhi⟩,
    fun l k => ?_, fun r => ?_, fun r => ?_, fun r hr => ?_, fun s => ⟨session_laid s, fun i hi => ?_, energy_laid s, power_laid s,
      thermal_laid s, insulation_laid s, ?_⟩⟩
  · rw [setSum_testBit, List.getD_eq_getElem?_getD]
  · have h := billing_laid r
    cases hreason : r.reason <;> cases hpayer : r.payer <;> rw [hreason, hpayer] at h <;> exact h
  · have hreason : b1 r.reason.code = [match r.reason with
        | .noReason => 0 | .busLow => 1 | .implausible => 2 | .settleTimeout => 3 | .disturbed => 4] := by
      cases r.reason <;> exact b1_code (by decide)
    have hcls : b1 r.cls.code = [match r.cls with | .noClass => 0 | .ok => 1 | .warning => 2 | .fault => 3] := by
      cases r.cls <;> exact b1_code (by decide)
    have h := result_laid r
    rw [hreason, hcls] at h
    exact h
  · have hport : b1 (r.port.elim 0 portCode) =
        [match r.port with | none => 0 | some .v => 1 | some .c => 2 | some .t => 3] := by
      rcases r.port with _ | (_ | _ | _) <;> exact b1_code (by decide)
    have hfields : b1 r.fieldSet.code = [match r.fieldSet with
        | .session => 0 | .energy => 1 | .power => 2 | .thermal => 3 | .insulation => 4 | .limits => 5] := by
      cases r.fieldSet <;> exact b1_code (by decide)
    have h := captured_laid r hr
    rw [hport, hfields] at h
    exact h
  · rw [indexFigure, lengthFigure, hi]
    exact ⟨rfl, rfl⟩
  · cases h : s.sc.limits with
    | none =>
      have h2 : b1 2 = [2] := b1_code (by decide)
      have hlaid := limits_laid_none s h
      rw [h2] at hlaid
      exact hlaid
    | some l =>
      have hlaid := limits_laid_some s h
      rw [limitsCode, h] at hlaid
      exact hlaid

end Sys2Proof.Machine

/-! PROOFS. Streams joined, released, read and acknowledged (R142, R153, R154, R157 to R160). -/

namespace Sys2Proof.Machine

set_option Elab.async false

/-! ## Codes of streams and ports (R153) -/

theorem streamOf_code (st : Stream) : streamOf st.code = some st := by cases st <;> rfl

theorem streamOf_high {n : Nat} (h : 3 < n) : streamOf n = none := by
  match n, h with
  | n + 4, _ => rfl

theorem Stream.exists_code {n : Nat} (h : n ≤ 3) : ∃ st : Stream, st.code = n := by
  match n, h with
  | 0, _ => exact ⟨.billing, rfl⟩
  | 1, _ => exact ⟨.insulation, rfl⟩
  | 2, _ => exact ⟨.events, rfl⟩
  | 3, _ => exact ⟨.readings, rfl⟩

theorem Stream.code_le (st : Stream) : st.code ≤ 3 := by cases st <;> decide

theorem Stream.code_inj {x y : Stream} (h : x.code = y.code) : x = y := by
  have hx := streamOf_code x
  rw [h, streamOf_code y] at hx
  exact (Option.some.inj hx).symm

theorem portOf_code (p : Port) : portOf (portCode p) = some p := by cases p <;> rfl

theorem portOf_outside {n : Nat} (h : ¬ (1 ≤ n ∧ n ≤ 3)) : portOf n = none := by
  match n with
  | 0 => rfl
  | 1 | 2 | 3 => omega
  | n + 4 => rfl

theorem portOf_inside {n : Nat} (h : 1 ≤ n ∧ n ≤ 3) : ∃ p, portCode p = n := by
  match n with
  | 0 => omega
  | 1 => exact ⟨.v, rfl⟩
  | 2 => exact ⟨.c, rfl⟩
  | 3 => exact ⟨.t, rfl⟩
  | n + 4 => omega

/-! ## Each port's STREAM flag is its condition (R161) -/

/-- The STREAM flag of every port follows its condition. -/
def StreamFollows (t : State) : Prop := ∀ p, flagSet .stream (t.ports.get p).flags = streamCondition p t

theorem streamCondition_congr {s t : State} (hrs : t.rs = s.rs) (hcfg : t.cfg = s.cfg) (p : Port) :
    streamCondition p t = streamCondition p s := by
  simp only [streamCondition, overMarkFor, hrs, hcfg]

theorem refreshStream_follows (s : State) : StreamFollows (refreshStream s) := refreshStream_flag s

/-- An operation that raises no STREAM flag and leaves the streams alone keeps the flags following. -/
theorem StreamFollows.tells {s t : State} {ns : List Notice} {srcs : List Source} (h : StreamFollows s) (told : Tells ns srcs s t)
    (hrs : t.rs = s.rs) (hcfg : t.cfg = s.cfg) (hns : Notice.stream ∉ ns := by decide) : StreamFollows t := by
  intro p
  rw [told.flags p _ hns, h p, streamCondition_congr hrs hcfg]

theorem StreamFollows.congr {s t : State} (h : StreamFollows s) (hports : t.ports = s.ports) (hrs : t.rs = s.rs)
    (hcfg : t.cfg = s.cfg) : StreamFollows t := by
  intro p
  rw [hports, h p, streamCondition_congr hrs hcfg]

/-! ## Records appended to a queue (R155) -/

section
variable {st : Stream} {a : Area} {j : Join} {s : State} {new new' : List Record} {r r' r'' : Store}

/-- The queue of a joined stream with `n` records more. -/
def Join.longer (j : Join) (n : Nat) : Join := { j with count := j.count + n }

theorem QueueMoved.refl (st : Stream) (a : Area) (r : Store) : QueueMoved st a r r := ⟨rfl, fun _ _ => rfl, id, fun _ _ => rfl⟩

theorem QueueMoved.trans (h : QueueMoved st a r r') (h' : QueueMoved st a r' r'') : QueueMoved st a r r'' :=
  ⟨h'.areas.trans h.areas, fun x hx => (h'.others x hx).trans (h.others x hx), fun hw => h'.slots (h.slots hw),
    fun n hn => (h'.outside n hn).trans (h.outside n hn)⟩

/-- The stream's queue has gained the records `new` after its newest, and nothing else of the store has changed. -/
structure Queued (st : Stream) (a : Area) (j : Join) (new : List Record) (r r' : Store) : Prop where
  moved : QueueMoved st a r r'
  stream : r'.stream st = { r.stream st with join := some (j.longer new.length) }
  kept : ∀ k, k < j.count → recordAt (j.longer new.length) k r' = recordAt j k r
  added : ∀ k, k < new.length → recordAt (j.longer new.length) (j.count + k) r' = new[k]?

theorem Queued.nil (hj : (r.stream st).join = some j) : Queued st a j [] r r := by
  refine ⟨.refl st a r, ?_, fun _ _ => rfl, fun k hk => absurd hk (Nat.not_lt_zero k)⟩
  show r.stream st = { r.stream st with join := some j }
  rw [← hj]

theorem Queued.trans (h : Queued st a j new r r') (h' : Queued st a (j.longer new.length) new' r' r'') :
    Queued st a j (new ++ new') r r'' := by
  have hjoin : j.longer (new ++ new').length = (j.longer new.length).longer new'.length := by
    simp only [Join.longer, List.length_append, Nat.add_assoc]
  have hcount : (j.longer new.length).count = j.count + new.length := rfl
  refine ⟨h.moved.trans h'.moved, ?_, fun k hk => ?_, fun k hk => ?_⟩ <;> rw [hjoin]
  · rw [h'.stream, h.stream]
  · rw [h'.kept k (by omega), h.kept k hk]
  · rcases Nat.lt_or_ge k new.length with hlt | hge
    · rw [h'.kept _ (by omega), h.added k hlt, List.getElem?_append_left hlt]
    · have hpos : j.count + k = (j.longer new.length).count + (k - new.length) := by omega
      rw [List.length_append] at hk
      rw [hpos, h'.added _ (by omega), List.getElem?_append_right hge]

theorem appendRecord_queued (rec : Record) (ha : s.rs.area j.area = a) (hsized : a.sized) (hroom : j.count < a.count) :
    Queued st a j [rec] s.rs (appendRecord st rec j s).rs := by
  refine ⟨appendRecord_moved rec ha hsized, appendRecord_stream st rec j s, fun k hk => ?_, fun k hk => ?_⟩
  · exact (appendRecord_recordAt rec ha hroom k).trans (if_neg hk.ne)
  · obtain rfl : k = 0 := Nat.lt_one_iff.mp hk
    exact (appendRecord_recordAt rec ha hroom j.count).trans (if_pos rfl)

end

/-! ## BILLING gains room (R142) -/

section
variable {a : Area} {j : Join} {s : State} {f : BillingRecord}

theorem billingRoom_joined (hj : s.rs.billing.join = some j) (ha : s.rs.area j.area = a) :
    billingRoom s = decide (j.count < a.count) := by
  simp only [billingRoom, hj, ha]

theorem offer_billing (rec : Record) (hj : s.rs.billing.join = some j) (ha : s.rs.area j.area = a) (hroom : j.count < a.count) :
    offer .billing rec s = appendRecord .billing rec j s :=
  offer_of_room (st := .billing) rec hj (by rw [ha]; exact hroom)

/-- The records that wait for BILLING in the hold slot (R142). -/
def heldRecords (s : State) : List Record := (s.ct.held.map Record.billing).toList

/-- Room lets the held record in. -/
theorem appendHeld_queued (hj : s.rs.billing.join = some j) (ha : s.rs.area j.area = a) (hsized : a.sized)
    (hroom : j.count < a.count) : Queued .billing a j (heldRecords s) s.rs (appendHeld s).rs ∧
      (appendHeld s).ct = { s.ct with held := none } := by
  cases hheld : s.ct.held with
  | none =>
    rw [appendHeld_of_none (.inl hheld), heldRecords, hheld]
    refine ⟨.nil hj, ?_⟩
    rw [← hheld]
  | some r =>
    rw [appendHeld_of_some hheld (by rw [billingRoom_joined hj ha]; exact decide_eq_true hroom), heldRecords, hheld,
      offer_billing _ hj ha hroom]
    exact ⟨appendRecord_queued _ ha hsized hroom, rfl⟩

theorem appendHeld_follows (h : StreamFollows s) (hj : s.rs.billing.join = some j) (ha : s.rs.area j.area = a)
    (hroom : j.count < a.count) : StreamFollows (appendHeld s) := by
  cases hheld : s.ct.held with
  | none => rwa [appendHeld_of_none (.inl hheld)]
  | some r =>
    rw [appendHeld_of_some hheld (by rw [billingRoom_joined hj ha]; exact decide_eq_true hroom), offer_billing _ hj ha hroom]
    exact (refreshStream_follows _).congr rfl rfl rfl

/-- A pending final record finds room in BILLING. -/
theorem placeFinal_queued (hf : s.ct.finalRecord = some f) (hj : s.rs.billing.join = some j) (ha : s.rs.area j.area = a)
    (hsized : a.sized) (hroom : j.count < a.count) : Queued .billing a j [.billing f] s.rs (placeFinal s).rs ∧
      (placeFinal s).ct.held = s.ct.held ∧ StreamFollows (placeFinal s) := by
  have hbill : billingRoom s = true := by rw [billingRoom_joined hj ha]; exact decide_eq_true hroom
  have hplace := (placeable_iff s).mpr (.inl hbill)
  obtain ⟨hrs, hheld⟩ := (placeFinal_placed hf hplace).stream hbill
  rw [offer_billing _ hj ha hroom] at hrs
  refine ⟨hrs ▸ appendRecord_queued _ ha hsized hroom, hheld, ?_⟩
  rw [placeFinal_of_some hf hplace, placeRecord_of_room f hbill, offer_billing _ hj ha hroom]
  have hfollows : StreamFollows ((appendRecord .billing (.billing f) j s).onCt fun c => { c with finalRecord := none }) :=
    (refreshStream_follows _).congr rfl rfl rfl
  exact hfollows.tells (sessionEnd_tells _) (sessionEnd_touches _).rs_eq (sessionEnd_touches _).cfg_eq

/-- A pending final record finds the hold slot. -/
theorem placeFinal_slotted (hf : s.ct.finalRecord = some f) (h : StreamFollows s) (hbill : billingRoom s = false)
    (hheld : s.ct.held = none) : (placeFinal s).rs = s.rs ∧ (placeFinal s).ct.held = some f ∧ Raised .billing (placeFinal s) ∧
      StreamFollows (placeFinal s) := by
  have hplace := (placeable_iff s).mpr (.inr hheld)
  obtain ⟨hrs, hslot, hraised⟩ := (placeFinal_placed hf hplace).slot hbill hheld
  refine ⟨hrs, hslot, hraised, ?_⟩
  rw [placeFinal_of_some hf hplace, placeRecord_of_slot f hbill hheld]
  have hheld' : StreamFollows (s.onCt fun c => { c with held := some f }) := h.congr rfl rfl rfl
  have hraised' : StreamFollows (raiseAll .billing (s.onCt fun c => { c with held := some f })) :=
    hheld'.tells (raiseAll_tells _ .billing) rfl rfl
  have hfollows : StreamFollows ((raiseAll .billing (s.onCt fun c => { c with held := some f })).onCt
      fun c => { c with finalRecord := none }) := hraised'.congr rfl rfl rfl
  exact hfollows.tells (sessionEnd_tells _) (sessionEnd_touches _).rs_eq (sessionEnd_touches _).cfg_eq

/-- What room in BILLING brings: the held record first, then the pending final one, which else takes the hold slot. -/
structure RoomGained (a : Area) (j : Join) (s t : State) (new : List Record) : Prop where
  queued : Queued .billing a j new s.rs t.rs
  follows : StreamFollows t
  cfg : t.cfg = s.cfg
  unfinal : s.ct.finalRecord = none →
    new = heldRecords s ∧ t.ct = { s.ct with held := none } ∧ Touches [.rs, .ct, .ports] s t ∧ (s.ct.held = none → t = s)
  final : ∀ f, s.ct.finalRecord = some f →
    (t.ct.finalRecord = none ∧ t.sc.finalPending = false ∧ Raised .session t ∧ Fired .sessionClosed s t) ∧
      let n := j.count + (heldRecords s).length
      (n < a.count → new = heldRecords s ++ [.billing f] ∧ t.ct.held = none) ∧
        (a.count ≤ n → new = heldRecords s ∧ t.ct.held = some f ∧ Raised .billing t)

theorem heldRecords_le (s : State) : (heldRecords s).length ≤ 1 := by
  unfold heldRecords
  cases s.ct.held <;> simp

theorem billingGainsRoom_gained (h : StreamFollows s) (hj : s.rs.billing.join = some j) (ha : s.rs.area j.area = a)
    (hsized : a.sized) (hroom : j.count < a.count) : ∃ new, RoomGained a j s (billingGainsRoom s) new := by
  obtain ⟨hqueued, hct⟩ := appendHeld_queued hj ha hsized hroom
  have hfollows := appendHeld_follows h hj ha hroom
  have hframe := appendHeld_touches s
  have hcfg : (billingGainsRoom s).cfg = s.cfg := (billingGainsRoom_touches s).cfg_eq
  cases hf : s.ct.finalRecord with
  | none =>
    have hsame : billingGainsRoom s = appendHeld s := placeFinal_of_none (.inl (by rw [hct]; exact hf))
    refine ⟨heldRecords s, ?_, ?_, hcfg, fun _ => ⟨rfl, ?_, ?_, fun hheld => ?_⟩, fun f hf' => ?_⟩
    · rwa [hsame]
    · rwa [hsame]
    · rw [hsame, hct]
    · rw [hsame]
      exact hframe.mono
    · rw [hsame, appendHeld_of_none (.inl hheld)]
    · rw [hf] at hf'
      cases hf'
  | some f =>
    obtain ⟨u, hu⟩ : ∃ u, u = appendHeld s := ⟨_, rfl⟩
    rw [← hu] at hqueued hct hfollows hframe
    have hgains : billingGainsRoom s = placeFinal u := by rw [hu]; rfl
    have hfu : u.ct.finalRecord = some f := by rw [hct]; exact hf
    have hheldu : u.ct.held = none := by rw [hct]
    have hju : u.rs.billing.join = some (j.longer (heldRecords s).length) := congrArg StreamState.join hqueued.stream
    have hau : u.rs.area (j.longer (heldRecords s).length).area = a := (Store.area_congr hqueued.moved.areas _).trans ha
    have placed := placeFinal_placed hfu ((placeable_iff u).mpr (.inr hheldu))
    have hse : u.se = s.se := hframe.se_eq
    have hdone : (placeFinal u).ct.finalRecord = none ∧ (placeFinal u).sc.finalPending = false ∧
        Raised .session (placeFinal u) ∧ Fired .sessionClosed s (placeFinal u) := by
      refine ⟨placed.taken, by rw [placed.session], placed.closed.1, ?_⟩
      have hfired := placed.closed.2
      unfold Fired at hfired ⊢
      rwa [hse] at hfired
    rw [hgains] at hcfg ⊢
    by_cases hmore : j.count + (heldRecords s).length < a.count
    · obtain ⟨hq, hheld, hfol⟩ := placeFinal_queued hfu hju hau hsized hmore
      refine ⟨_, hqueued.trans hq, hfol, hcfg, fun hnone => ?_, fun f' hf' => ⟨hdone, fun _ => ⟨?_, hheld.trans hheldu⟩,
        fun hfull => absurd hmore (Nat.not_lt.mpr hfull)⟩⟩
      · rw [hf] at hnone
        cases hnone
      · obtain rfl : f = f' := Option.some.inj (hf.symm.trans hf')
        rfl
    · have hbill : billingRoom u = false := by rw [billingRoom_joined hju hau]; exact decide_eq_false hmore
      obtain ⟨hrs, hheld, hraised, hfol⟩ := placeFinal_slotted hfu hfollows hbill hheldu
      refine ⟨heldRecords s, hrs ▸ hqueued, hfol, hcfg, fun hnone => ?_, fun f' hf' => ⟨hdone,
        fun hroom' => absurd hroom' hmore, fun _ => ⟨rfl, ?_, hraised⟩⟩⟩
      · rw [hf] at hnone
        cases hnone
      · obtain rfl : f = f' := Option.some.inj (hf.symm.trans hf')
        exact hheld

end

end Sys2Proof.Machine

/-! PROOFS. JOIN and UNJOIN; STREAM_READ and STREAM_ACK (R153, R154, R157 to R160). -/

namespace Sys2Proof.Machine

set_option Elab.async false

/-! ## JOIN and UNJOIN (R153, R154) -/

section
variable {s : State} {b : List Byte} {st : Stream} {p : Port} {a : Area} {j : Join}

theorem answerJoin_invalid (h : streamOf (u8 b 0) = none ∨ portOf (u8 b 2) = none ∨ s.rs.defined (u8 b 1) = none) :
    answerJoin b s = planReply .invalid [] s := by
  unfold answerJoin
  split
  · next hst hp ha => simp only [hst, hp, ha, reduceCtorEq, or_self] at h
  · rfl

/-- A JOIN that names a stream, an area and a port. -/
theorem answerJoin_named (hst : st.code = u8 b 0) (hp : portCode p = u8 b 2) (ha : s.rs.defined (u8 b 1) = some a) :
    answerJoin b s = if (s.rs.stream st).join.isSome then planReply .busy [] s
      else if s.rs.joined (u8 b 1) then planReply .busy [] s
      else planReply .ok [] (joinStream st (u8 b 1) a p s) := by
  unfold answerJoin
  rw [← hst, ← hp, streamOf_code, portOf_code, ha]

/-- The stream joined with an empty queue, before a waiting record is placed. -/
def joinedEmpty (st : Stream) (i : Nat) (a : Area) (p : Port) (s : State) : State :=
  refreshStream (s.onRs fun r => r.putStream st { r.stream st with join := some ⟨i, p, a.first, 0⟩ })

theorem joinStream_eq (st : Stream) (i : Nat) (a : Area) (p : Port) (s : State) : joinStream st i a p s =
    if st = .billing then billingGainsRoom (joinedEmpty st i a p s) else joinedEmpty st i a p s := rfl

theorem joinedEmpty_touches (st : Stream) (i : Nat) (a : Area) (p : Port) (s : State) :
    Touches [.rs, .ports] s (joinedEmpty st i a p s) :=
  ((onRs_touches s _).mono).step (refreshStream_touches _)

theorem joinedEmpty_stream (st : Stream) (i : Nat) (a : Area) (p : Port) (s : State) :
    (joinedEmpty st i a p s).rs.stream st = { s.rs.stream st with join := some ⟨i, p, a.first, 0⟩ } :=
  Store.stream_putStream_self _ _ _

theorem joinedEmpty_moved (st : Stream) (i : Nat) (a : Area) (p : Port) (s : State) :
    QueueMoved st a s.rs (joinedEmpty st i a p s).rs :=
  ⟨Store.putStream_areas _ _ _, fun _ hne => Store.stream_putStream_other _ hne _,
    fun hw => by simpa [joinedEmpty] using hw, fun n _ => congrArg (slotGet · n) (Store.putStream_slots _ _ _)⟩

theorem answerUnjoin_unjoined (hst : st.code = u8 b 0) (h : (s.rs.stream st).join = none) :
    answerUnjoin b s = planReply .notJoined [] s := by
  unfold answerUnjoin
  simp only [← hst, streamOf_code, h]

theorem answerUnjoin_joined (hst : st.code = u8 b 0) (hj : (s.rs.stream st).join = some j) :
    answerUnjoin b s = if st = .billing ∧ billingLocked s = true then planReply .locked [] s
      else if 0 < j.count ∧ flag b 1 = false then planReply .notEmpty [] s
      else planReply .ok (be 2 j.count) (unjoinStream st j s) := by
  unfold answerUnjoin
  simp only [← hst, streamOf_code, hj]

theorem billingLocked_iff (s : State) : billingLocked s = true ↔ s.sc.state.isOpen = true ∨ s.ct.held ≠ none := by
  rw [billingLocked, Bool.or_eq_true, Option.isSome_iff_ne_none]

/-- JOIN of a free stream to a free area: the empty queue, and on BILLING the records that waited. -/
structure JoinDone (st : Stream) (i : Nat) (a : Area) (p : Port) (s t : State) : Prop where
  areas : t.rs.areas = s.rs.areas
  others : ∀ st', st' ≠ st → t.rs.stream st' = s.rs.stream st'
  follows : StreamFollows t
  queue : ∃ n, t.rs.stream st = { s.rs.stream st with join := some ⟨i, p, a.first, n⟩ } ∧
    (st ≠ .billing ∨ (s.ct.held = none ∧ s.ct.finalRecord = none) → n = 0 ∧ Touches [.rs, .ports] s t) ∧
    (∀ r, st = .billing → s.ct.held = some r →
      recordAt ⟨i, p, a.first, n⟩ 0 t.rs = some (.billing r) ∧ t.ct.held = none ∧
        (s.ct.finalRecord = none → n = 1 ∧ Touches [.rs, .ct, .ports] s t) ∧
        ∀ f, s.ct.finalRecord = some f → n = 2 ∧ recordAt ⟨i, p, a.first, n⟩ 1 t.rs = some (.billing f) ∧
          t.ct.finalRecord = none ∧ t.sc.finalPending = false ∧ Fired .sessionClosed s t)

theorem heldRecords_of_some {r : BillingRecord} (h : s.ct.held = some r) : heldRecords s = [.billing r] := by
  simp [heldRecords, h]

theorem heldRecords_of_none (h : s.ct.held = none) : heldRecords s = [] := by simp [heldRecords, h]

theorem joinStream_done (ok : StoreOk s) {i : Nat} (ha : s.rs.defined i = some a) :
    JoinDone st i a p s (joinStream st i a p s) := by
  have hempty := joinedEmpty_moved st i a p s
  have hstream := joinedEmpty_stream st i a p s
  have hframe := joinedEmpty_touches st i a p s
  have hfol : StreamFollows (joinedEmpty st i a p s) := refreshStream_follows _
  have hsized := ok.sized i a ha
  rw [joinStream_eq]
  obtain ⟨u, hu⟩ : ∃ u, u = joinedEmpty st i a p s := ⟨_, rfl⟩
  rw [← hu] at hempty hstream hframe hfol ⊢
  by_cases hst : st = .billing
  case neg =>
    rw [if_neg hst]
    exact ⟨hempty.areas, hempty.others, hfol, 0, hstream, fun _ => ⟨rfl, hframe⟩, fun r h => absurd h hst⟩
  subst hst
  rw [if_pos rfl]
  have hju : u.rs.billing.join = some ⟨i, p, a.first, 0⟩ := congrArg StreamState.join hstream
  have hau : u.rs.area i = a := (Store.area_congr hempty.areas i).trans (Store.area_of_defined ha)
  have hct : u.ct = s.ct := hframe.ct_eq
  have hse : u.se = s.se := hframe.se_eq
  obtain ⟨new, hq, hfol', -, hunfinal, hfinal⟩ := billingGainsRoom_gained hfol hju hau hsized hsized.pos
  obtain ⟨t, ht⟩ : ∃ t, t = billingGainsRoom u := ⟨_, rfl⟩
  rw [← ht] at hq hfol' hunfinal hfinal ⊢
  have hheldu : heldRecords u = heldRecords s := by rw [heldRecords, hct]; rfl
  rw [hct, hheldu] at hunfinal
  have hlonger : (Join.mk i p a.first 0).longer new.length = ⟨i, p, a.first, new.length⟩ := by simp [Join.longer]
  have hqs := hq.stream
  rw [hlonger] at hqs
  refine ⟨hq.moved.areas.trans hempty.areas, fun x hx => (hq.moved.others x hx).trans (hempty.others x hx), hfol',
    new.length, ?_, fun h => ?_, fun r _ hr => ?_⟩
  · rw [hqs, hstream]
  · obtain ⟨hheld, hnone⟩ := h.resolve_left (by simp)
    obtain ⟨hnew, -, -, hsame⟩ := hunfinal hnone
    rw [hsame hheld, hnew, heldRecords_of_none hheld]
    exact ⟨rfl, hframe⟩
  · have hadded (k : Nat) (hk : k < new.length) : recordAt ⟨i, p, a.first, new.length⟩ k t.rs = new[k]? := by
      have h := hq.added k hk
      rwa [hlonger, Nat.zero_add] at h
    have hone : heldRecords s = [.billing r] := heldRecords_of_some hr
    cases hf : s.ct.finalRecord with
    | none =>
      obtain ⟨hnew, hct', hframe', -⟩ := hunfinal hf
      rw [hone] at hnew
      subst hnew
      refine ⟨hadded 0 Nat.one_pos, by rw [hct'], fun _ => ⟨rfl, (hframe.mono).step hframe'⟩, fun f hf' => ?_⟩
      cases hf'
    | some f =>
      obtain ⟨⟨htaken, hpending, -, hfired⟩, hroom, -⟩ := hfinal f (by rw [hct]; exact hf)
      rw [hheldu, hone] at hroom
      obtain ⟨hnew, hheld'⟩ := hroom (by have := hsized.1; simp only [List.length_cons, List.length_nil]; omega)
      subst hnew
      refine ⟨hadded 0 (by simp), hheld', fun hnone => (by cases hnone), fun f' hf' => ?_⟩
      obtain rfl : f = f' := Option.some.inj hf'
      refine ⟨rfl, hadded 1 (by simp), htaken, hpending, ?_⟩
      unfold Fired at hfired ⊢
      rwa [hse] at hfired

end

/-- Settles O46. -/
theorem streamsAreJoinedAndReleased : Obligations.StreamsAreJoinedAndReleased := by
  intro b s hs ok s0 follows gives
  have hrs : s0.rs = s.rs := found_rs .t s
  have hct : s0.ct = s.ct := found_ct .t s
  have hse : s0.se = s.se := found_se .t s
  have ok0 : StoreOk s0 := ok.touches (found_frame .t s)
  refine ⟨?_, ?_⟩
  · intro hb gives named used
    have hlen : lengthOk .joinStream b = true := beq_iff_eq.mpr hb
    have hrefused {x : Status} (h : answerJoin b s0 = planReply x [] s0) : gives x :=
      congrArg Host.Outcome.next (request_plan_refused hs hlen rfl h)
    have hused (st : Stream) (hst : st.code = u8 b 0) :
        (s0.rs.stream st).join.isSome = true ∨ s0.rs.joined (u8 b 1) = true ↔ used := by
      rw [hrs, Store.joined_iff, Option.isSome_iff_exists]
      constructor
      · rintro (⟨j, hj⟩ | ⟨st', j, hj, harea⟩)
        · exact ⟨st, j, hj, .inl hst⟩
        · exact ⟨st', j, hj, .inr harea⟩
      · rintro ⟨st', j, hj, hcode | harea⟩
        · obtain rfl := Stream.code_inj (hcode.trans hst.symm)
          exact .inl ⟨j, hj⟩
        · exact .inr ⟨st', j, hj, harea⟩
    refine ⟨fun h => hrefused (answerJoin_invalid ?_), fun ⟨h0, h1, h2, ha⟩ hu => ?_, fun st p a hst hp ha hu => ?_⟩
    · by_cases h0 : u8 b 0 ≤ 3
      · by_cases h2 : 1 ≤ u8 b 2 ∧ u8 b 2 ≤ 3
        · refine .inr (.inr ?_)
          rw [hrs]
          by_contra hdef
          exact h ⟨h0, h2.1, h2.2, hdef⟩
        · exact .inr (.inl (portOf_outside h2))
      · exact .inl (streamOf_high (Nat.not_le.mp h0))
    · obtain ⟨st, hst⟩ := Stream.exists_code h0
      obtain ⟨p, hp⟩ := portOf_inside ⟨h1, h2⟩
      obtain ⟨a, ha⟩ := Option.ne_none_iff_exists'.mp ha
      refine hrefused ?_
      rw [answerJoin_named hst hp (by rw [hrs]; exact ha)]
      by_cases hj : (s0.rs.stream st).join.isSome = true
      · rw [if_pos hj]
      · rw [if_neg hj, if_pos (((hused st hst).mpr hu).resolve_left hj)]
    · have hfree := mt (hused st hst).mp hu
      rw [not_or] at hfree
      have ha0 : s0.rs.defined (u8 b 1) = some a := by rw [hrs]; exact ha
      have hanswer : answerJoin b s0 = planReply .ok [] (joinStream st (u8 b 1) a p s0) := by
        rw [answerJoin_named hst hp ha0, if_neg hfree.1, if_neg hfree.2]
      obtain ⟨hareas, hothers, hfol, n, hstream, hplain, hheld⟩ := joinStream_done (st := st) (p := p) ok0 ha0
      have hdone := request_answered (p := .t) (k := .joinStream) hs hlen rfl hanswer
      rw [hrs] at hareas hothers hstream
      rw [hct] at hheld hplain
      refine ⟨joinStream st (u8 b 1) a p s0, congrArg Host.Outcome.next hdone, hareas, hothers, ?_, ?_, hfol,
        ⟨u8 b 1, p, a.first, n⟩, by rw [hstream], rfl, rfl, rfl, hplain, fun r hst hr => ?_⟩
      · rw [hstream]
      · rw [hstream]
      · obtain ⟨h0, h1, h2, h3⟩ := hheld r hst hr
        refine ⟨h0, h1, h2, fun f hf => ?_⟩
        obtain ⟨g0, g1, g2, g3, g4⟩ := h3 f hf
        refine ⟨g0, g1, g2, g3, ?_⟩
        unfold Fired at g4 ⊢
        rwa [hse] at g4
  · intro hb gives
    have hlen : lengthOk .unjoin b = true := beq_iff_eq.mpr hb
    have hrefused {x : Status} (h : answerUnjoin b s0 = planReply x [] s0) : gives x :=
      congrArg Host.Outcome.next (request_plan_refused hs hlen rfl h)
    refine ⟨fun h => hrefused ?_, fun st hst => ⟨fun hnone => hrefused ?_, ?_⟩⟩
    · unfold answerUnjoin
      rw [streamOf_high h]
    · exact answerUnjoin_unjoined hst (by rw [hrs]; exact hnone)
    intro j hj locked
    have hj0 : (s0.rs.stream st).join = some j := by rw [hrs]; exact hj
    have hlocked : st = .billing ∧ billingLocked s0 = true ↔ locked := by
      rw [billingLocked_iff, found_sc, found_ct]
    have hanswer := answerUnjoin_joined (b := b) hst hj0
    have hforce : flag b 1 = false ↔ u8 b 1 = 0 := by simp [flag]
    refine ⟨fun h => hrefused ?_, fun h hpos hflag => hrefused ?_, fun h hempty => ?_⟩
    · rw [hanswer, if_pos (hlocked.mpr h)]
    · rw [hanswer, if_neg (mt hlocked.mp h), if_pos ⟨hpos, hforce.mpr hflag⟩]
    · rw [if_neg (mt hlocked.mp h), if_neg (by rw [hforce]; omega)] at hanswer
      obtain ⟨a, hdef, ha, hsized, -⟩ := ok0.joined hj0
      have hframe := unjoinStream_touches st j s0
      have hmoved := unjoinStream_moved (s := s0) (st := st) ha hsized.pos
      have hdone := request_planned (p := .t) (k := .unjoin) hs hlen rfl hanswer (hframe.pc_eq.trans (found_pc .t s))
        (hframe.hc_eq.trans (found_hc .t s)) ((hframe .free (by simp)).trans (found_free .t s))
      have hothers := ok0.othersStay hj0 hdef hmoved
      have hstream := unjoinStream_stream st j s0
      have hareas := hmoved.areas
      rw [hrs] at hothers hstream hareas
      exact ⟨unjoinStream st j s0, congrArg Host.Outcome.next hdone, hstream, hareas,
        fun k hk => unjoinStream_freed ha hk, refreshStream_flag _, hothers, hframe⟩

end Sys2Proof.Machine

/-! PROOFS. STREAM_READ and STREAM_ACK (R157 to R160). -/

namespace Sys2Proof.Machine

set_option Elab.async false

section
variable {s : State} {st : Stream} {p : Port} {j : Join} {n : Nat} {act : Stream → Join → State → Answer}

/-! ## The conditions of R157 -/

theorem consume_high (h : 3 < n) : consume p n act s = refuse .invalid s := by
  unfold consume
  rw [streamOf_high h]

theorem consume_unjoined (h : (s.rs.stream st).join = none) : consume p st.code act s = notJoined p st s := by
  unfold consume
  simp only [streamOf_code, h]

theorem consume_joined (h : (s.rs.stream st).join = some j) :
    consume p st.code act s = if j.port = p then act st j s else ⟨s, .notConsumer, b1 (portCode j.port)⟩ := by
  unfold consume
  simp only [streamOf_code, h]

/-- The alarm of a stream that is not joined (R158). -/
def alarmed (p : Port) (st : Stream) (s : State) : State :=
  raiseAt p .alarm (s.onPort p fun u => { u with alarm := u.alarm.add st })

/-- The port unit once the alarm has been recorded. -/
def PortUnit.alarmed (st : Stream) (u : PortUnit) : PortUnit := PortUnit.raise .alarm { u with alarm := u.alarm.add st }

theorem alarmed_only (p : Port) (st : Stream) (s : State) : OnlyPort p ((s.ports.get p).alarmed st) s (alarmed p st s) :=
  (onPort_only (p := p) (s := s) fun u => { u with alarm := u.alarm.add st }).onPort _

/-- Taking a request leaves the other units, and the alarm set of its own. -/
theorem found_units (p : Port) (s : State) : (∀ q, q ≠ p → (found p s).ports.get q = s.ports.get q) ∧
    ((found p s).ports.get p).alarm = (s.ports.get p).alarm := by
  cases hr : (s.ports.get p).reply with
  | none =>
    obtain ⟨-, hother, hself⟩ := found_only_none hr
    exact ⟨hother, by rw [hself]; rfl⟩
  | some r =>
    obtain ⟨-, hother, hself⟩ := found_only_some (p := p) (s := s) (by rw [hr]; simp)
    exact ⟨hother, by rw [hself]; rfl⟩

theorem alarmed_flags (p : Port) (st : Stream) (s : State) :
    flagSet .alarm ((alarmed p st s).ports.get p).flags = true ∧ FlagsBut [.alarm] s (alarmed p st s) := by
  obtain ⟨-, hother, hself⟩ := alarmed_only p st s
  have hflag (n : Notice) : flagSet n ((alarmed p st s).ports.get p).flags =
      (flagSet n (s.ports.get p).flags || decide (n = .alarm)) := by
    rw [hself]
    exact flagSet_raise _ _ _
  refine ⟨by rw [hflag]; simp, fun q n hn => ?_⟩
  by_cases hq : q = p
  · subst hq
    rw [hflag, decide_eq_false (by simpa using hn), Bool.or_false]
  · rw [hother q hq]

/-! ## STREAM_ACK of a joined stream (R160) -/

/-- The state an acknowledgement leaves. -/
def acked (n : Nat) (st : Stream) (j : Join) (s : State) : State :=
  if st = .billing ∧ 0 < min n j.count then billingGainsRoom (takeOldest st j n s) else takeOldest st j n s

theorem ackStream_eq (n : Nat) (st : Stream) (j : Join) (s : State) :
    ackStream n st j s = ⟨acked n st j s, .ok, be 2 (min n j.count) ++ streamFigures st (acked n st j s)⟩ := rfl

/-- The queue once its `m` oldest records have gone. -/
def Join.shorter (j : Join) (a : Area) (m : Nat) : Join := { j with head := ringSlot a j.head m, count := j.count - m }

/-- An acknowledgement of `m` records: the others move up by `m`, and on BILLING the records that waited follow them. -/
structure AckDone (st : Stream) (a : Area) (j : Join) (m : Nat) (s t : State) (new : List Record) : Prop where
  moved : QueueMoved st a s.rs t.rs
  stream : t.rs.stream st = { s.rs.stream st with join := some ((j.shorter a m).longer new.length) }
  kept : ∀ k, k + m < j.count → recordAt ((j.shorter a m).longer new.length) k t.rs = recordAt j (k + m) s.rs
  added : ∀ k, k < new.length → recordAt ((j.shorter a m).longer new.length) (j.count - m + k) t.rs = new[k]?
  follows : StreamFollows t
  cfg : t.cfg = s.cfg
  plain : st ≠ .billing ∨ m = 0 ∨ (s.ct.held = none ∧ s.ct.finalRecord = none) →
    new = [] ∧ (∀ k, k < m → recordAt j k t.rs = none) ∧ Touches [.rs, .ports] s t
  unfinal : st = .billing → 0 < m → s.ct.finalRecord = none →
    new = heldRecords s ∧ t.ct = { s.ct with held := none } ∧ Touches [.rs, .ct, .ports] s t
  final : ∀ f, st = .billing → 0 < m → s.ct.finalRecord = some f →
    (t.ct.finalRecord = none ∧ t.sc.finalPending = false ∧ Raised .session t ∧ Fired .sessionClosed s t) ∧
      let n := j.count - m + (heldRecords s).length
      (n < a.count → new = heldRecords s ++ [.billing f] ∧ t.ct.held = none) ∧
        (a.count ≤ n → new = heldRecords s ∧ t.ct.held = some f ∧ Raised .billing t)

theorem Join.longer_zero (j : Join) : j.longer 0 = j := rfl

theorem acked_done (ok : StoreOk s) {a : Area} (hj : (s.rs.stream st).join = some j) (hdef : s.rs.defined j.area = some a)
    (n : Nat) : ∃ new, AckDone st a j (min n j.count) s (acked n st j s) new := by
  obtain ⟨a', hdef', ha, hsized, -, hcount⟩ := ok.joined hj
  obtain rfl : a = a' := Option.some.inj (hdef.symm.trans hdef')
  have hmoved := takeOldest_moved (s := s) (st := st) n ha hsized.pos
  have hstream := takeOldest_stream st j n s
  have hkept := takeOldest_recordAt (s := s) (st := st) n ha hcount
  have hfreed {k : Nat} (hk : k < min n j.count) := takeOldest_freed (s := s) (st := st) n ha hk
  have hframe := takeOldest_touches st j n s
  have hfol : StreamFollows (takeOldest st j n s) := refreshStream_follows _
  unfold acked
  rw [ha] at hstream hkept
  obtain ⟨u, hu⟩ : ∃ u, u = takeOldest st j n s := ⟨_, rfl⟩
  obtain ⟨m, hm⟩ : ∃ m, m = min n j.count := ⟨_, rfl⟩
  rw [← hu] at hmoved hframe hfol ⊢
  rw [← hu, ← hm] at hstream hkept
  rw [← hm]
  simp only [← hm, ← hu] at hfreed
  by_cases hgain : st = .billing ∧ 0 < m
  case neg =>
    rw [if_neg hgain]
    refine ⟨[], hmoved, hstream, fun k _ => hkept k, fun k hk => absurd hk (Nat.not_lt_zero k), hfol, hframe.cfg_eq,
      fun _ => ⟨rfl, fun k hk => hfreed hk, hframe⟩, fun h1 h2 => absurd ⟨h1, h2⟩ hgain, fun f h1 h2 => absurd ⟨h1, h2⟩ hgain⟩
  rw [if_pos hgain]
  obtain ⟨rfl, hpos⟩ := hgain
  have hju : u.rs.billing.join = some (j.shorter a m) := congrArg StreamState.join hstream
  have hau : u.rs.area (j.shorter a m).area = a := (Store.area_congr hmoved.areas _).trans ha
  have hct : u.ct = s.ct := hframe.ct_eq
  have hse : u.se = s.se := hframe.se_eq
  have hroom : (j.shorter a m).count < a.count := by show j.count - m < a.count; omega
  obtain ⟨new, hq, hfol', hcfg, hunfinal, hfinal⟩ := billingGainsRoom_gained hfol hju hau hsized hroom
  obtain ⟨t, ht⟩ : ∃ t, t = billingGainsRoom u := ⟨_, rfl⟩
  rw [← ht] at hq hfol' hcfg hunfinal hfinal ⊢
  have hheldu : heldRecords u = heldRecords s := by rw [heldRecords, hct]; rfl
  rw [hct, hheldu] at hunfinal
  refine ⟨new, hmoved.trans hq.moved, ?_, fun k hk => ?_, fun k hk => hq.added k hk, hfol', hcfg.trans hframe.cfg_eq,
    fun h => ?_, fun _ _ hnone => ?_, fun f _ _ hf => ?_⟩
  · rw [hq.stream, hstream]
  · exact (hq.kept k (by show k < j.count - m; omega)).trans (hkept k)
  · obtain ⟨hheld, hnone⟩ := (h.resolve_left (by simp)).resolve_left hpos.ne'
    obtain ⟨hnew, -, -, hsame⟩ := hunfinal hnone
    rw [hsame hheld, hnew, heldRecords_of_none hheld]
    exact ⟨rfl, fun k hk => hfreed hk, hframe⟩
  · obtain ⟨hnew, hct', hframe', -⟩ := hunfinal hnone
    exact ⟨hnew, hct', (hframe.mono).step hframe'⟩
  · obtain ⟨⟨htaken, hpending, hraised, hfired⟩, hrest⟩ := hfinal f (by rw [hct]; exact hf)
    rw [hheldu] at hrest
    refine ⟨⟨htaken, hpending, hraised, ?_⟩, hrest⟩
    unfold Fired at hfired ⊢
    rwa [hse] at hfired

theorem heldRecords_length (s : State) : (heldRecords s).length = if s.ct.held = none then 0 else 1 := by
  cases h : s.ct.held <;> simp [heldRecords, h]

end

/-- Settles O47. -/
theorem consumersReadAndAcknowledgeFromTheOldest : Obligations.ConsumersReadAndAcknowledgeFromTheOldest := by
  intro p b s hs ok s0 figures
  have hrs : s0.rs = s.rs := found_rs p s
  have hct : s0.ct = s.ct := found_ct p s
  have hse : s0.se = s.se := found_se p s
  have ok0 : StoreOk s0 := ok.touches (found_frame p s)
  have hfigures {t : State} (st : Stream) (hareas : t.rs.areas = s.rs.areas) (hcfg : t.cfg = s.cfg) :
      streamFigures st t = figures st (t.rs.stream st) := by
    unfold streamFigures
    dsimp only [figures]
    rw [hcfg]
    cases (t.rs.stream st).join with
    | none => rfl
    | some j => simp only [Store.area_congr hareas]
  have hplain (st : Stream) : streamFigures st s0 = figures st (s.rs.stream st) := by
    rw [hfigures st (by rw [hrs]) (found_cfg p s), hrs]
  have hread (k : Kind) (act : Stream → Join → State → Answer) (hlen : lengthOk k b = true) (hport : portOk k p = true) :
      (3 < u8 b 0 → request p k b (consume p (u8 b 0) act) s = replies p k .invalid [] s0) ∧
      ∀ st, st.code = u8 b 0 →
        ((s.rs.stream st).join = none → request p k b (consume p (u8 b 0) act) s =
          replies p k .notJoined (figures st (s.rs.stream st)) (alarmed p st s0)) ∧
        ∀ j, (s.rs.stream st).join = some j →
          (j.port ≠ p → request p k b (consume p (u8 b 0) act) s = replies p k .notConsumer (b1 (portCode j.port)) s0) ∧
          (j.port = p → consume p (u8 b 0) act s0 = act st j s0) := by
    refine ⟨fun h => request_of_answer_unchanged hs hlen hport (consume_high h), fun st hst => ⟨fun hnone => ?_,
      fun j hj => ⟨fun hne => ?_, fun heq => ?_⟩⟩⟩
    · have hanswer : consume p (u8 b 0) act s0 = ⟨alarmed p st s0, .notJoined, figures st (s.rs.stream st)⟩ := by
        rw [← hst, consume_unjoined (by rw [hrs]; exact hnone), ← hplain]
        rfl
      rw [request_answered hs hlen hport hanswer, (alarmed_only p st s0).reports]
    · refine request_of_answer_unchanged hs hlen hport ?_
      rw [← hst, consume_joined (by rw [hrs]; exact hj), if_neg hne]
    · rw [← hst, consume_joined (by rw [hrs]; exact hj), if_pos heq]
  refine ⟨fun k c hk => ?_, fun hb st j hst hj hp => ?_, fun hb st j hst hj hp => ?_⟩
  · obtain ⟨act, hc, hlen, hport⟩ : ∃ act, exec c s = .next (request p k b (consume p (u8 b 0) act) s) ∧
        lengthOk k b = true ∧ portOk k p = true := by
      obtain ⟨rfl, rfl, hb⟩ | ⟨rfl, rfl, hb⟩ := hk
      · exact ⟨_, rfl, beq_iff_eq.mpr hb, rfl⟩
      · exact ⟨_, rfl, beq_iff_eq.mpr hb, rfl⟩
    obtain ⟨hinvalid, hnamed⟩ := hread k act hlen hport
    rw [hc]
    refine ⟨fun h => congrArg Host.Outcome.next (hinvalid h), fun st hst => ⟨fun hnone => ?_, fun j hj hne =>
      congrArg Host.Outcome.next (((hnamed st hst).2 j hj).1 hne)⟩⟩
    obtain ⟨hframe, hother, hself⟩ := alarmed_only p st s0
    obtain ⟨hfound, halarm⟩ := found_units p s
    obtain ⟨hflag, hflags⟩ := alarmed_flags p st s0
    refine ⟨alarmed p st s0, congrArg Host.Outcome.next ((hnamed st hst).1 hnone), hflag, ?_, fun q hq => ?_, hflags, hframe⟩
    · rw [hself]
      show ((found p s).ports.get p).alarm.add st = _
      rw [halarm]
      cases st <;> rfl
    · rw [hother q hq, hfound q hq]
  · have hlen : lengthOk .streamRead b = true := beq_iff_eq.mpr hb
    have hact := (((hread .streamRead (readStream (u8 b 1)) hlen rfl).2 st hst).2 j hj).2 hp
    have hgives {x : Status} {body : List Byte} (h : readStream (u8 b 1) st j s0 = ⟨s0, x, body⟩) :
        exec (.streamRead p b) s = .next (replies p .streamRead x body s0) :=
      congrArg Host.Outcome.next (request_of_answer_unchanged hs hlen rfl (hact.trans h))
    refine ⟨fun hlt => ?_, fun hle => hgives ?_⟩
    · obtain ⟨r, hr⟩ := Option.isSome_iff_exists.mp (ok.filled st j _ hj hlt)
      refine ⟨r, hr, hgives ?_⟩
      unfold readStream
      rw [hrs, hr, ← hplain]
    · unfold readStream
      rw [recordAt_of_le _ hle, ← hplain]
  · intro m
    have hlen : lengthOk .streamAck b = true := beq_iff_eq.mpr hb
    have hact := (((hread .streamAck (ackStream (u16 b 1)) hlen rfl).2 st hst).2 j hj).2 hp
    obtain ⟨a, hdef, harea, -⟩ := ok.joined hj
    obtain ⟨new, done⟩ := acked_done ok0 (by rw [hrs]; exact hj) (by rw [hrs]; exact hdef) (u16 b 1)
    rw [ackStream_eq] at hact
    obtain ⟨t, ht⟩ : ∃ t, t = acked (u16 b 1) st j s0 := ⟨_, rfl⟩
    rw [← ht] at hact done
    have hdone := request_answered (p := p) (k := .streamAck) hs hlen rfl hact
    have hothers := ok0.othersStay (by rw [hrs]; exact hj) (by rw [hrs]; exact hdef) done.moved
    obtain ⟨hmoved, hstream, hkept, hadded, hfol, hcfg, hplainly, hunfinal, hfinal⟩ := done
    have hareas := hmoved.areas
    rw [hrs] at hareas hstream hkept hothers
    rw [hct] at hplainly hunfinal hfinal
    rw [hfigures st hareas (hcfg.trans (found_cfg p s))] at hdone
    have hheld0 : heldRecords s0 = heldRecords s := by rw [heldRecords, hct]; rfl
    rw [hheld0] at hunfinal hfinal
    have hfired {f : BillingRecord} (h1 : st = .billing) (h2 : 0 < m) (hf : s.ct.finalRecord = some f) :
        Fired .sessionClosed s t := by
      obtain ⟨⟨-, -, -, h⟩, -⟩ := hfinal f h1 h2 hf
      unfold Fired at h ⊢
      rwa [hse] at h
    refine ⟨t, (j.shorter a m).longer new.length, congrArg Host.Outcome.next hdone, by rw [hstream], rfl, rfl, hkept,
      by rw [hstream], by rw [hstream], hareas, hfol, hothers, fun h => ?_, fun r h1 h2 hr => ?_, ?_⟩
    · obtain ⟨hnew, hfreed, hframe⟩ := hplainly h
      rw [hnew]
      exact ⟨rfl, hfreed, hframe⟩
    · have hone : heldRecords s = [.billing r] := heldRecords_of_some hr
      have hfirst (h : new.head? = some (.billing r)) :
          recordAt ((j.shorter a m).longer new.length) (j.count - m) t.rs = some (.billing r) := by
        cases new with
        | nil => cases h
        | cons x xs => exact (hadded 0 (by simp)).trans h
      cases hf : s.ct.finalRecord with
      | none =>
        obtain ⟨hnew, hct', hframe⟩ := hunfinal h1 h2 hf
        rw [hone] at hnew
        refine ⟨by rw [hct']; rfl, hfirst (by rw [hnew]; rfl), by rw [hct']; exact hf, fun _ => ⟨?_, hframe⟩, fun hne =>
          absurd rfl hne⟩
        rw [hnew]
        rfl
      | some f =>
        obtain ⟨⟨htaken, hpending, -, -⟩, hroom, hfull⟩ := hfinal f h1 h2 hf
        rw [hone] at hroom hfull
        have hfinalFired := hfired h1 h2 hf
        refine ⟨?_, hfirst ?_, htaken, fun hnone => (by cases hnone), fun _ => ⟨hpending, hfinalFired⟩⟩
        all_goals rcases Nat.lt_or_ge (j.count - m + 1) a.count with hlt | hge
        · rw [(hroom hlt).2]
          rfl
        · rw [(hfull hge).2.1]
          simp
        · rw [(hroom hlt).1]
          rfl
        · rw [(hfull hge).1]
          rfl
    · intro f h1 h2 hf n
      obtain ⟨⟨htaken, hpending, hraised, -⟩, hroom, hfull⟩ := hfinal f h1 h2 hf
      have hn : n = j.count - m + (heldRecords s).length := by rw [heldRecords_length]
      rw [harea]
      refine ⟨htaken, hpending, hraised, hfired h1 h2 hf, fun hlt => ?_, fun hge => ?_⟩
      · obtain ⟨hnew, hheld⟩ := hroom (by rw [← hn]; exact hlt)
        have hrec := hadded (heldRecords s).length (by rw [hnew]; simp)
        rw [hnew, List.getElem?_append_right (Nat.le_refl _), Nat.sub_self] at hrec
        refine ⟨?_, ?_, hheld⟩
        · rw [hn, hnew]
          exact hrec
        · rw [hn, hnew]
          show j.count - m + (heldRecords s ++ [Record.billing f]).length = _
          rw [List.length_append]
          rfl
      · obtain ⟨hnew, hheld, hbilling⟩ := hfull (by rw [← hn]; exact hge)
        refine ⟨?_, hheld, hbilling⟩
        rw [hn, hnew]
        rfl

end Sys2Proof.Machine

/-! PROOFS. HEAT_REQUEST and HEATER_RESTORE (R60, R61, R75). -/

namespace Sys2Proof.Machine

set_option Elab.async false

/-! ## Switching leaves the rest of the heater (R63, R64) -/

/-- Of the heater only what a switch writes may differ: elements, blanking timer, diagnosis, idle timer and its wait. -/
structure Heater.Switched (h h' : Heater) : Prop where
  leg : h'.leg = h.leg
  connect : h'.connect = h.connect
  settle : h'.settle = h.settle
  mode : h'.mode = h.mode
  target : h'.target = h.target
  thermostat : h'.thermostat = h.thermostat
  sensor : h'.sensor = h.sensor
  localiseHold : h'.localiseHold = h.localiseHold

namespace Heater.Switched
variable {a b c : Heater}

theorem refl (h : Heater) : h.Switched h := ⟨rfl, rfl, rfl, rfl, rfl, rfl, rfl, rfl⟩

theorem trans (h : a.Switched b) (h' : b.Switched c) : a.Switched c :=
  ⟨h'.leg.trans h.leg, h'.connect.trans h.connect, h'.settle.trans h.settle,
    h'.mode.trans h.mode, h'.target.trans h.target, h'.thermostat.trans h.thermostat, h'.sensor.trans h.sensor,
    h'.localiseHold.trans h.localiseHold⟩

end Heater.Switched

theorem Heater.on_switched (k : ElemId) (f : Element → Element) (h : Heater) : h.Switched (h.on k f) := by
  cases k <;> exact ⟨rfl, rfl, rfl, rfl, rfl, rfl, rfl, rfl⟩

theorem Heater.turnOff_switched (l : ElemState) (k : ElemId) (h : Heater) : h.Switched (h.turnOff l k) := by
  unfold Heater.turnOff
  split
  · have hon := h.on_switched k fun e => { e with state := l, dwell := 0 }
    exact ⟨hon.leg, hon.connect, hon.settle, hon.mode, hon.target, hon.thermostat, hon.sensor,
      hon.localiseHold⟩
  · exact .refl h

theorem Heater.allOff_switched (h : Heater) : h.Switched h.allOff := (h.turnOff_switched _ _).trans (Heater.turnOff_switched _ _ _)

/-! ## The thermostat (R61) -/

section
variable {s : State} {r : TempReading} {h : Heater} {band : Nat}

theorem Heater.thermostatAfter_iff (band : Nat) (r : TempReading) (h : Heater) : h.thermostatAfter band r = true ↔
    h.mode = true ∧ r.mark ≠ .missing ∧ r.value < h.target ∧ (r.value < h.target - band ∨ h.thermostat = true) := by
  unfold Heater.thermostatAfter
  by_cases hmode : h.mode = true
  case neg => simp [hmode]
  by_cases hmark : r.mark = .missing
  case pos => simp [hmark]
  by_cases htarget : h.target ≤ r.value
  case pos => simp [hmark, htarget]
  by_cases hband : r.value < h.target - band <;> simp [hmode, hmark, htarget, hband, not_le.mp htarget]

theorem Heater.thermostatAfter_missing (h : Heater) (hr : r.mark = .missing) : h.thermostatAfter band r = false :=
  Bool.eq_false_iff.mpr fun hflag => ((h.thermostatAfter_iff band r).mp hflag).2.1 hr

/-- The heater once the thermostat has been evaluated. -/
def Heater.evaluated (band : Nat) (r : TempReading) (h : Heater) : Heater :=
  if r.mark = .missing then { h with thermostat := false, sensor := true }.allOff
  else { h with thermostat := h.thermostatAfter band r, sensor := false }

theorem evalThermostat_hc (r : TempReading) (s : State) : (evalThermostat r s).hc = s.hc.evaluated s.cfg.heatBand r := by
  unfold evalThermostat Heater.evaluated
  by_cases hr : r.mark = .missing
  · simp only [hr, if_true, s.hc.thermostatAfter_missing hr]
    split
    · rfl
    · exact (heaterEvent_touches _).hc_eq
  · simp only [hr, if_false]
    rfl

theorem evalThermostat_valued (hr : r.mark ≠ .missing) (s : State) :
    evalThermostat r s = { s with hc := s.hc.evaluated s.cfg.heatBand r } := by
  unfold evalThermostat Heater.evaluated
  simp only [if_neg hr]
  rfl

theorem evalThermostat_tells (r : TempReading) (s : State) :
    Tells [.heater, .capture] [.heaterEvent] s (evalThermostat r s) := by
  have hquiet (f : Heater → Heater) : Tells [.heater, .capture] [.heaterEvent] s (s.onHc f) :=
    Tells.of_touches (onHc_touches s f)
  unfold evalThermostat
  dsimp only
  split
  · split
    · exact hquiet _
    · exact (hquiet _).trans (heaterEvent_tells _)
  · exact hquiet _

/-- HEATER_SENSOR becoming set raises HEATER and fires HEATER_EVENT. -/
theorem evalThermostat_event (hr : r.mark = .missing) (hclear : s.hc.sensor = false) :
    Raised .heater (evalThermostat r s) ∧ Fired .heaterEvent s (evalThermostat r s) := by
  have heq : evalThermostat r s = heaterEvent (s.onHc fun h =>
      { h with thermostat := s.hc.thermostatAfter s.cfg.heatBand r, sensor := true }.allOff) := by
    unfold evalThermostat
    dsimp only
    rw [if_pos hr, if_neg (by rw [hclear]; exact Bool.false_ne_true)]
  rw [heq]
  exact ⟨heaterEvent_raised _, heaterEvent_fired (s.onHc _)⟩

theorem Heater.evaluated_missing (hr : r.mark = .missing) (h : Heater) : h.evaluated band r =
    { h with thermostat := false, sensor := true }.allOff := if_pos hr

theorem Heater.evaluated_valued (hr : r.mark ≠ .missing) (h : Heater) : h.evaluated band r =
    { h with thermostat := h.thermostatAfter band r, sensor := false } := if_neg hr

/-! ## HEAT_REQUEST (R60) -/

theorem storeHeat_same {mode : Bool} {target : Int} (h : s.hc.mode = mode ∧ s.hc.target = target) : storeHeat mode target s = s :=
  if_pos h

theorem storeHeat_set {mode : Bool} {target : Int} {x : SampleSet} (h : ¬ (s.hc.mode = mode ∧ s.hc.target = target))
    (hx : s.fe.latest = some x) :
    storeHeat mode target s = evalThermostat x.tPack (s.onHc fun h => { h with mode := mode, target := target }) := by
  have hx' : (s.onHc fun h => { h with mode := mode, target := target }).fe.latest = some x := hx
  unfold storeHeat
  rw [if_neg h]
  dsimp only
  rw [hx']

theorem storeHeat_unset {mode : Bool} {target : Int} (h : ¬ (s.hc.mode = mode ∧ s.hc.target = target))
    (hx : s.fe.latest = none) : storeHeat mode target s =
      { s with hc := { s.hc with mode := mode, target := target, thermostat := mode && s.hc.thermostat } } := by
  have hx' : (s.onHc fun h => { h with mode := mode, target := target }).fe.latest = none := hx
  unfold storeHeat
  rw [if_neg h]
  dsimp only
  rw [hx']
  rfl

/-! ## HEATER_RESTORE (R75) -/

theorem selectorOf_eq (n : Nat) : selectorOf n = ⟨n.testBit 0, n.testBit 1, n.testBit 2⟩ := by
  simp [selectorOf, Nat.testBit_eq_decide_div_mod_eq]

/-- The items a selector restores. -/
theorem Heater.restorable_eq (n : Nat) (h : Heater) : h.restorable (selectorOf n) =
    ⟨decide (n.testBit 0 = true ∧ h.e1.state = .disabled), decide (n.testBit 1 = true ∧ h.e2.state = .disabled),
      decide (n.testBit 2 = true ∧ h.leg = .isolated)⟩ := by
  rw [selectorOf_eq, Heater.restorable]
  simp only [Bool.decide_and, Bool.decide_eq_true]
  rfl

/-- A restore drives nothing: it acts on elements that are DISABLED and on an open leg. -/
theorem Heater.restoreItems_drives {x : RestoreSet} (h1 : x.e1 = true → h.e1.state = .disabled)
    (h2 : x.e2 = true → h.e2.state = .disabled) (hl : x.leg = true → h.leg = .isolated) :
    (h.restoreItems x).e1.isOn = h.e1.isOn ∧ (h.restoreItems x).e2.isOn = h.e2.isOn ∧
      (h.restoreItems x).hldClosed = h.hldClosed := by
  have hoff {e : Element} (he : e.state = .disabled) : e.restore.isOn = e.isOn := by
    unfold Element.restore Element.isOn
    rw [he]
    cases e.hot <;> rfl
  unfold Heater.restoreItems
  refine ⟨?_, ?_, ?_⟩
  · cases hx : x.e1
    · rfl
    · exact hoff (h1 hx)
  · cases hx : x.e2
    · rfl
    · exact hoff (h2 hx)
  · cases hx : x.leg
    · rfl
    · unfold Heater.hldClosed
      rw [hl hx]
      rfl

/-- The sum of a set of restored items. -/
theorem restoreSum (a b c : Prop) [Decidable a] [Decidable b] [Decidable c] : b1 (setSum [decide a, decide b, decide c]) =
    [BitVec.ofNat 8 ((if a then 1 else 0) + (if b then 2 else 0) + (if c then 4 else 0))] := by
  by_cases ha : a <;> by_cases hb : b <;> by_cases hc : c <;> simp only [ha, hb, hc, if_true, if_false] <;> decide

end

/-- Settles O27. -/
theorem heatRequestAndRestoreActAtOnce : Obligations.HeatRequestAndRestoreActAtOnce := by
  refine ⟨?_, ?_⟩
  · intro b s hs hb s0 mode target st
    have hlen : lengthOk .heatRequest b = true := beq_iff_eq.mpr hb
    have hhc : s0.hc = s.hc := found_hc .v s
    have hfe : s0.fe = s.fe := found_fe .v s
    have hcfg : s0.cfg = s.cfg := found_cfg .v s
    have hse : s0.se = s.se := found_se .v s
    have htaken (h : u8 b 0 ≤ 1) : answerHeat b s0 = ⟨storeHeat mode target s0, st, []⟩ := by
      unfold answerHeat
      rw [if_neg (by omega)]
      by_cases hclamp : target = s16 b 1
      · have hclamp' : clampInt (-300) 450 (s16 b 1) = s16 b 1 := hclamp
        simp [accept, st, mode, target, hclamp']
      · have hclamp' : clampInt (-300) 450 (s16 b 1) ≠ s16 b 1 := hclamp
        simp [accept, st, mode, target, hclamp']
    refine ⟨fun h => ?_, fun h hmode htarget => ?_, fun h hnew => ?_⟩
    · have hrefused : answerHeat b s0 = ⟨s0, .invalid, []⟩ := if_pos h
      exact congrArg Host.Outcome.next (request_of_answer_unchanged hs hlen rfl hrefused)
    · have hsame := htaken h
      rw [storeHeat_same ⟨by rw [hhc]; exact hmode, by rw [hhc]; exact htarget⟩] at hsame
      exact congrArg Host.Outcome.next (request_of_answer_unchanged hs hlen rfl hsame)
    · rw [← hhc] at hnew
      have hdone := request_answered (p := .v) (k := .heatRequest) hs hlen rfl (htaken h)
      rw [← hfe]
      refine ⟨storeHeat mode target s0, congrArg Host.Outcome.next hdone, ?_⟩
      rw [← hhc, ← hcfg]
      cases hx : s0.fe.latest with
      | none =>
        rw [storeHeat_unset hnew hx]
        exact ⟨rfl, rfl, fun _ => rfl, fun x hx' => (by cases hx'), fun x hx' => (by cases hx')⟩
      | some x =>
        rw [storeHeat_set hnew hx]
        obtain ⟨u, hu⟩ : ∃ u, u = s0.onHc fun h => { h with mode := mode, target := target } := ⟨_, rfl⟩
        have huhc : u.hc = { s0.hc with mode := mode, target := target } := by rw [hu]; rfl
        have hframe : Touches [.hc] s0 u := by rw [hu]; exact onHc_touches _ _
        have hhc' := evalThermostat_hc x.tPack u
        rw [← hu]
        by_cases hr : x.tPack.mark = .missing
        · rw [Heater.evaluated_missing hr] at hhc'
          have hoff := Heater.allOff_switched { u.hc with thermostat := false, sensor := true }
          rw [← hhc'] at hoff
          have hmode := hoff.mode
          have htarget := hoff.target
          rw [huhc] at hmode htarget
          refine ⟨hmode, htarget, fun hnone => (by cases hnone), fun y hy hval => ?_, fun y hy _ => ⟨hoff.thermostat, hoff.sensor,
            ?_, fun hclear => ?_, ?_, (hframe.mono).step (evalThermostat_touches _ u)⟩⟩
          · cases hy
            exact absurd hr hval
          · unfold heaterOff
            rw [hhc']
            exact ⟨Heater.allOff_e1 _, Heater.allOff_e2 _⟩
          · obtain ⟨hraised, hfired⟩ := evalThermostat_event (s := u) hr (by rw [huhc]; exact hclear)
            refine ⟨hraised, ?_⟩
            have huse : u.se = s.se := hframe.se_eq.trans hse
            unfold Fired at hfired ⊢
            rwa [huse] at hfired
          · intro p n hn
            rw [(evalThermostat_tells x.tPack u).flags p n hn, hframe.ports_eq]
        · have hval := evalThermostat_valued hr u
          rw [Heater.evaluated_valued hr] at hval hhc'
          refine ⟨by rw [hhc', huhc], by rw [hhc', huhc], fun hnone => (by cases hnone), fun y hy _ => ?_,
            fun y hy hmiss => ?_⟩
          · cases hy
            have hflag : u.hc.thermostatAfter u.cfg.heatBand x.tPack = decide (mode = true ∧ x.tPack.value < target ∧
                (x.tPack.value < target - s0.cfg.heatBand ∨ s0.hc.thermostat = true)) := by
              rw [Bool.eq_iff_iff, Heater.thermostatAfter_iff, decide_eq_true_eq, hu]
              exact ⟨fun ⟨h1, _, h3⟩ => ⟨h1, h3⟩, fun ⟨h1, h3⟩ => ⟨h1, hr, h3⟩⟩
            rw [hval, hflag, hu]
            rfl
          · cases hy
            exact absurd hmiss hr
  · intro b s hs hb s0 n r1 r2 rl restored
    have hlen : lengthOk .heaterRestore b = true := beq_iff_eq.mpr hb
    have hhc : s0.hc = s.hc := found_hc .v s
    have hrefused {x : Status} (h : answerRestore b s0 = ⟨s0, x, []⟩) :
        exec (.heaterRestore .v b) s = .next (replies .v .heaterRestore x [] s0) :=
      congrArg Host.Outcome.next (request_of_answer_unchanged hs hlen rfl h)
    have hset : s0.hc.restorable (selectorOf (u8 b 0)) = ⟨decide r1, decide r2, decide rl⟩ := by
      rw [hhc]
      exact Heater.restorable_eq _ _
    refine ⟨fun h => hrefused ?_, fun hpos hle hhold => hrefused ?_, fun hpos hle hhold h1 h2 hl => hrefused ?_,
      fun hpos hle hhold hany => ?_⟩
    · exact if_pos (h.imp id fun h => h)
    · unfold answerRestore
      rw [if_neg (by omega), hhc, if_pos hhold]
      rfl
    · unfold answerRestore
      dsimp only
      rw [if_neg (by omega), hset, hhc, if_neg (by rw [hhold]; exact Bool.false_ne_true), if_pos (by simp [h1, h2, hl])]
      rfl
    · have hanswer : answerRestore b s0 = ⟨heaterEvent (s0.onHc (Heater.restoreItems ⟨decide r1, decide r2, decide rl⟩)), .ok,
          [BitVec.ofNat 8 ((if r1 then 1 else 0) + (if r2 then 2 else 0) + (if rl then 4 else 0))]⟩ := by
        unfold answerRestore
        dsimp only
        rw [if_neg (by omega), hset, hhc, if_neg (by rw [hhold]; exact Bool.false_ne_true), if_neg ?_, restoreSum]
        simp only [RestoreSet.mk.injEq, decide_eq_false_iff_not]
        tauto
      obtain ⟨u, hu⟩ : ∃ u, u = s0.onHc (Heater.restoreItems ⟨decide r1, decide r2, decide rl⟩) := ⟨_, rfl⟩
      rw [← hu] at hanswer
      have huhc : u.hc = s.hc.restoreItems ⟨decide r1, decide r2, decide rl⟩ := by
        rw [hu]
        show s0.hc.restoreItems _ = _
        rw [hhc]
      have hframe : Touches [.hc] s0 u := by rw [hu]; exact onHc_touches _ _
      have hsignals := heaterEvent_touches u
      have hthc : (heaterEvent u).hc = s.hc.restoreItems ⟨decide r1, decide r2, decide rl⟩ := hsignals.hc_eq.trans huhc
      obtain ⟨hd1, hd2, hdl⟩ := Heater.restoreItems_drives (h := s.hc) (x := ⟨decide r1, decide r2, decide rl⟩)
        (fun h => (of_decide_eq_true h).2) (fun h => (of_decide_eq_true h).2) (fun h => (of_decide_eq_true h).2)
      have hreports : takeReports s0 (heaterEvent u) = heaterEvent u := by
        refine takeReports_undriven ?_ ?_
        · have hpc : (heaterEvent u).pc = s0.pc := hsignals.pc_eq.trans hframe.pc_eq
          unfold commandFell
          rw [hpc]
          exact decide_eq_false (by omega)
        · unfold driveOpened
          rw [hthc, hd1, hd2, hdl, hhc]
          simp
      have hdone := request_answered (p := .v) (k := .heaterRestore) hs hlen rfl hanswer
      rw [hreports] at hdone
      refine ⟨heaterEvent u, congrArg Host.Outcome.next hdone, ?_, heaterEvent_raised u, ?_, fun p m hm => ?_,
        (hframe.mono).step hsignals⟩
      · rw [hthc]
        simp only [Heater.restoreItems, decide_eq_true_eq]
        rfl
      · have hfired := heaterEvent_fired u
        have huse : u.se = s.se := hframe.se_eq.trans (found_se .v s)
        unfold Fired at hfired ⊢
        rwa [huse] at hfired
      · rw [(heaterEvent_tells u).flags p m hm, hframe.ports_eq]

end Sys2Proof.Machine

/-! PROOFS. The steps by which the heater controller takes a sample set, from the ratings to the connection (R62). -/

namespace Sys2Proof.Machine

set_option Elab.async false

/-! ## Relations between the elements before and after -/

/-- A relation holds of each element. -/
def Heater.All (R : Element → Element → Prop) (h h' : Heater) : Prop := ∀ k, R (h.get k) (h'.get k)

/-- The figures stay; a DISABLED element stays so, and HOT_LOCK is neither entered nor left but for DISABLED. -/
structure Element.Keeps (e e' : Element) : Prop where
  rated : e'.rated = e.rated
  current : e'.current = e.current
  hot : e'.hot = e.hot
  disabled : e.state = .disabled → e'.state = .disabled
  locked : e.state = .hotLock → e'.state = .hotLock ∨ e'.state = .disabled
  unlocked : e'.state = .hotLock → e.state = .hotLock

/-- The element may have left ON; else its dwell stays. -/
structure Element.Sinks (e e' : Element) : Prop where
  off : e'.isOn = true → e.isOn = true
  dwell : e'.isOn = e.isOn → e'.dwell = e.dwell

/-- The element has at most passed between ON and OFF. -/
structure Element.Turned (e e' : Element) : Prop where
  rated : e'.rated = e.rated
  current : e'.current = e.current
  hot : e'.hot = e.hot
  cause : e'.cause = e.cause
  state : e'.state = e.state ∨ ((e.state = .on ∨ e.state = .off) ∧ (e'.state = .on ∨ e'.state = .off))

section
variable {e e' e'' : Element}

theorem Element.isOn_iff (e : Element) : e.isOn = true ↔ e.state = .on := beq_iff_eq

theorem Element.isOn_false (e : Element) : e.isOn = false ↔ e.state ≠ .on := by rw [← Bool.not_eq_true, e.isOn_iff]

theorem Element.Keeps.refl (e : Element) : e.Keeps e := ⟨rfl, rfl, rfl, id, .inl, id⟩

theorem Element.Keeps.trans (h : e.Keeps e') (h' : e'.Keeps e'') : e.Keeps e'' :=
  ⟨h'.rated.trans h.rated, h'.current.trans h.current, h'.hot.trans h.hot, fun x => h'.disabled (h.disabled x),
    fun x => (h.locked x).elim h'.locked fun y => .inr (h'.disabled y), fun x => h.unlocked (h'.unlocked x)⟩

theorem Element.Sinks.refl (e : Element) : e.Sinks e := ⟨id, fun _ => rfl⟩

theorem Element.Sinks.trans (h : e.Sinks e') (h' : e'.Sinks e'') : e.Sinks e'' := by
  refine ⟨fun x => h.off (h'.off x), fun x => ?_⟩
  have hmid : e'.isOn = e.isOn := by
    cases he : e.isOn with
    | true => exact h'.off (x.trans he)
    | false => exact Bool.eq_false_iff.mpr fun hon => by rw [h.off hon] at he; cases he
  exact (h'.dwell (x.trans hmid.symm)).trans (h.dwell hmid)

theorem Element.Turned.refl (e : Element) : e.Turned e := ⟨rfl, rfl, rfl, rfl, .inl rfl⟩

theorem Element.Turned.trans (h : e.Turned e') (h' : e'.Turned e'') : e.Turned e'' := by
  refine ⟨h'.rated.trans h.rated, h'.current.trans h.current, h'.hot.trans h.hot, h'.cause.trans h.cause, ?_⟩
  rcases h.state with hs | ⟨hs, hs'⟩
  · rw [← hs]
    exact h'.state
  · rcases h'.state with ht | ⟨ht, ht'⟩
    · exact .inr ⟨hs, by rwa [ht]⟩
    · exact .inr ⟨hs, ht'⟩

theorem Element.Turned.keeps (h : e.Turned e') : e.Keeps e' := by
  refine ⟨h.rated, h.current, h.hot, fun x => ?_, fun x => ?_, fun x => ?_⟩
  all_goals rcases h.state with hs | ⟨hs, hs'⟩
  · exact hs.trans x
  · simp [x] at hs
  · exact .inl (hs.trans x)
  · simp [x] at hs
  · exact hs.symm.trans x
  · simp [x] at hs'

/-- A DISABLED element stays as it is. -/
theorem Element.Turned.disabled (h : e.Turned e') (x : e.state = .disabled) : e'.state = .disabled := h.keeps.disabled x

end

section
variable {R : Element → Element → Prop} {h h' h'' : Heater} {l : ElemState} {k : ElemId}

theorem Heater.All.trans (hR : ∀ {e e' e''}, R e e' → R e' e'' → R e e'') (a : h.All R h') (b : h'.All R h'') : h.All R h'' :=
  fun k => hR (a k) (b k)

theorem Heater.get_on_self (k : ElemId) (f : Element → Element) (h : Heater) : (h.on k f).get k = f (h.get k) := by
  cases k <;> rfl

theorem Heater.get_on_other {k k' : ElemId} (hk : k' ≠ k) (f : Element → Element) (h : Heater) : (h.on k f).get k' = h.get k' := by
  cases k <;> cases k'
  case e1.e1 | e2.e2 => exact absurd rfl hk
  all_goals rfl

theorem Heater.on_all {f : Element → Element} (hrefl : ∀ e, R e e) (hf : R (h.get k) (f (h.get k))) : h.All R (h.on k f) := by
  intro k'
  by_cases hk : k' = k
  · rw [hk, Heater.get_on_self]
    exact hf
  · rw [Heater.get_on_other hk]
    exact hrefl _

/-! ## A turn-off (R63) -/

/-- An element that is ON goes off, its dwell from 0. -/
theorem Heater.turnOff_get_on (hon : (h.get k).isOn = true) : (h.turnOff l k).get k = { h.get k with state := l, dwell := 0 } := by
  unfold Heater.turnOff
  rw [if_pos hon]
  cases k <;> rfl

theorem Heater.turnOff_get_other {k' : ElemId} (hk : k' ≠ k) : (h.turnOff l k).get k' = h.get k' := by
  unfold Heater.turnOff
  split
  · exact Heater.get_on_other hk (fun e => { e with state := l, dwell := 0 }) h
  · rfl

theorem Heater.turnOff_all (hrefl : ∀ e, R e e) (hoff : ∀ e : Element, e.isOn = true → R e { e with state := l, dwell := 0 }) :
    h.All R (h.turnOff l k) := by
  intro k'
  by_cases hk : k' = k
  · subst hk
    cases hon : (h.get k').isOn with
    | true =>
      rw [Heater.turnOff_get_on hon]
      exact hoff _ hon
    | false =>
      rw [Heater.turnOff_off hon]
      exact hrefl _
  · rw [Heater.turnOff_get_other hk]
    exact hrefl _

/-- A turn-off sets the blanking timer or leaves it. -/
theorem Heater.turnOff_blanking (l : ElemState) (k : ElemId) (h : Heater) :
    (h.turnOff l k).blanking = h.blanking ∨ (h.turnOff l k).blanking = some 300 := by
  unfold Heater.turnOff
  split
  · exact .inr rfl
  · exact .inl rfl

/-- A turn-off to OFF or DISABLED keeps the element's figures. -/
theorem Heater.turnOff_keeps (hl : l ≠ .hotLock) : h.All Element.Keeps (h.turnOff l k) := by
  refine Heater.turnOff_all Element.Keeps.refl fun e hon => ⟨rfl, rfl, rfl, fun x => ?_, fun x => ?_, fun x => absurd x hl⟩ <;>
    · rw [e.isOn_iff, x] at hon
      cases hon

theorem Heater.turnOff_sinks (hl : l ≠ .on) : h.All Element.Sinks (h.turnOff l k) := by
  refine Heater.turnOff_all Element.Sinks.refl fun e hon => ⟨fun _ => hon, fun x => ?_⟩
  rw [hon, Element.isOn_iff] at x
  exact absurd x hl

theorem Heater.turnOff_turned : h.All Element.Turned (h.turnOff .off k) :=
  Heater.turnOff_all Element.Turned.refl fun e hon => ⟨rfl, rfl, rfl, rfl, .inr ⟨.inl (e.isOn_iff.mp hon), .inr rfl⟩⟩

/-! ## What the steps after the set keep -/

/-- The relation of the steps that turn no element on. -/
structure Heater.Lowered (h h' : Heater) : Prop where
  keeps : h.All Element.Keeps h'
  sinks : h.All Element.Sinks h'

theorem Heater.Lowered.refl (h : Heater) : h.Lowered h := ⟨fun _ => .refl _, fun _ => .refl _⟩

theorem Heater.Lowered.trans (a : h.Lowered h') (b : h'.Lowered h'') : h.Lowered h'' :=
  ⟨a.keeps.trans Element.Keeps.trans b.keeps, a.sinks.trans Element.Sinks.trans b.sinks⟩

/-- A change outside the elements. -/
theorem Heater.Lowered.of_elements (h1 : h'.e1 = h.e1) (h2 : h'.e2 = h.e2) : h.Lowered h' := by
  refine ⟨fun k => ?_, fun k => ?_⟩
  all_goals have hk : h'.get k = h.get k := by cases k; exact h1; exact h2
  all_goals rw [hk]
  · exact .refl _
  · exact .refl _

theorem Heater.turnOff_lowered (hl : l ≠ .hotLock) (hl' : l ≠ .on) : h.Lowered (h.turnOff l k) :=
  ⟨Heater.turnOff_keeps hl, Heater.turnOff_sinks hl'⟩

theorem Heater.allOff_lowered (h : Heater) : h.Lowered h.allOff :=
  (Heater.turnOff_lowered (by simp) (by simp)).trans (Heater.turnOff_lowered (by simp) (by simp))

theorem Heater.openLeg_lowered (h : Heater) : h.Lowered h.openLeg := by
  unfold Heater.openLeg
  split
  · exact h.allOff_lowered.trans (.of_elements rfl rfl)
  · exact .refl h

theorem Heater.disable_lowered (c : ElemCause) (k : ElemId) (h : Heater) : h.Lowered (h.disable c k) := by
  have hon {g : Heater} (hg : (g.get k).isOn = false) :
      g.Lowered (g.on k fun e => { e with state := .disabled, cause := c }) := by
    refine ⟨Heater.on_all Element.Keeps.refl ⟨rfl, rfl, rfl, fun _ => rfl, fun _ => .inr rfl, fun x => (by cases x)⟩,
      Heater.on_all Element.Sinks.refl ⟨fun x => (by cases x), fun _ => rfl⟩⟩
  exact (Heater.turnOff_lowered (by simp) (by simp)).trans (hon (Heater.turnOff_self _ k h (by simp)))

theorem Heater.fit_lowered (a : Nat) (h : Heater) : h.Lowered (h.fit a) := by
  have hoff (k : ElemId) (g : Heater) : g.Lowered (g.turnOff .off k) := Heater.turnOff_lowered (by simp) (by simp)
  have hdrop (b : Bool) (k : ElemId) (g : Heater) : g.Lowered (if b then g else g.turnOff .off k) := by
    cases b
    · exact hoff k g
    · exact .refl g
  unfold Heater.fit
  split
  · exact .refl h
  · split
    · exact (hdrop _ .e1 h).trans (hdrop _ .e2 _)
    · exact h.allOff_lowered

theorem Heater.fit_switched (a : Nat) (h : Heater) : h.Switched (h.fit a) := by
  have hdrop (b : Bool) (k : ElemId) (g : Heater) : g.Switched (if b then g else g.turnOff .off k) := by
    cases b
    · exact g.turnOff_switched _ _
    · exact .refl g
  unfold Heater.fit
  split
  · exact .refl h
  · split
    · exact (hdrop _ .e1 h).trans (hdrop _ .e2 _)
    · exact h.allOff_switched

theorem Heater.fit_of_le {a : Nat} (hle : h.hOn ≤ a) : h.fit a = h := if_pos hle

/-! ## The current check (R69 to R71) -/

/-- The heater after the current check of a set. -/
def Heater.checked (vBus iHeat : Nat) (h : Heater) : Heater :=
  match h.check vBus iHeat with
  | .notRun => h
  | .high => h.overcurrent
  | .low =>
    if h.e1.isOn && h.e2.isOn then h.beginDiagnosis
    else if h.e1.isOn then { h.disable .openCircuit .e1 with diagnosis := false }
    else h.disable .openCircuit .e2
  | .pass => if h.diagnosis then { h.disable .openCircuit .e2 with diagnosis := false } else h

/-- The check disables an element, which is a heater event (R76). -/
def Heater.finds (vBus iHeat : Nat) (h : Heater) : Bool :=
  match h.check vBus iHeat with
  | .notRun => false
  | .high => true
  | .low => !(h.e1.isOn && h.e2.isOn)
  | .pass => h.diagnosis

theorem takeCheck_eq (v i : Nat) (s : State) : takeCheck v i s =
    if s.hc.finds v i then heaterEvent (s.onHc (Heater.checked v i)) else s.onHc (Heater.checked v i) := by
  have hon (f : Heater → Heater) (hf : f s.hc = s.hc.checked v i) : s.onHc f = s.onHc (Heater.checked v i) := by
    show { s with hc := f s.hc } = { s with hc := s.hc.checked v i }
    rw [hf]
  unfold takeCheck Heater.finds
  cases hc : s.hc.check v i with
  | notRun => exact hon id (by simp [Heater.checked, hc])
  | high => exact congrArg heaterEvent (hon _ (by simp [Heater.checked, hc]))
  | low =>
    by_cases hboth : (s.hc.e1.isOn && s.hc.e2.isOn) = true
    · simp only [hboth, if_true, Bool.not_true, Bool.false_eq_true, if_false]
      exact hon _ (by simp [Heater.checked, hc, hboth])
    · simp only [Bool.not_eq_true _ ▸ hboth, Bool.not_false, if_true, Bool.false_eq_true, if_false]
      by_cases h1 : s.hc.e1.isOn = true
      · simp only [h1, if_true]
        have h2 : s.hc.e2.isOn = false := by simpa [h1] using hboth
        exact congrArg heaterEvent (hon _ (by simp [Heater.checked, hc, h1, h2]))
      · simp only [h1]
        exact congrArg heaterEvent (hon _ (by simp [Heater.checked, hc, h1]))
  | pass =>
    by_cases hd : s.hc.diagnosis = true
    · simp only [hd, if_true]
      exact congrArg heaterEvent (hon _ (by simp [Heater.checked, hc, hd]))
    · simp only [hd]
      exact hon id (by simp [Heater.checked, hc, hd])

theorem Heater.overcurrent_lowered (h : Heater) : h.Lowered h.overcurrent :=
  (((h.allOff_lowered.trans (Heater.openLeg_lowered _)).trans (Heater.disable_lowered _ _ _)).trans
    (Heater.disable_lowered _ _ _)).trans (.of_elements rfl rfl)

theorem Heater.checked_lowered (v i : Nat) (h : Heater) : h.Lowered (h.checked v i) := by
  have hopen (k : ElemId) : h.Lowered { h.disable .openCircuit k with diagnosis := false } :=
    (h.disable_lowered _ k).trans (.of_elements rfl rfl)
  unfold Heater.checked
  cases h.check v i with
  | notRun => exact .refl h
  | high => exact h.overcurrent_lowered
  | low =>
    dsimp only
    split
    · exact (Heater.turnOff_lowered (by simp) (by simp)).trans (.of_elements rfl rfl)
    · split
      · exact hopen .e1
      · exact h.disable_lowered _ .e2
  | pass =>
    dsimp only
    split
    · exact hopen .e2
    · exact .refl h

theorem Heater.disable_switched (c : ElemCause) (k : ElemId) (h : Heater) : h.Switched (h.disable c k) :=
  (h.turnOff_switched _ _).trans (Heater.on_switched _ _ _)

theorem Heater.Switched.diagnosed (x : h.Switched h') (b : Bool) : h.Switched { h' with diagnosis := b } :=
  ⟨x.leg, x.connect, x.settle, x.mode, x.target, x.thermostat, x.sensor, x.localiseHold⟩

theorem Heater.disable_get (c : ElemCause) (k : ElemId) (h : Heater) :
    ((h.disable c k).get k).state = .disabled ∧ ((h.disable c k).get k).cause = c := by
  unfold Heater.disable
  rw [Heater.get_on_self]
  exact ⟨rfl, rfl⟩

theorem Heater.disable_get_other {c : ElemCause} {k k' : ElemId} (hk : k' ≠ k) : (h.disable c k).get k' = h.get k' := by
  unfold Heater.disable
  rw [Heater.get_on_other hk, Heater.turnOff_get_other hk]

theorem Heater.get_diagnosed (b : Bool) (k : ElemId) (h : Heater) : ({ h with diagnosis := b } : Heater).get k = h.get k := by
  cases k <;> rfl

/-- An overcurrent finding disables both elements and ends a diagnosis (R71). -/
theorem Heater.overcurrent_get (h : Heater) (k : ElemId) :
    (h.overcurrent.get k).state = .disabled ∧ (h.overcurrent.get k).cause = .overcurrent := by
  cases k with
  | e1 =>
    unfold Heater.overcurrent
    rw [Heater.get_diagnosed, Heater.disable_get_other (by decide)]
    exact Heater.disable_get _ _ _
  | e2 =>
    unfold Heater.overcurrent
    rw [Heater.get_diagnosed]
    exact Heater.disable_get _ _ _

/-- Elements that are off are disabled without a switch. -/
theorem Heater.disable_off {c : ElemCause} (hoff : (h.get k).isOn = false) :
    h.disable c k = h.on k fun e => { e with state := .disabled, cause := c } := by
  unfold Heater.disable
  rw [Heater.turnOff_off hoff]

theorem Heater.on_idle (k : ElemId) (f : Element → Element) (h : Heater) : (h.on k f).idle = h.idle := by cases k <;> rfl

theorem Heater.disable_idle {c : ElemCause} (hoff : (h.get k).isOn = false) : (h.disable c k).idle = h.idle := by
  rw [Heater.disable_off hoff, Heater.on_idle]

/-- An overcurrent finding opens a closed leg. -/
theorem Heater.overcurrent_closed (hleg : h.leg = .connecting ∨ h.leg = .connected) :
    h.overcurrent.leg = .disconnected ∧ h.overcurrent.connect = none ∧ h.overcurrent.settle = some 200 ∧
      h.overcurrent.idle = none := by
  have hopen : h.allOff.openLeg = { h.allOff.allOff with
      leg := .disconnected, settle := some 200, connect := none, idle := none, idleDeferred := false } := by
    unfold Heater.openLeg
    rw [if_pos]
    rw [Heater.hldClosed, Heater.allOff_leg, Bool.or_eq_true, beq_iff_eq, beq_iff_eq]
    exact hleg
  have hoff (k : ElemId) : (h.allOff.openLeg.get k).isOn = false := by
    have hsink := (h.allOff.openLeg_lowered.sinks k).off
    have hall : (h.allOff.get k).isOn = false := by
      cases k
      · exact h.allOff_e1
      · exact h.allOff_e2
    exact Bool.eq_false_iff.mpr fun hon => by rw [hsink hon] at hall; cases hall
  obtain ⟨g, hg⟩ : ∃ g, g = h.allOff.openLeg := ⟨_, rfl⟩
  have hover : h.overcurrent = { (g.disable .overcurrent .e1).disable .overcurrent .e2 with diagnosis := false } := by
    rw [hg]
    rfl
  rw [← hg] at hopen hoff
  have h2 : ((g.disable .overcurrent .e1).get .e2).isOn = false := by
    rw [Heater.disable_get_other (by decide)]
    exact hoff .e2
  have hsw := ((g.disable_switched .overcurrent .e1).trans (Heater.disable_switched .overcurrent .e2 _)).diagnosed false
  have hidle : ((g.disable .overcurrent .e1).disable .overcurrent .e2).idle = g.idle :=
    (Heater.disable_idle h2).trans (Heater.disable_idle (hoff .e1))
  rw [← hover] at hsw
  refine ⟨by rw [hsw.leg, hopen], by rw [hsw.connect, hopen], by rw [hsw.settle, hopen], ?_⟩
  rw [hover]
  exact hidle.trans (by rw [hopen])

theorem Heater.overcurrent_open (hleg : h.leg ≠ .connecting ∧ h.leg ≠ .connected) : h.Switched h.overcurrent := by
  have hopen : h.allOff.openLeg = h.allOff := Heater.openLeg_open (by rw [Heater.allOff_leg]; exact hleg)
  unfold Heater.overcurrent
  rw [hopen]
  exact (((h.allOff_switched.trans (Heater.disable_switched _ _ _)).trans (Heater.disable_switched _ _ _)).diagnosed false)

/-- The thermostat, the request and the localise hold are no business of the check. -/
structure Heater.Requested (h h' : Heater) : Prop where
  mode : h'.mode = h.mode
  target : h'.target = h.target
  thermostat : h'.thermostat = h.thermostat
  sensor : h'.sensor = h.sensor
  localiseHold : h'.localiseHold = h.localiseHold

theorem Heater.Switched.requested (x : h.Switched h') : h.Requested h' :=
  ⟨x.mode, x.target, x.thermostat, x.sensor, x.localiseHold⟩

theorem Heater.Requested.trans (a : h.Requested h') (b : h'.Requested h'') : h.Requested h'' :=
  ⟨b.mode.trans a.mode, b.target.trans a.target, b.thermostat.trans a.thermostat, b.sensor.trans a.sensor,
    b.localiseHold.trans a.localiseHold⟩

theorem Heater.openLeg_requested (h : Heater) : h.Requested h.openLeg := by
  have hoff := h.allOff_switched.requested
  unfold Heater.openLeg
  split
  · exact ⟨hoff.mode, hoff.target, hoff.thermostat, hoff.sensor, hoff.localiseHold⟩
  · exact ⟨rfl, rfl, rfl, rfl, rfl⟩

theorem Heater.overcurrent_requested (h : Heater) : h.Requested h.overcurrent :=
  ((h.allOff_switched.requested.trans (Heater.openLeg_requested _)).trans
    (((Heater.disable_switched _ _ _).trans (Heater.disable_switched _ _ _)).diagnosed false).requested)

/-- Apart from an overcurrent finding the check only switches elements. -/
theorem Heater.checked_switched {v i : Nat} (hc : h.check v i ≠ .high) : h.Switched (h.checked v i) := by
  unfold Heater.checked
  cases hx : h.check v i with
  | notRun => exact .refl h
  | high => exact absurd hx hc
  | low =>
    dsimp only
    split
    · exact (h.turnOff_switched _ _).diagnosed _
    · split
      · exact (h.disable_switched _ _).diagnosed _
      · exact h.disable_switched _ _
  | pass =>
    dsimp only
    split
    · exact (h.disable_switched _ _).diagnosed _
    · exact .refl h

theorem Heater.checked_high {v i : Nat} (hc : h.check v i = .high) : h.checked v i = h.overcurrent := by
  simp [Heater.checked, hc]

theorem Heater.checked_requested (v i : Nat) (h : Heater) : h.Requested (h.checked v i) := by
  by_cases hc : h.check v i = .high
  · rw [Heater.checked_high hc]
    exact h.overcurrent_requested
  · exact (Heater.checked_switched hc).requested

end

end Sys2Proof.Machine

/-! PROOFS. The heater's readings, its selection and its connection; the heater leg (R58, R62 to R68). -/

namespace Sys2Proof.Machine

set_option Elab.async false

section
variable {R : Element → Element → Prop} {h h' : Heater} {l : ElemState} {k : ElemId} {r : TempReading} {e : Element}

/-! ## Hot conditions (R58) -/

theorem hotAfter_iff (r : TempReading) (old : Bool) : hotAfter r old = true ↔
    r.mark = .missing ∨ 1200 ≤ r.value ∨ (1100 ≤ r.value ∧ old = true) := by
  unfold hotAfter
  by_cases hm : r.mark = .missing
  case pos => simp [hm]
  by_cases hh : 1200 ≤ r.value
  case pos => simp [hm, hh]
  by_cases hc : r.value < 1100
  · simp only [hm, hh, hc, if_true, if_false, Bool.false_eq_true, false_or, false_iff, not_and]
    omega
  · simp [hm, hh, hc, not_lt.mp hc]

/-- The element once its reading has been taken. -/
def Element.tempTaken (r : TempReading) (e : Element) : Element :=
  { e with
    hot := hotAfter r e.hot
    state :=
      if hotAfter r e.hot then if e.state = .disabled then .disabled else .hotLock
      else if e.state = .hotLock then .off else e.state
    dwell := if hotAfter r e.hot = true ∧ e.state = .on then 0 else e.dwell }

/-- Out of the hot condition a reading drives no switch. -/
theorem Heater.takeTemp_cool (hcool : hotAfter r (h.get k).hot = false) : h.takeTemp r k = h.on k (Element.tempTaken r) := by
  have hself : (h.on k fun e => { e with hot := hotAfter r (h.get k).hot }).get k =
      { h.get k with hot := hotAfter r (h.get k).hot } := Heater.get_on_self _ _ _
  unfold Heater.takeTemp
  dsimp only
  rw [hself, hcool]
  cases k <;> cases hs : (h.get _).state <;>
    simp only [Heater.get] at hcool hs ⊢ <;> simp [Heater.on, Element.tempTaken, hcool, hs]

theorem Heater.takeTemp_get_self (r : TempReading) (k : ElemId) (h : Heater) :
    (h.takeTemp r k).get k = (h.get k).tempTaken r := by
  cases hhot : hotAfter r (h.get k).hot with
  | false => rw [Heater.takeTemp_cool hhot, Heater.get_on_self]
  | true =>
    have hself : (h.on k fun e => { e with hot := true }).get k = { h.get k with hot := true } := Heater.get_on_self _ _ _
    unfold Heater.takeTemp Element.tempTaken
    dsimp only
    rw [hhot, hself]
    cases hs : (h.get k).state with
    | on =>
      dsimp only
      rw [if_pos rfl, Heater.turnOff_get_on (by rw [hself]; exact (Element.isOn_iff _).mpr hs), hself]
      simp
    | off =>
      dsimp only
      rw [if_pos rfl, Heater.get_on_self, hself]
      simp
    | hotLock | disabled =>
      dsimp only
      rw [if_pos rfl, hself]
      simp [hs]

theorem Heater.takeTemp_get_other {k' : ElemId} (hk : k' ≠ k) : (h.takeTemp r k).get k' = h.get k' := by
  have hon (f : Element → Element) (g : Heater) : (g.on k f).get k' = g.get k' := Heater.get_on_other hk f g
  unfold Heater.takeTemp
  dsimp only
  split
  · split
    · rw [hon, hon]
    · rw [Heater.turnOff_get_other hk, hon]
    · rw [hon]
    · rw [hon]
  · split
    · rw [hon, hon]
    all_goals rw [hon]

theorem Heater.takeTemp_switched (r : TempReading) (k : ElemId) (h : Heater) : h.Switched (h.takeTemp r k) := by
  have hon (f : Element → Element) (g : Heater) : g.Switched (g.on k f) := g.on_switched k f
  unfold Heater.takeTemp
  dsimp only
  split
  · split
    · exact (hon _ h).trans (hon _ _)
    · exact (hon _ h).trans (Heater.turnOff_switched _ _ _)
    · exact hon _ h
    · exact hon _ h
  · split
    · exact (hon _ h).trans (hon _ _)
    all_goals exact hon _ h

/-- A running blanking timer still runs. -/
theorem Heater.takeTemp_blanking (hb : h.blanking.isSome = true) : (h.takeTemp r k).blanking.isSome = true := by
  have hon (f : Element → Element) (g : Heater) : (g.on k f).blanking = g.blanking := by cases k <;> rfl
  unfold Heater.takeTemp
  dsimp only
  split
  · split
    · rwa [hon, hon]
    · rcases Heater.turnOff_blanking .hotLock k (h.on k fun e => { e with hot := hotAfter r (h.get k).hot }) with hx | hx
      · rwa [hx, hon]
      · rw [hx]
        rfl
    · rwa [hon]
    · rwa [hon]
  · split
    · rwa [hon, hon]
    all_goals rwa [hon]

theorem Element.tempTaken_sinks (r : TempReading) (e : Element) : e.Sinks (e.tempTaken r) := by
  unfold Element.tempTaken
  refine ⟨fun x => ?_, fun x => ?_⟩
  · rw [Element.isOn_iff] at x ⊢
    cases hh : hotAfter r e.hot <;> cases hs : e.state <;> simp [hh, hs] at x ⊢
  · refine if_neg fun ⟨hh, hs⟩ => ?_
    rw [e.isOn_iff.mpr hs, Element.isOn_iff] at x
    simp [hh, hs] at x

theorem Element.tempTaken_locked (hh : (e.tempTaken r).hot = true) :
    (e.tempTaken r).state = .hotLock ∨ (e.tempTaken r).state = .disabled := by
  have hh' : hotAfter r e.hot = true := hh
  by_cases hs : e.state = .disabled <;> simp [Element.tempTaken, hh', hs]

theorem Element.tempTaken_unlocked (hh : (e.tempTaken r).hot = false) : (e.tempTaken r).state ≠ .hotLock := by
  have hh' : hotAfter r e.hot = false := hh
  by_cases hs : e.state = .hotLock <;> simp [Element.tempTaken, hh', hs]

theorem Element.tempTaken_disabled (r : TempReading) (hs : e.state = .disabled) : (e.tempTaken r).state = .disabled := by
  simp [Element.tempTaken, hs]

/-- Out of the hot condition an element not in HOT_LOCK keeps its state and its dwell. -/
theorem Element.tempTaken_cool (hh : (e.tempTaken r).hot = false) (hs : e.state ≠ .hotLock) :
    (e.tempTaken r).state = e.state ∧ (e.tempTaken r).dwell = e.dwell := by
  have hh' : hotAfter r e.hot = false := hh
  simp [Element.tempTaken, hh', hs]

/-! ## Ratings and hot conditions of a set (R56, R58) -/

theorem Heater.takeSet_e1 (i : Items) (x : SampleSet) (h : Heater) :
    (h.takeSet i x).e1 = (h.e1.rate x.vBus i.resE1).tempTaken x.tEl1 := by
  unfold Heater.takeSet
  exact (Heater.takeTemp_get_other (k := .e2) (k' := .e1) (by decide)).trans (Heater.takeTemp_get_self _ .e1 _)

theorem Heater.takeSet_e2 (i : Items) (x : SampleSet) (h : Heater) :
    (h.takeSet i x).e2 = (h.e2.rate x.vBus i.resE2).tempTaken x.tEl2 := by
  unfold Heater.takeSet
  refine (Heater.takeTemp_get_self _ .e2 _).trans (congrArg _ ?_)
  exact Heater.takeTemp_get_other (k := .e1) (k' := .e2) (by decide)

theorem Heater.takeSet_switched (i : Items) (x : SampleSet) (h : Heater) : h.Switched (h.takeSet i x) := by
  have hrated : h.Switched { h with e1 := h.e1.rate x.vBus i.resE1, e2 := h.e2.rate x.vBus i.resE2 } :=
    ⟨rfl, rfl, rfl, rfl, rfl, rfl, rfl, rfl⟩
  exact (hrated.trans (Heater.takeTemp_switched _ _ _)).trans (Heater.takeTemp_switched _ _ _)

theorem Heater.takeSet_sinks (i : Items) (x : SampleSet) (h : Heater) : h.All Element.Sinks (h.takeSet i x) := by
  have hrate (v n : Nat) (e : Element) : e.Sinks (e.rate v n) := ⟨id, fun _ => rfl⟩
  intro k
  cases k with
  | e1 =>
    show h.e1.Sinks (h.takeSet i x).e1
    rw [Heater.takeSet_e1]
    exact (hrate _ _ _).trans (Element.tempTaken_sinks _ _)
  | e2 =>
    show h.e2.Sinks (h.takeSet i x).e2
    rw [Heater.takeSet_e2]
    exact (hrate _ _ _).trans (Element.tempTaken_sinks _ _)

/-! ## The thermostat (R61) -/

theorem Heater.evaluated_lowered (band : Nat) (r : TempReading) (h : Heater) : h.Lowered (h.evaluated band r) := by
  unfold Heater.evaluated
  split
  · have hflags : h.Lowered { h with thermostat := false, sensor := true } := .of_elements rfl rfl
    exact hflags.trans (Heater.allOff_lowered _)
  · exact .of_elements rfl rfl

/-- The thermostat reads no element: leg, its timers, request and localise hold stay. -/
theorem Heater.evaluated_leg (band : Nat) (r : TempReading) (h : Heater) : (h.evaluated band r).leg = h.leg ∧
    (h.evaluated band r).connect = h.connect ∧ (h.evaluated band r).settle = h.settle ∧
    (h.evaluated band r).mode = h.mode ∧ (h.evaluated band r).target = h.target ∧
    (h.evaluated band r).localiseHold = h.localiseHold := by
  unfold Heater.evaluated
  split
  · have hoff := Heater.allOff_switched { h with thermostat := false, sensor := true }
    exact ⟨hoff.leg, hoff.connect, hoff.settle, hoff.mode, hoff.target, hoff.localiseHold⟩
  · exact ⟨rfl, rfl, rfl, rfl, rfl, rfl⟩

theorem Heater.evaluated_flags (band : Nat) (r : TempReading) (h : Heater) :
    ((h.evaluated band r).thermostat = true ↔ h.thermostatAfter band r = true) ∧
      ((h.evaluated band r).sensor = true ↔ r.mark = .missing) := by
  unfold Heater.evaluated
  by_cases hr : r.mark = .missing
  · have hoff := Heater.allOff_switched { h with thermostat := false, sensor := true }
    rw [if_pos hr, hoff.thermostat, hoff.sensor, h.thermostatAfter_missing hr]
    exact ⟨Iff.rfl, iff_of_true rfl hr⟩
  · rw [if_neg hr]
    exact ⟨Iff.rfl, iff_of_false Bool.false_ne_true hr⟩

/-! ## The selection applied (R63, R64) -/

section
variable {a : Nat} {bars : TurnOnBars} {x : Selection}

theorem Heater.dropUnselected_turned (x : Selection) (k : ElemId) (h : Heater) :
    h.All Element.Turned (h.dropUnselected x k) := by
  unfold Heater.dropUnselected
  split
  · exact Heater.turnOff_turned
  · exact fun _ => .refl _

theorem Heater.dropUnselected_lowered (x : Selection) (k : ElemId) (h : Heater) : h.Lowered (h.dropUnselected x k) := by
  unfold Heater.dropUnselected
  split
  · exact Heater.turnOff_lowered (by simp) (by simp)
  · exact .refl h

theorem Heater.dropUnselected_switched (x : Selection) (k : ElemId) (h : Heater) : h.Switched (h.dropUnselected x k) := by
  unfold Heater.dropUnselected
  split
  · exact h.turnOff_switched _ _
  · exact .refl h

theorem Heater.dropUnselected_other {k' : ElemId} (hk : k' ≠ k) : (h.dropUnselected x k).get k' = h.get k' := by
  unfold Heater.dropUnselected
  split
  · exact Heater.turnOff_get_other hk
  · rfl

theorem Heater.dropUnselected_off (hoff : (h.get k).isOn = false) : h.dropUnselected x k = h := by
  unfold Heater.dropUnselected
  rw [Heater.turnOff_off hoff, ite_self]

theorem Heater.dropUnselected_kept (hkept : x.has k = true ∨ (h.get k).dwell < 1000) : h.dropUnselected x k = h := by
  unfold Heater.dropUnselected
  refine if_neg ?_
  rw [Bool.and_eq_true, Bool.not_eq_true', decide_eq_true_eq]
  rintro ⟨hx, hd⟩
  rcases hkept with hkept | hkept
  · rw [hkept] at hx
    cases hx
  · omega

theorem Heater.dropUnselected_drops (hx : x.has k = false) (hd : 1000 ≤ (h.get k).dwell) :
    ((h.dropUnselected x k).get k).isOn = false := by
  unfold Heater.dropUnselected
  rw [if_pos (by simp [hx, hd])]
  exact Heater.turnOff_self _ k h (by simp)

/-- All that R64 asks for a turn-on. -/
structure Heater.TurnsOn (a : Nat) (bars : TurnOnBars) (x : Selection) (k : ElemId) (h : Heater) : Prop where
  selected : x.has k = true
  off : (h.get k).state = .off
  leg : h.leg = .connected
  dwell : 1000 ≤ (h.get k).dwell
  phase : bars.phase = false
  hold : h.localiseHold = false
  lockedOut : bars.lockedOut = false
  room : h.hOn + (h.get k).rated ≤ a

theorem Heater.takeSelected_on (on : h.TurnsOn a bars x k) : h.takeSelected a bars x k = h.turnOn k := by
  unfold Heater.takeSelected
  refine if_pos ?_
  simp [on.selected, on.off, on.leg, on.dwell, on.phase, on.hold, on.lockedOut, on.room]

theorem Heater.takeSelected_off (off : ¬ h.TurnsOn a bars x k) : h.takeSelected a bars x k = h := by
  unfold Heater.takeSelected
  refine if_neg fun hx => off ?_
  simp only [Bool.and_eq_true, beq_iff_eq, decide_eq_true_eq, Bool.not_eq_true'] at hx
  obtain ⟨⟨⟨⟨⟨⟨⟨h1, h2⟩, h3⟩, h4⟩, h5⟩, h6⟩, h7⟩, h8⟩ := hx
  exact ⟨h1, h2, h3, h4, h5, h6, h7, h8⟩

theorem Heater.turnOn_get_self (k : ElemId) (h : Heater) : (h.turnOn k).get k = { h.get k with state := .on, dwell := 0 } := by
  cases k <;> rfl

theorem Heater.turnOn_get_other {k' : ElemId} (hk : k' ≠ k) : (h.turnOn k).get k' = h.get k' := by
  cases k <;> cases k'
  case e1.e1 | e2.e2 => exact absurd rfl hk
  all_goals rfl

theorem Heater.turnOn_switched (k : ElemId) (h : Heater) : h.Switched (h.turnOn k) := by
  cases k <;> exact ⟨rfl, rfl, rfl, rfl, rfl, rfl, rfl, rfl⟩

theorem Heater.takeSelected_other {k' : ElemId} (hk : k' ≠ k) : (h.takeSelected a bars x k).get k' = h.get k' := by
  by_cases on : h.TurnsOn a bars x k
  · rw [Heater.takeSelected_on on, Heater.turnOn_get_other hk]
  · rw [Heater.takeSelected_off on]

theorem Heater.takeSelected_switched (a : Nat) (bars : TurnOnBars) (x : Selection) (k : ElemId) (h : Heater) :
    h.Switched (h.takeSelected a bars x k) := by
  by_cases on : h.TurnsOn a bars x k
  · rw [Heater.takeSelected_on on]
    exact h.turnOn_switched k
  · rw [Heater.takeSelected_off on]
    exact .refl h

theorem Heater.takeSelected_turned (a : Nat) (bars : TurnOnBars) (x : Selection) (k : ElemId) (h : Heater) :
    h.All Element.Turned (h.takeSelected a bars x k) := by
  intro k'
  by_cases hk : k' = k
  · subst hk
    by_cases on : h.TurnsOn a bars x k'
    · rw [Heater.takeSelected_on on, Heater.turnOn_get_self]
      exact ⟨rfl, rfl, rfl, rfl, .inr ⟨.inr on.off, .inl rfl⟩⟩
    · rw [Heater.takeSelected_off on]
      exact .refl _
  · rw [Heater.takeSelected_other hk]
    exact .refl _

/-- A turn-on sets the timers, and no later step of the selection sets them otherwise. -/
theorem Heater.takeSelected_timers (hb : h.blanking = some 300) (hi : h.idle = none) :
    (h.takeSelected a bars x k).blanking = some 300 ∧ (h.takeSelected a bars x k).idle = none := by
  by_cases on : h.TurnsOn a bars x k
  · rw [Heater.takeSelected_on on]
    exact ⟨rfl, rfl⟩
  · rw [Heater.takeSelected_off on]
    exact ⟨hb, hi⟩

theorem Heater.turnOn_hOn (hoff : (h.get k).isOn = false) : (h.turnOn k).hOn = h.hOn + (h.get k).rated := by
  cases k
  · have h1 : h.e1.isOn = false := hoff
    have hon : (h.turnOn .e1).e1.isOn = true := rfl
    show (if (h.turnOn .e1).e1.isOn then h.e1.rated else 0) + (if h.e2.isOn then h.e2.rated else 0) = _
    rw [hon, Heater.hOn, h1, if_pos rfl]
    simp only [Bool.false_eq_true, if_false, Nat.zero_add, Heater.get]
    exact Nat.add_comm _ _
  · have h2 : h.e2.isOn = false := hoff
    have hon : (h.turnOn .e2).e2.isOn = true := rfl
    show (if h.e1.isOn then h.e1.rated else 0) + (if (h.turnOn .e2).e2.isOn then h.e2.rated else 0) = _
    rw [hon, Heater.hOn, h2, if_pos rfl]
    simp only [Bool.false_eq_true, if_false, Nat.add_zero, Heater.get]

theorem Heater.takeSelected_hOn (hle : h.hOn ≤ a) : (h.takeSelected a bars x k).hOn ≤ a := by
  by_cases on : h.TurnsOn a bars x k
  · rw [Heater.takeSelected_on on, Heater.turnOn_hOn ((Element.isOn_false _).mpr (by rw [on.off]; simp))]
    exact on.room
  · rw [Heater.takeSelected_off on]
    exact hle

theorem Heater.Lowered.hOn_le (low : h.Lowered h') : h'.hOn ≤ h.hOn := by
  have hpart (k : ElemId) : (if (h'.get k).isOn then (h'.get k).rated else 0) ≤
      (if (h.get k).isOn then (h.get k).rated else 0) := by
    cases hon : (h'.get k).isOn with
    | false => simp
    | true =>
      rw [(low.sinks k).off hon, (low.keeps k).rated]
  exact Nat.add_le_add (hpart .e1) (hpart .e2)

/-- The heater before the turn-ons of a selection. -/
def Heater.dropped (a : Nat) (h : Heater) : Heater :=
  (h.dropUnselected (h.selection a) .e1).dropUnselected (h.selection a) .e2

theorem Heater.applySelection_eq (a : Nat) (bars : TurnOnBars) (h : Heater) : h.applySelection a bars =
    ((h.dropped a).takeSelected a bars (h.selection a) .e1).takeSelected a bars (h.selection a) .e2 := rfl

theorem Heater.dropped_lowered (a : Nat) (h : Heater) : h.Lowered (h.dropped a) :=
  (h.dropUnselected_lowered _ _).trans (Heater.dropUnselected_lowered _ _ _)

theorem Heater.dropped_switched (a : Nat) (h : Heater) : h.Switched (h.dropped a) :=
  (h.dropUnselected_switched _ _).trans (Heater.dropUnselected_switched _ _ _)

theorem Heater.dropped_turned (a : Nat) (h : Heater) : h.All Element.Turned (h.dropped a) :=
  Heater.All.trans Element.Turned.trans (h.dropUnselected_turned _ _) (Heater.dropUnselected_turned _ _ _)

theorem Heater.applySelection_turned (a : Nat) (bars : TurnOnBars) (h : Heater) :
    h.All Element.Turned (h.applySelection a bars) := by
  have hfirst : h.All Element.Turned ((h.dropped a).takeSelected a bars (h.selection a) .e1) :=
    Heater.All.trans Element.Turned.trans (h.dropped_turned a) (Heater.takeSelected_turned _ _ _ _ _)
  exact Heater.All.trans Element.Turned.trans hfirst (Heater.takeSelected_turned _ _ _ _ _)

theorem Heater.applySelection_switched (a : Nat) (bars : TurnOnBars) (h : Heater) : h.Switched (h.applySelection a bars) :=
  ((h.dropped_switched a).trans (Heater.takeSelected_switched _ _ _ _ _)).trans (Heater.takeSelected_switched _ _ _ _ _)

/-- The selection applied stays within the allowance (R64). -/
theorem Heater.applySelection_hOn (hle : h.hOn ≤ a) : (h.applySelection a bars).hOn ≤ a := by
  rw [Heater.applySelection_eq]
  exact Heater.takeSelected_hOn (Heater.takeSelected_hOn ((h.dropped_lowered a).hOn_le.trans hle))

theorem Heater.selection_idle (hflag : h.thermostat = false) : h.selection a = ⟨false, false⟩ := by
  unfold Heater.selection
  rw [hflag]
  rfl

theorem Selection.has_none (k : ElemId) : (⟨false, false⟩ : Selection).has k = false := by cases k <;> rfl

/-- Without demand nothing comes on. -/
theorem Heater.applySelection_idle (hflag : h.thermostat = false) : h.applySelection a bars = h.dropped a := by
  have hnone (k : ElemId) (g : Heater) : ¬ g.TurnsOn a bars ⟨false, false⟩ k := fun on => by
    have hsel := on.selected
    rw [Selection.has_none] at hsel
    cases hsel
  rw [Heater.applySelection_eq, Heater.selection_idle hflag, Heater.takeSelected_off (hnone _ _),
    Heater.takeSelected_off (hnone _ _)]

/-- Without demand an element whose ON dwell is complete goes off. -/
theorem Heater.dropped_idle (hflag : h.thermostat = false) (hd : 1000 ≤ (h.get k).dwell) : ((h.dropped a).get k).isOn = false := by
  unfold Heater.dropped
  rw [Heater.selection_idle hflag]
  cases k with
  | e1 =>
    rw [Heater.dropUnselected_other (by decide)]
    exact Heater.dropUnselected_drops rfl hd
  | e2 =>
    refine Heater.dropUnselected_drops rfl ?_
    rw [Heater.dropUnselected_other (by decide)]
    exact hd

/-- What a turn-on shows: it had been free to come on, and its timers have restarted (R64). -/
structure Heater.CameOn (bars : TurnOnBars) (k : ElemId) (h h' : Heater) : Prop where
  leg : h.leg = .connected
  dwell : 1000 ≤ (h.get k).dwell
  phase : bars.phase = false
  hold : h.localiseHold = false
  lockedOut : bars.lockedOut = false
  thermostat : h.thermostat = true
  restarted : (h'.get k).dwell = 0
  blanking : h'.blanking = some 300
  idle : h'.idle = none

theorem Heater.applySelection_cameOn (hoff : (h.get k).isOn = false) (hon : ((h.applySelection a bars).get k).isOn = true) :
    h.CameOn bars k (h.applySelection a bars) := by
  have hthermo : h.thermostat = true := by
    cases hflag : h.thermostat with
    | true => rfl
    | false =>
      rw [Heater.applySelection_idle hflag] at hon
      rw [((h.dropped_lowered a).sinks k).off hon] at hoff
      cases hoff
  have hdropped : ((h.dropped a).get k).isOn = false := Bool.eq_false_iff.mpr fun hx => by
    rw [((h.dropped_lowered a).sinks k).off hx] at hoff
    cases hoff
  have hdwell : ((h.dropped a).get k).dwell = (h.get k).dwell := ((h.dropped_lowered a).sinks k).dwell (hdropped.trans hoff.symm)
  have hsw := h.dropped_switched a
  rw [Heater.applySelection_eq] at hon ⊢
  obtain ⟨x, hx⟩ : ∃ x, x = h.selection a := ⟨_, rfl⟩
  obtain ⟨g, hg⟩ : ∃ g, g = h.dropped a := ⟨_, rfl⟩
  rw [← hx, ← hg] at hon ⊢
  rw [← hg] at hdropped hdwell hsw
  cases k with
  | e1 =>
    by_cases on : g.TurnsOn a bars x .e1
    · rw [Heater.takeSelected_on on]
      obtain ⟨hb, hi⟩ := Heater.takeSelected_timers (h := g.turnOn .e1) (a := a) (bars := bars) (x := x) (k := .e2) rfl rfl
      refine ⟨hsw.leg ▸ on.leg, hdwell ▸ on.dwell, on.phase, hsw.localiseHold ▸ on.hold, on.lockedOut, hthermo, ?_, hb, hi⟩
      rw [Heater.takeSelected_other (by decide)]
      rfl
    · rw [Heater.takeSelected_off on, Heater.takeSelected_other (by decide), hdropped] at hon
      cases hon
  | e2 =>
    have hother : (g.takeSelected a bars x .e1).get .e2 = g.get .e2 := Heater.takeSelected_other (by decide)
    have hsw1 := hsw.trans (g.takeSelected_switched a bars x .e1)
    by_cases on : (g.takeSelected a bars x .e1).TurnsOn a bars x .e2
    · rw [Heater.takeSelected_on on]
      have hd := on.dwell
      rw [hother, hdwell] at hd
      exact ⟨hsw1.leg ▸ on.leg, hd, on.phase, hsw1.localiseHold ▸ on.hold, on.lockedOut, hthermo, rfl, rfl, rfl⟩
    · rw [Heater.takeSelected_off on, hother, hdropped] at hon
      cases hon

/-- An element inside its ON dwell stays on (R63). -/
theorem Heater.applySelection_stays (hon : (h.get k).isOn = true) (hd : (h.get k).dwell < 1000) :
    (h.applySelection a bars).get k = h.get k := by
  have hdrop {g : Heater} {k' : ElemId} {x : Selection} (hd : (g.get k).dwell < 1000) :
      (g.dropUnselected x k').get k = g.get k := by
    by_cases hk : k = k'
    · rw [← hk, Heater.dropUnselected_kept (.inr hd)]
    · exact Heater.dropUnselected_other hk
  have htake {g : Heater} {k' : ElemId} {x : Selection} (hon : (g.get k).isOn = true) :
      (g.takeSelected a bars x k').get k = g.get k := by
    by_cases hk : k = k'
    · subst hk
      rw [Heater.takeSelected_off fun on => ?_]
      rw [Element.isOn_iff, on.off] at hon
      cases hon
    · exact Heater.takeSelected_other hk
  have h1 := hdrop (g := h) (k' := .e1) (x := h.selection a) hd
  have h2 := hdrop (g := h.dropUnselected (h.selection a) .e1) (k' := .e2) (x := h.selection a) (by rw [h1]; exact hd)
  have hdropped : (h.dropped a).get k = h.get k := h2.trans h1
  have h3 := htake (g := h.dropped a) (k' := .e1) (x := h.selection a) (by rw [hdropped]; exact hon)
  rw [Heater.applySelection_eq, htake (by rw [h3, hdropped]; exact hon), h3, hdropped]

end

/-! ## The connection (R66) -/

theorem Heater.startConnection_elements (bars : TurnOnBars) (h : Heater) : (h.startConnection bars).e1 = h.e1 ∧
    (h.startConnection bars).e2 = h.e2 ∧ (h.startConnection bars).blanking = h.blanking ∧
    (h.startConnection bars).idle = h.idle ∧ (h.startConnection bars).diagnosis = h.diagnosis ∧
    (h.startConnection bars).settle = h.settle := by
  unfold Heater.startConnection
  split <;> exact ⟨rfl, rfl, rfl, rfl, rfl, rfl⟩

theorem Heater.startConnection_requested (bars : TurnOnBars) (h : Heater) : h.Requested (h.startConnection bars) := by
  unfold Heater.startConnection
  split <;> exact ⟨rfl, rfl, rfl, rfl, rfl⟩

theorem Heater.startConnection_get (bars : TurnOnBars) (k : ElemId) (h : Heater) : (h.startConnection bars).get k = h.get k := by
  obtain ⟨h1, h2, -⟩ := h.startConnection_elements bars
  cases k
  · exact h1
  · exact h2

theorem Heater.startConnection_starts {bars : TurnOnBars} (hleg : h.leg = .disconnected) (hon : h.thermostat = true)
    (hsettle : h.settle = none) (hphase : bars.phase = false) (hhold : h.localiseHold = false) (hfree : bars.lockedOut = false) :
    h.startConnection bars = { h with leg := .connecting, connect := some 200 } := by
  unfold Heater.startConnection
  simp [hleg, hon, hsettle, hphase, hhold, hfree]

theorem Heater.startConnection_rests {bars : TurnOnBars} (hno : ¬ (h.leg = .disconnected ∧ h.thermostat = true ∧
    h.settle = none ∧ bars.phase = false ∧ h.localiseHold = false ∧ bars.lockedOut = false)) : h.startConnection bars = h := by
  unfold Heater.startConnection
  refine if_neg fun hx => hno ?_
  simp only [Bool.and_eq_true, beq_iff_eq, Bool.not_eq_true', Option.isNone_iff_eq_none] at hx
  obtain ⟨⟨⟨⟨⟨h1, h2⟩, h3⟩, h4⟩, h5⟩, h6⟩ := hx
  exact ⟨h2, h1, h3, h4, h5, h6⟩

end

/-! ## The taking of a set (R62) -/

section
variable {s : State} {x : SampleSet}

/-- The heater when the current check of the set is due. -/
def hcFitted (x : SampleSet) (s : State) : Heater :=
  ((s.hc.takeSet s.cfg x).evaluated s.cfg.heatBand x.tPack).fit s.pc.aH

/-- The heater when the selection is due. -/
def hcChecked (x : SampleSet) (s : State) : Heater := (hcFitted x s).checked x.vBus x.iHeat

/-- The state when the current check of the set is due. -/
def hcReady (x : SampleSet) (s : State) : State :=
  let u := evalThermostat x.tPack (s.onHc (Heater.takeSet s.cfg x))
  u.onHc (Heater.fit u.pc.aH)

theorem hcTake_eq (x : SampleSet) (s : State) : hcTake x s =
    (takeCheck x.vBus x.iHeat (hcReady x s)).onHc fun h =>
      (h.applySelection (takeCheck x.vBus x.iHeat (hcReady x s)).pc.aH (barsNow (takeCheck x.vBus x.iHeat (hcReady x s)))).startConnection
        (barsNow (takeCheck x.vBus x.iHeat (hcReady x s))) := rfl

theorem hcReady_touches (x : SampleSet) (s : State) : Touches (.hc :: signals) s (hcReady x s) :=
  (((onHc_touches s _).mono).step (evalThermostat_touches _ _)).step (onHc_touches _ _)

theorem hcReady_hc (x : SampleSet) (s : State) : (hcReady x s).hc = hcFitted x s := by
  have hpc : (evalThermostat x.tPack (s.onHc (Heater.takeSet s.cfg x))).pc = s.pc :=
    (evalThermostat_touches x.tPack (s.onHc (Heater.takeSet s.cfg x))).pc_eq
  show ((evalThermostat x.tPack (s.onHc (Heater.takeSet s.cfg x))).hc).fit
    (evalThermostat x.tPack (s.onHc (Heater.takeSet s.cfg x))).pc.aH = _
  rw [hpc, evalThermostat_hc]
  rfl

theorem takeCheck_hc (v i : Nat) (s : State) : (takeCheck v i s).hc = s.hc.checked v i := by
  rw [takeCheck_eq]
  split
  · exact (heaterEvent_touches _).hc_eq
  · rfl

theorem hcTake_touches (x : SampleSet) (s : State) : Touches (.hc :: signals) s (hcTake x s) :=
  ((hcReady_touches x s).trans (takeCheck_touches _ _ _)).step (onHc_touches _ _)

theorem hcTake_hc (x : SampleSet) (s : State) : (hcTake x s).hc =
    ((hcChecked x s).applySelection s.pc.aH (barsNow s)).startConnection (barsNow s) := by
  have hframe := (hcReady_touches x s).trans (takeCheck_touches x.vBus x.iHeat (hcReady x s))
  have hbars : barsNow (takeCheck x.vBus x.iHeat (hcReady x s)) = barsNow s := by
    unfold barsNow
    rw [hframe.im_eq, hframe.sc_eq]
  rw [hcTake_eq]
  show ((takeCheck x.vBus x.iHeat (hcReady x s)).hc.applySelection _ _).startConnection _ = _
  rw [hbars, hframe.pc_eq, takeCheck_hc, hcReady_hc]
  rfl

theorem exec_hcSampleTaking (hs : s.resetLow = false) (hx : s.fe.latest = some x) (hdue : s.fe.dueHc = true) :
    exec .hcSampleTaking s = .next (takeReports s (hcTake x (s.onFe FrontEnd.hcTook))) := by
  show Host.Outcome.next (taking s.fe.dueHc _ s) = _
  rw [hdue, taking_due hs hx]

/-! ## The leg at a taking (R66, R71) -/

theorem hcFitted_leg (x : SampleSet) (s : State) : (hcFitted x s).leg = s.hc.leg ∧ (hcFitted x s).connect = s.hc.connect ∧
    (hcFitted x s).settle = s.hc.settle ∧ (hcFitted x s).mode = s.hc.mode ∧ (hcFitted x s).target = s.hc.target ∧
    (hcFitted x s).localiseHold = s.hc.localiseHold := by
  have hset := s.hc.takeSet_switched s.cfg x
  obtain ⟨h1, h2, h3, h4, h5, h6⟩ := (s.hc.takeSet s.cfg x).evaluated_leg s.cfg.heatBand x.tPack
  have hfit := ((s.hc.takeSet s.cfg x).evaluated s.cfg.heatBand x.tPack).fit_switched s.pc.aH
  exact ⟨hfit.leg.trans (h1.trans hset.leg), hfit.connect.trans (h2.trans hset.connect),
    hfit.settle.trans (h3.trans hset.settle), hfit.mode.trans (h4.trans hset.mode),
    hfit.target.trans (h5.trans hset.target), hfit.localiseHold.trans (h6.trans hset.localiseHold)⟩

theorem hcChecked_requested (x : SampleSet) (s : State) : (hcFitted x s).Requested (hcChecked x s) :=
  Heater.checked_requested _ _ _

end

end Sys2Proof.Machine

/-! PROOFS. The heater leg: its connection, its timers and the deferred disconnect (R59, R66 to R68). -/

namespace Sys2Proof.Machine

set_option Elab.async false

section
variable {s : State} {x : SampleSet} {h : Heater}

/-! ## The leg at a taking (R66, R71) -/

theorem Heater.applySelection_disabled {a : Nat} {bars : TurnOnBars} (hd : ∀ k, (h.get k).state = .disabled) :
    h.applySelection a bars = h := by
  have hoff (k : ElemId) : (h.get k).isOn = false := (Element.isOn_false _).mpr (by rw [hd k]; simp)
  have hno (k : ElemId) (x : Selection) : ¬ h.TurnsOn a bars x k := fun on => by
    have hstate := on.off
    rw [hd k] at hstate
    cases hstate
  have hdropped : h.dropped a = h := by rw [Heater.dropped, Heater.dropUnselected_off (hoff _), Heater.dropUnselected_off (hoff _)]
  rw [Heater.applySelection_eq, hdropped, Heater.takeSelected_off (hno _ _), Heater.takeSelected_off (hno _ _)]

/-- An overcurrent finding has opened the leg and disabled the elements. -/
structure Heater.Tripped (h : Heater) : Prop where
  leg : h.leg = .disconnected
  connect : h.connect = none
  settle : h.settle = some 200
  idle : h.idle = none
  disabled : ∀ k, (h.get k).state = .disabled ∧ (h.get k).cause = .overcurrent

/-- The check opens the leg by an overcurrent finding alone. -/
theorem hcChecked_leg (x : SampleSet) (s : State) : (hcFitted x s).Switched (hcChecked x s) ∨
    ((s.hc.leg = .connecting ∨ s.hc.leg = .connected) ∧ (hcChecked x s).Tripped) := by
  unfold hcChecked
  by_cases hc : (hcFitted x s).check x.vBus x.iHeat = .high
  case neg => exact .inl (Heater.checked_switched hc)
  rw [Heater.checked_high hc]
  have hleg := (hcFitted_leg x s).1
  by_cases hclosed : s.hc.leg = .connecting ∨ s.hc.leg = .connected
  · obtain ⟨h1, h2, h3, h4⟩ := Heater.overcurrent_closed (h := hcFitted x s) (by rw [hleg]; exact hclosed)
    exact .inr ⟨hclosed, h1, h2, h3, h4, Heater.overcurrent_get _⟩
  · rw [not_or, ← hleg] at hclosed
    exact .inl (Heater.overcurrent_open hclosed)

/-- Without an overcurrent finding the leg, its timers and the localise hold reach the connection as they were. -/
theorem hcSelected_leg {a : Nat} {bars : TurnOnBars} (hsw : (hcFitted x s).Switched (hcChecked x s)) :
    ((hcChecked x s).applySelection a bars).leg = s.hc.leg ∧ ((hcChecked x s).applySelection a bars).connect = s.hc.connect ∧
      ((hcChecked x s).applySelection a bars).settle = s.hc.settle ∧
      ((hcChecked x s).applySelection a bars).localiseHold = s.hc.localiseHold := by
  have hall := hsw.trans (Heater.applySelection_switched a bars _)
  obtain ⟨h1, h2, h3, -, -, h6⟩ := hcFitted_leg x s
  exact ⟨hall.leg.trans h1, hall.connect.trans h2, hall.settle.trans h3, hall.localiseHold.trans h6⟩

/-- A leg other than a disconnected one is left by the connection as it is. -/
theorem Heater.startConnection_other {bars : TurnOnBars} (hleg : h.leg ≠ .disconnected ∨ h.settle ≠ none) :
    h.startConnection bars = h :=
  Heater.startConnection_rests fun ⟨h1, _, h3, _⟩ => hleg.elim (fun hl => hl h1) fun hs => hs h3

/-! ## The timers of the leg -/

theorem idleLeft_none (hn : s.hc.idle = none ∨ s.cfg.heatIdleS = 0 ∨ s.hc.idleDeferred = true) : idleLeft s = none := by
  unfold idleLeft
  rcases hn with hn | hn
  · rw [hn]
    exact ite_self _
  · exact if_pos hn

theorem idleLeft_some {i : Nat} (hi : s.hc.idle = some i) (hpos : 0 < s.cfg.heatIdleS) (hd : s.hc.idleDeferred = false) :
    idleLeft s = some (s.cfg.heatIdleS * 1000 - i) := by
  unfold idleLeft
  rw [if_neg (by simp [hpos.ne', hd]), hi]
  rfl

theorem heaterOff_elapse (hs : s.resetLow = false) (n : Nat) (hoff : heaterOff s) : heaterOff (elapse n s) := by
  unfold heaterOff
  rw [elapse_hc hs]
  exact hoff

theorem inPhase_elapse (hs : s.resetLow = false) (n : Nat) : (elapse n s).im.inPhase = s.im.inPhase := by
  rw [elapse_im_high hs]
  rfl

theorem anyOn_false (hoff : heaterOff s) : s.hc.anyOn = false := by
  obtain ⟨h1, h2⟩ := hoff
  rw [Heater.anyOn, h1, h2]
  rfl

theorem exec_deferredIdleDisconnect (hs : s.resetLow = false) (hd : s.hc.idleDeferred = true) (hp : s.im.inPhase = false) :
    exec .deferredIdleDisconnect s = .next (deferredDisconnect s) := by
  show Host.Outcome.next (if s.hc.idleDeferred && !s.im.inPhase then event deferredDisconnect s else s) = _
  rw [hd, hp, event_high hs, takeReports_of_idle hp]
  rfl

end

/-- Settles O25. -/
theorem legConnectsWhenFreeAndByItsTimers : Obligations.LegConnectsWhenFreeAndByItsTimers := by
  refine ⟨?_, ?_, ?_⟩
  · intro s x hs hx hdue
    refine ⟨_, exec_hcSampleTaking hs hx hdue, ?_⟩
    obtain ⟨u, hu⟩ : ∃ u, u = s.onFe FrontEnd.hcTook := ⟨_, rfl⟩
    have huhc : u.hc = s.hc := by rw [hu]; rfl
    have hphase : (barsNow u).phase = s.im.inPhase := by rw [hu]; rfl
    have hlocked : (barsNow u).lockedOut = false ↔ s.sc.state ≠ .lockedOut := by
      rw [hu]
      exact decide_eq_false_iff_not
    rw [← hu, hcTake_hc, ← huhc]
    rcases hcChecked_leg x u with hsw | ⟨hclosed, htrip⟩
    · obtain ⟨hleg, hconnect, hsettle, hhold⟩ := hcSelected_leg (a := u.pc.aH) (bars := barsNow u) hsw
      obtain ⟨g, hg⟩ : ∃ g, g = (hcChecked x u).applySelection u.pc.aH (barsNow u) := ⟨_, rfl⟩
      rw [← hg] at hleg hconnect hsettle hhold ⊢
      have hthermo := (g.startConnection_requested (barsNow u)).thermostat
      refine ⟨?_, fun hiso => ?_, fun hclosed => .inl ?_⟩
      · intro hdis starts
        refine ⟨fun ⟨h1, h2, h3, h4, h5⟩ => ?_, fun hno => ?_⟩
        · rw [Heater.startConnection_starts (hleg.trans hdis) (hthermo ▸ h1) (hsettle.trans h2) (hphase.trans h3)
            (hhold.trans h4) (hlocked.mpr h5)]
          exact ⟨rfl, rfl⟩
        · rw [Heater.startConnection_rests fun ⟨_, h1, h2, h3, h4, h5⟩ => hno ⟨hthermo.trans h1, hsettle ▸ h2, hphase ▸ h3,
            hhold ▸ h4, hlocked.mp h5⟩]
          exact hleg.trans hdis
      · rw [Heater.startConnection_other (.inl (by rw [hleg, hiso]; simp)), hleg, hiso]
      · rw [Heater.startConnection_other (.inl (by rw [hleg]; rcases hclosed with hl | hl <;> rw [hl] <;> simp))]
        exact ⟨hleg, hconnect, hsettle⟩
    · rw [Heater.applySelection_disabled fun k => (htrip.disabled k).1,
        Heater.startConnection_other (.inr (by rw [htrip.settle]; simp))]
      refine ⟨fun hdis => ?_, fun hiso => ?_, fun _ => .inr ⟨htrip.leg, htrip.connect, htrip.settle, htrip.idle, htrip.disabled⟩⟩
      · rw [hdis] at hclosed
        simp at hclosed
      · rw [hiso] at hclosed
        simp at hclosed
  · intro s
    refine ⟨fun hn => ?_, fun hn => ?_, fun hn => ?_, fun hn => ?_⟩
    · show Host.Outcome.next (atEnd s.hc.connect _ s) = _
      rw [hn, atEnd_none]
    · show Host.Outcome.next (atEnd s.hc.blanking _ s) = _
      rw [hn, atEnd_none]
    · show Host.Outcome.next (atEnd (idleLeft s) _ s) = _
      rw [idleLeft_none hn, atEnd_none]
    · show Host.Outcome.next (if s.hc.idleDeferred && !s.im.inPhase then event deferredDisconnect s else s) = _
      rcases hn with hn | hn <;> simp [hn]
  · intro s n hs u apart
    have hhc : u.hc = s.hc.elapse n := elapse_hc hs n
    have hphase : u.im.inPhase = s.im.inPhase := inPhase_elapse hs n
    refine ⟨fun hn => ?_, fun hn => ?_, fun i hi hpos hd hn => ⟨fun hp => ?_, fun hp hleg hoff => ?_⟩,
      fun hd hp => ⟨fun hleg hoff => ?_, fun hno => ?_⟩⟩
    · show Host.Outcome.next (atEnd s.hc.connect (fun s => s.onHc Heater.connected) s) = _
      rw [hn, atEnd_high hs, takeReports_undriven]
      · rfl
      · exact decide_eq_false (by show ¬ u.pc.pCmd + 500 < u.pc.pCmd; omega)
      · exact Bool.eq_false_iff.mpr fun ho => by
          rcases (driveOpened_iff _ _).mp ho with ⟨h1, h2⟩ | ⟨h1, h2⟩ | ⟨-, h2⟩
          · exact absurd (h1.symm.trans h2) (by simp)
          · exact absurd (h1.symm.trans h2) (by simp)
          · cases h2
    · show Host.Outcome.next (atEnd s.hc.blanking (fun s => s.onHc fun h => { h with blanking := none }) s) = _
      rw [hn, atEnd_high hs]
      exact congrArg Host.Outcome.next (takeReports_of_same (s := u) rfl rfl rfl rfl)
    · show Host.Outcome.next (atEnd (idleLeft s) idleLimit s) = _
      rw [idleLeft_some hi hpos hd, ← hn, atEnd_high hs, idleLimit_waits (hphase.trans hp)]
      exact congrArg Host.Outcome.next (takeReports_of_same (s := u) rfl rfl rfl rfl)
    · show Host.Outcome.next (atEnd (idleLeft s) idleLimit s) = _
      rw [idleLeft_some hi hpos hd, ← hn, atEnd_high hs, takeReports_of_idle (hphase.trans hp),
        idleLimit_disconnects (hphase.trans hp) ((congrArg Heater.leg hhc).trans hleg) (heaterOff_elapse hs n hoff)]
    · rw [exec_deferredIdleDisconnect hs hd hp]
      have hopen : deferredDisconnect s = { s with hc := s.hc.openLeg } := by
        show { s with hc := if s.hc.leg = LegState.connected ∧ s.hc.anyOn = false then s.hc.openLeg else _ } = _
        rw [if_pos ⟨hleg, anyOn_false hoff⟩]
      rw [hopen, Heater.openLeg_off (.inr hleg) hoff.1 hoff.2]
    · rw [exec_deferredIdleDisconnect hs hd hp]
      have hnot : ¬ (s.hc.leg = .connected ∧ s.hc.anyOn = false) := by
        rintro ⟨hleg, hany⟩
        refine hno.elim (fun hl => hl hleg) fun hoff => hoff ?_
        simpa [Heater.anyOn, heaterOff] using hany
      show Host.Outcome.next { s with hc := if s.hc.leg = LegState.connected ∧ s.hc.anyOn = false then s.hc.openLeg else _ } = _
      rw [if_neg hnot]

end Sys2Proof.Machine

/-! PROOFS. What the taking of a set leaves of the elements, the thermostat and the notices; the selection within the
allowance (R56, R58, R61 to R65). -/

namespace Sys2Proof.Machine

set_option Elab.async false

section
variable {s : State} {x : SampleSet} {h : Heater} {k : ElemId}

/-! ## The elements after a taking -/

theorem hcChecked_lowered (x : SampleSet) (s : State) : (s.hc.takeSet s.cfg x).Lowered (hcChecked x s) :=
  ((Heater.evaluated_lowered _ _ _).trans (Heater.fit_lowered _ _)).trans (Heater.checked_lowered _ _ _)

/-- Since the readings of the set the elements have kept their figures. -/
theorem hcTake_keeps (x : SampleSet) (s : State) (k : ElemId) :
    ((s.hc.takeSet s.cfg x).get k).Keeps ((hcTake x s).hc.get k) := by
  rw [hcTake_hc, Heater.startConnection_get]
  exact ((hcChecked_lowered x s).keeps k).trans (Heater.applySelection_turned _ _ _ k).keeps

/-- No element comes on before the selection. -/
theorem hcChecked_sinks (x : SampleSet) (s : State) (k : ElemId) : (s.hc.get k).Sinks ((hcChecked x s).get k) :=
  (s.hc.takeSet_sinks s.cfg x k).trans ((hcChecked_lowered x s).sinks k)

theorem Heater.takeSet_get (i : Items) (x : SampleSet) (k : ElemId) (h : Heater) :
    ∃ r v n, (h.takeSet i x).get k = ((h.get k).rate v n).tempTaken r := by
  cases k with
  | e1 => exact ⟨_, _, _, Heater.takeSet_e1 i x h⟩
  | e2 => exact ⟨_, _, _, Heater.takeSet_e2 i x h⟩

/-- An element that is hot is in HOT_LOCK or DISABLED, one that is not is out of HOT_LOCK, and DISABLED stays. -/
theorem hcTake_states (x : SampleSet) (s : State) (k : ElemId) :
    (((hcTake x s).hc.get k).hot = true →
      ((hcTake x s).hc.get k).state = .hotLock ∨ ((hcTake x s).hc.get k).state = .disabled) ∧
    (((hcTake x s).hc.get k).hot = false → ((hcTake x s).hc.get k).state ≠ .hotLock) ∧
    ((s.hc.get k).state = .disabled → ((hcTake x s).hc.get k).state = .disabled) := by
  have hkeeps := hcTake_keeps x s k
  obtain ⟨r, v, n, hset⟩ := s.hc.takeSet_get s.cfg x k
  rw [hset] at hkeeps
  rw [hkeeps.hot]
  refine ⟨fun hh => ?_, fun hh hlock => ?_, fun hd => hkeeps.disabled (Element.tempTaken_disabled r hd)⟩
  · rcases Element.tempTaken_locked hh with hl | hd
    · exact hkeeps.locked hl
    · exact .inr (hkeeps.disabled hd)
  · exact Element.tempTaken_unlocked hh (hkeeps.unlocked hlock)

/-! ## Thermostat and HEATER_SENSOR after a taking (R61) -/

theorem hcTake_requested (x : SampleSet) (s : State) : (hcFitted x s).Requested (hcTake x s).hc := by
  rw [hcTake_hc]
  exact ((hcChecked_requested x s).trans (Heater.applySelection_switched _ _ _).requested).trans
    (Heater.startConnection_requested _ _)

theorem hcTake_flags (x : SampleSet) (s : State) :
    ((hcTake x s).hc.thermostat = true ↔ s.hc.mode = true ∧ x.tPack.mark ≠ .missing ∧ x.tPack.value < s.hc.target ∧
      (x.tPack.value < s.hc.target - s.cfg.heatBand ∨ s.hc.thermostat = true)) ∧
    ((hcTake x s).hc.sensor = true ↔ x.tPack.mark = .missing) ∧
    (hcTake x s).hc.mode = s.hc.mode ∧ (hcTake x s).hc.target = s.hc.target := by
  have hreq := hcTake_requested x s
  have hset := s.hc.takeSet_switched s.cfg x
  have hfit := ((s.hc.takeSet s.cfg x).evaluated s.cfg.heatBand x.tPack).fit_switched s.pc.aH
  obtain ⟨hflag, hsensor⟩ := (s.hc.takeSet s.cfg x).evaluated_flags s.cfg.heatBand x.tPack
  obtain ⟨-, -, -, hmode, htarget, -⟩ := hcFitted_leg x s
  rw [Heater.thermostatAfter_iff, hset.mode, hset.target, hset.thermostat, ← hfit.thermostat] at hflag
  rw [← hfit.sensor] at hsensor
  rw [hreq.thermostat, hreq.sensor, hreq.mode, hreq.target]
  exact ⟨hflag, hsensor, hmode, htarget⟩

/-- A MISSING t_pack leaves no element on. -/
theorem hcTake_missing_off (hr : x.tPack.mark = .missing) (k : ElemId) : ((hcTake x s).hc.get k).isOn = false := by
  have heval (k : ElemId) : (((s.hc.takeSet s.cfg x).evaluated s.cfg.heatBand x.tPack).get k).isOn = false := by
    rw [Heater.evaluated_missing hr]
    cases k
    · exact Heater.allOff_e1 _
    · exact Heater.allOff_e2 _
  have hlow := (Heater.fit_lowered s.pc.aH ((s.hc.takeSet s.cfg x).evaluated s.cfg.heatBand x.tPack)).trans
    (Heater.checked_lowered x.vBus x.iHeat _)
  have hflag : (hcChecked x s).thermostat = false := by
    have hreq := (hcTake_requested x s).thermostat
    rw [(hcChecked_requested x s).thermostat, ← hreq]
    exact Bool.eq_false_iff.mpr fun hon => ((hcTake_flags x s).1.mp hon).2.1 hr
  rw [hcTake_hc, Heater.startConnection_get, Heater.applySelection_idle hflag]
  refine Bool.eq_false_iff.mpr fun hon => ?_
  have hwas := (hlow.sinks k).off (((Heater.dropped_lowered s.pc.aH (hcChecked x s)).sinks k).off hon)
  rw [heval k] at hwas
  cases hwas

/-! ## The notices of a taking (R76) -/

theorem takeCheck_tells (v i : Nat) (s : State) : Tells [.heater, .capture] [.heaterEvent] s (takeCheck v i s) := by
  have hquiet (f : Heater → Heater) : Tells [.heater, .capture] [.heaterEvent] s (s.onHc f) := Tells.of_touches (onHc_touches s f)
  rw [takeCheck_eq]
  split
  · exact (hquiet _).trans (heaterEvent_tells _)
  · exact hquiet _

theorem hcTake_after (x : SampleSet) (s : State) : Tells [.heater, .capture] [.heaterEvent]
    (evalThermostat x.tPack (s.onHc (Heater.takeSet s.cfg x))) (hcTake x s) := by
  have hquiet (u : State) (f : Heater → Heater) : Tells [.heater, .capture] [.heaterEvent] u (u.onHc f) :=
    Tells.of_touches (onHc_touches u f)
  rw [hcTake_eq]
  exact ((hquiet _ _).trans (takeCheck_tells x.vBus x.iHeat (hcReady x s))).trans (hquiet _ _)

theorem hcTake_tells (x : SampleSet) (s : State) : Tells [.heater, .capture] [.heaterEvent] s (hcTake x s) := by
  have hquiet : Tells [.heater, .capture] [.heaterEvent] s (s.onHc (Heater.takeSet s.cfg x)) := Tells.of_touches (onHc_touches s _)
  exact (hquiet.trans (evalThermostat_tells x.tPack _)).trans (hcTake_after x s)

theorem hcTake_sensor_event (hr : x.tPack.mark = .missing) (hclear : s.hc.sensor = false) :
    Raised .heater (hcTake x s) ∧ Fired .heaterEvent s (hcTake x s) := by
  obtain ⟨hraised, hfired⟩ := evalThermostat_event (s := s.onHc (Heater.takeSet s.cfg x)) hr
    ((s.hc.takeSet_switched s.cfg x).sensor.trans hclear)
  exact ⟨(hcTake_after x s).raised_of hraised, (hcTake_after x s).fired_of hfired⟩

/-! ## The fit in the allowance (R65) -/

/-- The single-element rule chooses one element that fits. -/
theorem Heater.single_fits (a : Nat) (h : Heater) : ((h.single a).e1 = true → h.e1.rated ≤ a ∧ (h.single a).e2 = false) ∧
    ((h.single a).e2 = true → h.e2.rated ≤ a) := by
  have hfits (k : ElemId) (hf : h.fitsAlone a k = true) : (h.get k).rated ≤ a := by
    rw [Heater.fitsAlone, Bool.and_eq_true, decide_eq_true_eq] at hf
    exact hf.2
  have h1 := hfits .e1
  have h2 := hfits .e2
  unfold Heater.single
  cases f1 : h.fitsAlone a .e1 <;> cases f2 : h.fitsAlone a .e2
  case true.true =>
    simp only [Bool.and_self, if_true]
    split
    · exact ⟨fun hx => (by cases hx), fun _ => h2 f2⟩
    · exact ⟨fun _ => ⟨h1 f1, rfl⟩, fun hx => (by cases hx)⟩
  · exact ⟨fun hx => (by cases hx), fun hx => (by cases hx)⟩
  · exact ⟨fun hx => (by cases hx), fun _ => h2 f2⟩
  · exact ⟨fun _ => ⟨h1 f1, rfl⟩, fun hx => (by cases hx)⟩

theorem Heater.hOn_off (h1 : h.e1.isOn = false) (h2 : h.e2.isOn = false) : h.hOn = 0 := by simp [Heater.hOn, h1, h2]

theorem Heater.hOn_e1 (h2 : h.e2.isOn = false) : h.hOn ≤ h.e1.rated := by
  rw [Heater.hOn, h2]
  cases h.e1.isOn <;> simp

theorem Heater.hOn_e2 (h1 : h.e1.isOn = false) : h.hOn ≤ h.e2.rated := by
  rw [Heater.hOn, h1]
  cases h.e2.isOn <;> simp

/-- Both elements ON, the fit keeps the chosen one if there is one. -/
theorem Heater.fit_both {a : Nat} (hover : ¬ h.hOn ≤ a) (hboth : (h.e1.isOn && h.e2.isOn) = true) :
    h.fit a = (if (h.single a).e2 then (if (h.single a).e1 then h else h.turnOff .off .e1)
      else (if (h.single a).e1 then h else h.turnOff .off .e1).turnOff .off .e2) := by
  unfold Heater.fit
  rw [if_neg hover, if_pos hboth]

theorem Heater.fit_hOn (a : Nat) (h : Heater) : (h.fit a).hOn ≤ a := by
  by_cases hle : h.hOn ≤ a
  · rwa [Heater.fit_of_le hle]
  by_cases hboth : (h.e1.isOn && h.e2.isOn) = true
  · rw [Heater.fit_both hle hboth]
    obtain ⟨hs1, hs2⟩ := h.single_fits a
    cases x1 : (h.single a).e1 with
    | true =>
      obtain ⟨hr, x2⟩ := hs1 x1
      rw [x2]
      refine (Heater.hOn_e1 (Heater.turnOff_self .off .e2 h (by simp))).trans ?_
      rw [Heater.turnOff_e2_e1]
      exact hr
    | false =>
      have hoff : (h.turnOff .off .e1).e1.isOn = false := Heater.turnOff_self .off .e1 h (by simp)
      cases x2 : (h.single a).e2 with
      | true =>
        refine (Heater.hOn_e2 hoff).trans ?_
        exact (congrArg Element.rated (Heater.turnOff_e1_e2 .off h)).le.trans (hs2 x2)
      | false =>
        have hall : h.allOff.hOn = 0 := Heater.hOn_off h.allOff_e1 h.allOff_e2
        exact (hall.le).trans (Nat.zero_le a)
  · have hall : h.fit a = h.allOff := by
      unfold Heater.fit
      rw [if_neg hle, if_neg hboth]
    rw [hall, Heater.hOn_off h.allOff_e1 h.allOff_e2]
    exact Nat.zero_le a

/-- The elements on after a taking stay within the allowance. -/
theorem hcTake_hOn (x : SampleSet) (s : State) : (hcTake x s).hc.hOn ≤ s.pc.aH := by
  have hchecked : (hcChecked x s).hOn ≤ s.pc.aH :=
    (Heater.checked_lowered x.vBus x.iHeat (hcFitted x s)).hOn_le.trans (Heater.fit_hOn _ _)
  have happlied := Heater.applySelection_hOn (bars := barsNow s) hchecked
  obtain ⟨h1, h2, -⟩ := ((hcChecked x s).applySelection s.pc.aH (barsNow s)).startConnection_elements (barsNow s)
  rw [hcTake_hc, Heater.hOn, h1, h2]
  exact happlied

/-! ## Elements free to come on (R62, R64) -/

/-- Two elements that are off, available, rested and free to come on. -/
structure Heater.Fresh (bars : TurnOnBars) (h : Heater) : Prop where
  thermostat : h.thermostat = true
  off : ∀ k, (h.get k).state = .off
  dwell : ∀ k, 1000 ≤ (h.get k).dwell
  diagnosis : h.diagnosis = false
  leg : h.leg = .connected
  hold : h.localiseHold = false
  phase : bars.phase = false
  lockedOut : bars.lockedOut = false

theorem Heater.fitsAlone_off (a : Nat) (hoff : (h.get k).state = .off) (hd : h.diagnosis = false) :
    h.fitsAlone a k = decide (0 < (h.get k).rated ∧ (h.get k).rated ≤ a) := by
  have havail : h.available k = true := by
    cases k <;> simp only [Heater.get] at hoff <;> simp [Heater.available, hoff, hd]
  simp [Heater.fitsAlone, havail]

/-- The selection between two elements free to come on (R62). -/
theorem Heater.selection_fresh {a : Nat} {bars : TurnOnBars} (fresh : h.Fresh bars) :
    ((h.selection a).e1 = true ↔ 0 < h.e1.rated ∧ (h.e1.rated + h.e2.rated ≤ a ∨
      (h.e1.rated ≤ a ∧ (h.e2.rated ≤ h.e1.rated ∨ a < h.e2.rated)))) ∧
    ((h.selection a).e2 = true ↔ 0 < h.e2.rated ∧ (h.e1.rated + h.e2.rated ≤ a ∨
      (h.e2.rated ≤ a ∧ (h.e1.rated < h.e2.rated ∨ a < h.e1.rated)))) := by
  have f1 : h.fitsAlone a .e1 = decide (0 < h.e1.rated ∧ h.e1.rated ≤ a) :=
    Heater.fitsAlone_off a (fresh.off .e1) fresh.diagnosis
  have f2 : h.fitsAlone a .e2 = decide (0 < h.e2.rated ∧ h.e2.rated ≤ a) :=
    Heater.fitsAlone_off a (fresh.off .e2) fresh.diagnosis
  have o1 : h.e1.state = .off := fresh.off .e1
  have o2 : h.e2.state = .off := fresh.off .e2
  have havail : (h.available .e1 && h.available .e2) = true := by simp [Heater.available, o1, o2, fresh.diagnosis]
  unfold Heater.selection
  rw [if_neg (by rw [fresh.thermostat]; simp), havail]
  by_cases hsum : h.e1.rated + h.e2.rated ≤ a
  · rw [if_pos (by simpa using hsum)]
    simp only [decide_eq_true_eq, hsum, true_or, and_true, iff_self, and_self]
  · rw [if_neg (by simpa using hsum)]
    unfold Heater.single
    rw [f1, f2]
    by_cases p1 : 0 < h.e1.rated ∧ h.e1.rated ≤ a <;> by_cases p2 : 0 < h.e2.rated ∧ h.e2.rated ≤ a
    · simp only [decide_eq_true p1, decide_eq_true p2, Bool.and_self, if_true]
      split
      · simp only [Bool.false_eq_true, false_iff, true_iff]
        omega
      · simp only [Bool.false_eq_true, false_iff, true_iff]
        omega
    · rw [decide_eq_true p1, decide_eq_false p2]
      show (true = true ↔ _) ∧ (false = true ↔ _)
      simp only [true_iff, Bool.false_eq_true, false_iff]
      omega
    · rw [decide_eq_false p1, decide_eq_true p2]
      show (false = true ↔ _) ∧ (true = true ↔ _)
      simp only [true_iff, Bool.false_eq_true, false_iff]
      omega
    · rw [decide_eq_false p1, decide_eq_false p2]
      show (false = true ↔ _) ∧ (false = true ↔ _)
      simp only [Bool.false_eq_true, false_iff]
      omega

theorem Heater.Fresh.isOn {bars : TurnOnBars} (fresh : h.Fresh bars) (k : ElemId) : (h.get k).isOn = false :=
  (Element.isOn_false _).mpr (by rw [fresh.off k]; simp)

/-- Of two elements free to come on those come on that the selection names. -/
theorem Heater.applySelection_fresh {a : Nat} {bars : TurnOnBars} (fresh : h.Fresh bars) :
    ((h.applySelection a bars).e1.isOn = true ↔ (h.selection a).e1 = true) ∧
      ((h.applySelection a bars).e2.isOn = true ↔ (h.selection a).e2 = true) := by
  obtain ⟨hsel1, hsel2⟩ := Heater.selection_fresh (a := a) fresh
  have hdropped : h.dropped a = h := by
    rw [Heater.dropped, Heater.dropUnselected_off (fresh.isOn _), Heater.dropUnselected_off (fresh.isOn _)]
  have hnone : h.hOn = 0 := Heater.hOn_off (fresh.isOn .e1) (fresh.isOn .e2)
  rw [Heater.applySelection_eq, hdropped]
  obtain ⟨x, hx⟩ : ∃ x, x = h.selection a := ⟨_, rfl⟩
  rw [← hx] at hsel1 hsel2 ⊢
  have hfirst : h.TurnsOn a bars x .e1 ↔ x.e1 = true := by
    refine ⟨fun on => on.selected, fun hsel => ⟨hsel, fresh.off .e1, fresh.leg, fresh.dwell .e1, fresh.phase, fresh.hold,
      fresh.lockedOut, ?_⟩⟩
    have hfits := hsel1.mp hsel
    rw [hnone]
    show 0 + h.e1.rated ≤ a
    omega
  have hother : (h.takeSelected a bars x .e1).get .e2 = h.get .e2 := Heater.takeSelected_other (by decide)
  have hsw := h.takeSelected_switched a bars x .e1
  have hon : (h.takeSelected a bars x .e1).hOn = if x.e1 then h.e1.rated else 0 := by
    cases hsel : x.e1 with
    | true =>
      rw [Heater.takeSelected_on (hfirst.mpr hsel), Heater.turnOn_hOn (fresh.isOn .e1), hnone]
      exact Nat.zero_add _
    | false =>
      rw [Heater.takeSelected_off (mt hfirst.mp (by rw [hsel]; exact Bool.false_ne_true)), hnone]
      rfl
  have hsecond : (h.takeSelected a bars x .e1).TurnsOn a bars x .e2 ↔ x.e2 = true := by
    refine ⟨fun on => on.selected, fun hsel => ⟨hsel, by rw [hother]; exact fresh.off .e2, hsw.leg.trans fresh.leg,
      by rw [hother]; exact fresh.dwell .e2, fresh.phase, hsw.localiseHold.trans fresh.hold, fresh.lockedOut, ?_⟩⟩
    have hfits := hsel2.mp hsel
    rw [hon, hother]
    show (if x.e1 then h.e1.rated else 0) + h.e2.rated ≤ a
    split
    · next hsel' =>
      have hfits' := hsel1.mp hsel'
      omega
    · omega
  constructor
  · have h1 : ((h.takeSelected a bars x .e1).takeSelected a bars x .e2).e1 = (h.takeSelected a bars x .e1).e1 :=
      Heater.takeSelected_other (k := .e2) (k' := .e1) (by decide)
    rw [h1]
    by_cases hsel : x.e1 = true
    · rw [Heater.takeSelected_on (hfirst.mpr hsel)]
      exact iff_of_true rfl hsel
    · rw [Heater.takeSelected_off (mt hfirst.mp hsel)]
      exact iff_of_false (by rw [show h.e1.isOn = false from fresh.isOn .e1]; exact Bool.false_ne_true) hsel
  · by_cases hsel : x.e2 = true
    · rw [Heater.takeSelected_on (hsecond.mpr hsel)]
      exact iff_of_true rfl hsel
    · rw [Heater.takeSelected_off (mt hsecond.mp hsel)]
      refine iff_of_false ?_ hsel
      show ¬ ((h.takeSelected a bars x .e1).get .e2).isOn = true
      rw [hother, fresh.isOn .e2]
      exact Bool.false_ne_true

end

/-- Settles O23. -/
theorem heaterTakesRatingsHotAndThermostat : Obligations.HeaterTakesRatingsHotAndThermostat := by
  intro s x hs hx hdue hot
  refine ⟨_, exec_hcSampleTaking hs hx hdue, ?_⟩
  obtain ⟨u, hu⟩ : ∃ u, u = s.onFe FrontEnd.hcTook := ⟨_, rfl⟩
  have huhc : u.hc = s.hc := by rw [hu]; rfl
  have hucfg : u.cfg = s.cfg := by rw [hu]; rfl
  have huse : u.se = s.se := by rw [hu]; rfl
  have huports : u.ports = s.ports := by rw [hu]; rfl
  have hframe : Touches [.fe] s u := by rw [hu]; exact onFe_touches s _
  rw [← hu, ← huhc, ← hucfg]
  have k1 := hcTake_keeps x u .e1
  have k2 := hcTake_keeps x u .e2
  rw [show (u.hc.takeSet u.cfg x).get .e1 = _ from Heater.takeSet_e1 u.cfg x u.hc] at k1
  rw [show (u.hc.takeSet u.cfg x).get .e2 = _ from Heater.takeSet_e2 u.cfg x u.hc] at k2
  obtain ⟨hthermo, hsensor, hmode, htarget⟩ := hcTake_flags x u
  refine ⟨k1.rated, k1.current, k2.rated, k2.current, ?_, ?_, hcTake_states x u, hthermo, hsensor,
    fun hr => ⟨hcTake_missing_off hr .e1, hcTake_missing_off hr .e2⟩, fun hr hclear => ?_, hmode, htarget, ?_,
    (hframe.mono).step (hcTake_touches x u)⟩
  · exact (Eq.congr_left k1.hot).trans (hotAfter_iff x.tEl1 u.hc.e1.hot)
  · exact (Eq.congr_left k2.hot).trans (hotAfter_iff x.tEl2 u.hc.e2.hot)
  · obtain ⟨hraised, hfired⟩ := hcTake_sensor_event hr hclear
    refine ⟨hraised, ?_⟩
    unfold Fired at hfired ⊢
    rwa [huse] at hfired
  · intro p n hn
    rw [(hcTake_tells x u).flags p n hn, huports]

end Sys2Proof.Machine

/-! PROOFS. The selection at the taking of a set, and the current check (R62, R64, R69 to R71). -/

namespace Sys2Proof.Machine

set_option Elab.async false

section
variable {s : State} {x : SampleSet} {h : Heater} {k : ElemId}

/-! ## Takings that switch nothing before the check -/

/-- With both elements cool the readings drive no switch. -/
theorem Heater.takeSet_cool {i : Items} (h1 : hotAfter x.tEl1 h.e1.hot = false) (h2 : hotAfter x.tEl2 h.e2.hot = false) :
    h.takeSet i x = { h with
      e1 := (h.e1.rate x.vBus i.resE1).tempTaken x.tEl1, e2 := (h.e2.rate x.vBus i.resE2).tempTaken x.tEl2 } := by
  unfold Heater.takeSet
  obtain ⟨g, hg⟩ : ∃ g : Heater, g = { h with e1 := h.e1.rate x.vBus i.resE1, e2 := h.e2.rate x.vBus i.resE2 } := ⟨_, rfl⟩
  have hg1 : hotAfter x.tEl1 (g.get .e1).hot = false := by rw [hg]; exact h1
  rw [← hg, Heater.takeTemp_cool hg1, Heater.takeTemp_cool (by rw [hg]; exact h2), hg]
  rfl

/-- A reading of t_pack that carries a value, and elements that fit the allowance: only the flags change. -/
theorem hcFitted_valued (hr : x.tPack.mark ≠ .missing) (hfit : (s.hc.takeSet s.cfg x).hOn ≤ s.pc.aH) :
    hcFitted x s = { s.hc.takeSet s.cfg x with
      thermostat := (s.hc.takeSet s.cfg x).thermostatAfter s.cfg.heatBand x.tPack, sensor := false } := by
  unfold hcFitted
  rw [Heater.evaluated_valued hr]
  exact Heater.fit_of_le hfit

theorem Heater.checked_notRun {v i : Nat} (hc : h.check v i = .notRun) : h.checked v i = h := by simp [Heater.checked, hc]

theorem Heater.check_off {v i : Nat} (hoff : h.anyOn = false) : h.check v i = .notRun := by simp [Heater.check, hoff]

theorem Heater.check_blanked {v i : Nat} (hb : h.blanking.isSome = true) : h.check v i = .notRun := by
  have hnot : h.blanking.isNone = false := by simpa [Option.isSome_iff_ne_none] using hb
  simp [Heater.check, hnot]

theorem Heater.takeSet_blanking {i : Items} (hb : h.blanking.isSome = true) : (h.takeSet i x).blanking.isSome = true :=
  Heater.takeTemp_blanking (Heater.takeTemp_blanking hb)

/-- The rated power of a set on the elements that were ON. -/
theorem Heater.takeSet_hOn_le (i : Items) (x : SampleSet) (h : Heater) : (h.takeSet i x).hOn ≤
    (if h.e1.isOn then x.vBus * x.vBus / (10 * i.resE1) else 0) + (if h.e2.isOn then x.vBus * x.vBus / (10 * i.resE2) else 0) := by
  have hpart {e e' : Element} {p : Nat} (hoff : e'.isOn = true → e.isOn = true) (hr : e'.rated = p) :
      (if e'.isOn then e'.rated else 0) ≤ if e.isOn then p else 0 := by
    cases hon : e'.isOn with
    | false => simp
    | true => rw [hoff hon, hr]
  have hs := h.takeSet_sinks i x
  refine Nat.add_le_add (hpart (hs .e1).off ?_) (hpart (hs .e2).off ?_)
  · rw [Heater.takeSet_e1]
    rfl
  · rw [Heater.takeSet_e2]
    rfl

/-! ## Turn-ons at a taking (R64) -/

/-- What an element that comes on at a taking shows. -/
structure HcCameOn (k : ElemId) (s t : State) : Prop where
  leg : s.hc.leg = .connected
  phase : s.im.inPhase = false
  hold : s.hc.localiseHold = false
  free : s.sc.state ≠ .lockedOut
  thermostat : t.hc.thermostat = true
  dwell : 1000 ≤ (s.hc.get k).dwell
  restarted : (t.hc.get k).dwell = 0
  blanking : t.hc.blanking = some 300
  idle : t.hc.idle = none

theorem hcTake_cameOn (hoff : (s.hc.get k).isOn = false) (hon : ((hcTake x s).hc.get k).isOn = true) :
    HcCameOn k s (hcTake x s) := by
  have hthermo : (hcTake x s).hc.thermostat = (hcChecked x s).thermostat :=
    (hcTake_requested x s).thermostat.trans (hcChecked_requested x s).thermostat.symm
  have hchecked : ((hcChecked x s).get k).isOn = false := Bool.eq_false_iff.mpr fun hx => by
    rw [(hcChecked_sinks x s k).off hx] at hoff
    cases hoff
  have hdwell := (hcChecked_sinks x s k).dwell (hchecked.trans hoff.symm)
  rw [hcTake_hc, Heater.startConnection_get] at hon
  have on := Heater.applySelection_cameOn hchecked hon
  obtain ⟨-, -, hb, hi, -⟩ := ((hcChecked x s).applySelection s.pc.aH (barsNow s)).startConnection_elements (barsNow s)
  obtain ⟨hleg, -, -, -, -, hhold⟩ := hcFitted_leg x s
  rcases hcChecked_leg x s with hsw | ⟨-, htrip⟩
  case inr =>
    have hconnected := on.leg
    rw [htrip.leg] at hconnected
    cases hconnected
  refine ⟨hleg ▸ hsw.leg ▸ on.leg, on.phase, hhold ▸ hsw.localiseHold ▸ on.hold, of_decide_eq_false on.lockedOut,
    hthermo.trans on.thermostat, hdwell ▸ on.dwell, ?_, ?_, ?_⟩
  · rw [hcTake_hc, Heater.startConnection_get]
    exact on.restarted
  · rw [hcTake_hc, hb]
    exact on.blanking
  · rw [hcTake_hc, hi]
    exact on.idle

/-- With the thermostat flag clear an element whose ON dwell is complete goes off. -/
theorem hcTake_dropped (hflag : (hcTake x s).hc.thermostat = false) (hd : 1000 ≤ (s.hc.get k).dwell) :
    ((hcTake x s).hc.get k).isOn = false := by
  have hthermo : (hcChecked x s).thermostat = false :=
    (hcChecked_requested x s).thermostat.trans ((hcTake_requested x s).thermostat.symm.trans hflag)
  refine Bool.eq_false_iff.mpr fun hon => ?_
  rw [hcTake_hc, Heater.startConnection_get, Heater.applySelection_idle hthermo] at hon
  have hwas := ((Heater.dropped_lowered s.pc.aH (hcChecked x s)).sinks k).off hon
  have hsinks := hcChecked_sinks x s k
  have hdwell := hsinks.dwell (hwas.trans (hsinks.off hwas).symm)
  rw [Heater.dropped_idle hthermo (by rw [hdwell]; exact hd)] at hon
  cases hon

/-- An element that fits, is cool and inside its ON dwell stays on where no check runs. -/
theorem hcTake_stays (hfits : (s.hc.takeSet s.cfg x).hOn ≤ s.pc.aH) (hb : s.hc.blanking.isSome = true)
    (hr : x.tPack.mark ≠ .missing) (hon : (s.hc.get k).isOn = true) (hcool : ((hcTake x s).hc.get k).hot = false)
    (hd : (s.hc.get k).dwell < 1000) :
    ((hcTake x s).hc.get k).isOn = true ∧ ((hcTake x s).hc.get k).dwell = (s.hc.get k).dwell := by
  have hhot := (hcTake_keeps x s k).hot
  obtain ⟨r, v, n, hset⟩ := s.hc.takeSet_get s.cfg x k
  have hstate : (s.hc.get k).state = .on := (Element.isOn_iff _).mp hon
  have hcool' : (((s.hc.get k).rate v n).tempTaken r).hot = false := by rw [← hset, ← hhot]; exact hcool
  obtain ⟨hs, hdwell⟩ := Element.tempTaken_cool hcool' (by show (s.hc.get k).state ≠ _; rw [hstate]; simp)
  have hfitted := hcFitted_valued hr hfits
  have hchecked : hcChecked x s = hcFitted x s :=
    Heater.checked_notRun (Heater.check_blanked (by rw [hfitted]; exact Heater.takeSet_blanking hb))
  have hget : (hcChecked x s).get k = ((s.hc.get k).rate v n).tempTaken r := by
    rw [hchecked, hfitted, ← hset]
    cases k <;> rfl
  have hdwell' : ((hcChecked x s).get k).dwell = (s.hc.get k).dwell := by rw [hget, hdwell]; rfl
  have hon' : ((hcChecked x s).get k).isOn = true := by
    rw [hget, Element.isOn_iff, hs]
    exact hstate
  rw [hcTake_hc, Heater.startConnection_get, Heater.applySelection_stays hon' (by rw [hdwell']; exact hd)]
  exact ⟨hon', hdwell'⟩

/-- Cool elements that are off and rested reach the selection free to come on. -/
theorem hcChecked_fresh (hleg : s.hc.leg = .connected) (hphase : s.im.inPhase = false) (hhold : s.hc.localiseHold = false)
    (hfree : s.sc.state ≠ .lockedOut) (hflag : (hcTake x s).hc.thermostat = true) (hoff : ∀ k, (s.hc.get k).state = .off)
    (hcool : ∀ k, ((hcTake x s).hc.get k).hot = false) (hdiag : s.hc.diagnosis = false)
    (hd : ∀ k, 1000 ≤ (s.hc.get k).dwell) :
    (hcChecked x s).Fresh (barsNow s) ∧ (hcChecked x s).e1.rated = x.vBus * x.vBus / (10 * s.cfg.resE1) ∧
      (hcChecked x s).e2.rated = x.vBus * x.vBus / (10 * s.cfg.resE2) := by
  have hhot (k : ElemId) : ((s.hc.takeSet s.cfg x).get k).hot = false := (hcTake_keeps x s k).hot.symm.trans (hcool k)
  have h1 : hotAfter x.tEl1 s.hc.e1.hot = false := (congrArg Element.hot (Heater.takeSet_e1 s.cfg x s.hc)).symm.trans (hhot .e1)
  have h2 : hotAfter x.tEl2 s.hc.e2.hot = false := (congrArg Element.hot (Heater.takeSet_e2 s.cfg x s.hc)).symm.trans (hhot .e2)
  have hset := Heater.takeSet_cool (i := s.cfg) h1 h2
  have hr := ((hcTake_flags x s).1.mp hflag).2.1
  have hstate (k : ElemId) : ((s.hc.takeSet s.cfg x).get k).state = .off ∧
      ((s.hc.takeSet s.cfg x).get k).dwell = (s.hc.get k).dwell := by
    obtain ⟨r, v, n, hk⟩ := s.hc.takeSet_get s.cfg x k
    obtain ⟨hs, hdw⟩ := Element.tempTaken_cool (r := r) (e := (s.hc.get k).rate v n) (by rw [← hk]; exact hhot k)
      (by show (s.hc.get k).state ≠ _; rw [hoff k]; simp)
    rw [hk]
    exact ⟨hs.trans (hoff k), hdw⟩
  have hisOn (k : ElemId) : ((s.hc.takeSet s.cfg x).get k).isOn = false :=
    (Element.isOn_false _).mpr (by rw [(hstate k).1]; simp)
  have hnone : (s.hc.takeSet s.cfg x).hOn = 0 := Heater.hOn_off (hisOn .e1) (hisOn .e2)
  have hfitted := hcFitted_valued (s := s) hr (by rw [hnone]; exact Nat.zero_le _)
  have hany : (hcFitted x s).anyOn = false := by
    rw [hfitted]
    exact Bool.or_eq_false_iff.mpr ⟨hisOn .e1, hisOn .e2⟩
  have hchecked : hcChecked x s = hcFitted x s := Heater.checked_notRun (Heater.check_off hany)
  obtain ⟨hleg', -, -, -, -, hhold'⟩ := hcFitted_leg x s
  have hget (k : ElemId) : (hcFitted x s).get k = (s.hc.takeSet s.cfg x).get k := by
    rw [hfitted]
    cases k <;> rfl
  have hdiag' : (hcFitted x s).diagnosis = false := by
    rw [hfitted, hset]
    exact hdiag
  rw [hchecked]
  refine ⟨⟨(hcTake_requested x s).thermostat.symm.trans hflag, fun k => by rw [hget, (hstate k).1],
    fun k => by rw [hget, (hstate k).2]; exact hd k, hdiag', hleg'.trans hleg, hhold'.trans hhold, hphase,
    decide_eq_false hfree⟩, ?_, ?_⟩
  · rw [show (hcFitted x s).e1 = _ from hget .e1, show (s.hc.takeSet s.cfg x).get .e1 = _ from Heater.takeSet_e1 _ _ _]
    rfl
  · rw [show (hcFitted x s).e2 = _ from hget .e2, show (s.hc.takeSet s.cfg x).get .e2 = _ from Heater.takeSet_e2 _ _ _]
    rfl

end

/-- Settles O24. -/
theorem selectionKeepsWithinTheAllowance : Obligations.SelectionKeepsWithinTheAllowance := by
  intro s x hs hx hdue p1 p2 free
  refine ⟨_, exec_hcSampleTaking hs hx hdue, ?_⟩
  obtain ⟨u, hu⟩ : ∃ u, u = s.onFe FrontEnd.hcTook := ⟨_, rfl⟩
  have huhc : u.hc = s.hc := by rw [hu]; rfl
  have hupc : u.pc = s.pc := by rw [hu]; rfl
  have hucfg : u.cfg = s.cfg := by rw [hu]; rfl
  have huim : u.im = s.im := by rw [hu]; rfl
  have husc : u.sc = s.sc := by rw [hu]; rfl
  have htpc : (hcTake x u).pc = u.pc := (hcTake_touches x u).pc_eq
  rw [← hu, htpc, ← huhc, ← hupc]
  refine ⟨hcTake_hOn x u, fun k hoff hon => ?_, fun k hflag hd => hcTake_dropped hflag hd,
    fun hfits hb hr k hon hcool hd => ?_, fun hfree hflag o1 o2 c1 c2 hdiag d1 d2 => ?_⟩
  · obtain ⟨hleg, hphase, hhold, hfree, hthermo, hdwell, hrestarted, hblanking, hidle⟩ := hcTake_cameOn hoff hon
    rw [huhc] at hleg hhold
    rw [huim] at hphase
    rw [husc] at hfree
    exact ⟨⟨hleg, hphase, hhold, hfree⟩, hthermo, hdwell, hrestarted, hblanking, hidle⟩
  · refine hcTake_stays ((u.hc.takeSet_hOn_le u.cfg x).trans ?_) hb hr hon hcool hd
    rw [hucfg]
    exact hfits
  · obtain ⟨hleg, hphase, hhold, hlocked⟩ := hfree
    rw [← huhc] at hleg hhold
    rw [← huim] at hphase
    rw [← husc] at hlocked
    obtain ⟨fresh, r1, r2⟩ := hcChecked_fresh (x := x) hleg hphase hhold hlocked hflag
      (fun k => by cases k; exact o1; exact o2) (fun k => by cases k; exact c1; exact c2) hdiag
      (fun k => by cases k; exact d1; exact d2)
    obtain ⟨hsel1, hsel2⟩ := Heater.selection_fresh (a := u.pc.aH) fresh
    obtain ⟨hon1, hon2⟩ := Heater.applySelection_fresh (a := u.pc.aH) fresh
    rw [r1, r2, hucfg] at hsel1 hsel2
    obtain ⟨he1, he2, -⟩ := ((hcChecked x u).applySelection u.pc.aH (barsNow u)).startConnection_elements (barsNow u)
    rw [hcTake_hc, he1, he2]
    exact ⟨hon1.trans hsel1, hon2.trans hsel2⟩

end Sys2Proof.Machine

/-! PROOFS. The current check at the taking of a set (R69 to R71). -/

namespace Sys2Proof.Machine

set_option Elab.async false

section
variable {s : State} {x : SampleSet} {h : Heater} {k : ElemId} {v i : Nat}

/-! ## The notices of the check (R76) -/

/-- An element that the check disables is a heater event. -/
theorem hcTake_event (hfinds : (hcFitted x s).finds x.vBus x.iHeat = true) :
    Raised .heater (hcTake x s) ∧ Fired .heaterEvent s (hcTake x s) := by
  have hquiet (u : State) (f : Heater → Heater) : Tells [] [] u (u.onHc f) := Tells.of_touches (onHc_touches u f)
  have hbefore : Tells [.heater, .capture] [.heaterEvent] s (hcReady x s) :=
    (((hquiet s _).mono).trans (evalThermostat_tells x.tPack (s.onHc (Heater.takeSet s.cfg x)))).trans ((hquiet _ _).mono)
  have hcheck : takeCheck x.vBus x.iHeat (hcReady x s) =
      heaterEvent ((hcReady x s).onHc (Heater.checked x.vBus x.iHeat)) := by
    rw [takeCheck_eq, hcReady_hc, if_pos hfinds]
  rw [hcTake_eq, hcheck]
  obtain ⟨u, hu⟩ : ∃ u, u = (hcReady x s).onHc (Heater.checked x.vBus x.iHeat) := ⟨_, rfl⟩
  have hready : Tells [.heater, .capture] [.heaterEvent] s u := hu ▸ hbefore.trans ((hquiet (hcReady x s) _).mono)
  rw [← hu]
  exact ⟨(hquiet (heaterEvent u) _).raised_of (heaterEvent_raised u),
    (hquiet (heaterEvent u) _).fired_of (hready.fired_since (heaterEvent_fired u))⟩

/-- Without a MISSING t_pack and without an element disabled, a taking tells nothing. -/
theorem hcTake_silent (hr : x.tPack.mark ≠ .missing) (hfinds : (hcFitted x s).finds x.vBus x.iHeat = false) :
    (hcTake x s).ports = s.ports ∧ (hcTake x s).se = s.se := by
  have hready : (hcReady x s).ports = s.ports ∧ (hcReady x s).se = s.se := by
    unfold hcReady
    rw [evalThermostat_valued hr]
    exact ⟨rfl, rfl⟩
  have hcheck : takeCheck x.vBus x.iHeat (hcReady x s) = (hcReady x s).onHc (Heater.checked x.vBus x.iHeat) := by
    rw [takeCheck_eq, hcReady_hc, if_neg (by rw [hfinds]; exact Bool.false_ne_true)]
  rw [hcTake_eq, hcheck]
  exact hready

/-! ## The outcomes of the check -/

theorem Heater.check_runs (hon : h.anyOn = true) (hb : h.blanking = none) (hv : 500 ≤ v) : h.check v i =
    if 4 * i < 3 * h.expected then .low else if 5 * h.expected < 4 * i then .high else .pass := by
  simp [Heater.check, hon, hb, hv]

theorem Heater.check_rests (hno : ¬ (h.blanking = none ∧ 500 ≤ v)) : h.check v i = .notRun := by
  unfold Heater.check
  refine if_neg fun hx => hno ?_
  simp only [Bool.and_eq_true, Option.isNone_iff_eq_none, decide_eq_true_eq] at hx
  exact ⟨hx.1.2, hx.2⟩

theorem Heater.finds_high (hc : h.check v i = .high) : h.finds v i = true := by simp [Heater.finds, hc]

theorem Heater.finds_notRun (hc : h.check v i = .notRun) : h.finds v i = false := by simp [Heater.finds, hc]

theorem Heater.low_both (hc : h.check v i = .low) (h1 : h.e1.isOn = true) (h2 : h.e2.isOn = true) :
    h.checked v i = h.beginDiagnosis ∧ h.finds v i = false := by
  simp [Heater.checked, Heater.finds, hc, h1, h2]

theorem Heater.low_e1 (hc : h.check v i = .low) (h1 : h.e1.isOn = true) (h2 : h.e2.isOn = false) :
    h.checked v i = { h.disable .openCircuit .e1 with diagnosis := false } ∧ h.finds v i = true := by
  simp [Heater.checked, Heater.finds, hc, h1, h2]

theorem Heater.low_e2 (hc : h.check v i = .low) (h1 : h.e1.isOn = false) :
    h.checked v i = h.disable .openCircuit .e2 ∧ h.finds v i = true := by
  simp [Heater.checked, Heater.finds, hc, h1]

theorem Heater.pass_diagnosed (hc : h.check v i = .pass) (hd : h.diagnosis = true) :
    h.checked v i = { h.disable .openCircuit .e2 with diagnosis := false } ∧ h.finds v i = true := by
  simp [Heater.checked, Heater.finds, hc, hd]

theorem Heater.pass_plain (hc : h.check v i = .pass) (hd : h.diagnosis = false) :
    h.checked v i = h ∧ h.finds v i = false := by
  simp [Heater.checked, Heater.finds, hc, hd]

/-! ## The selection after the check -/

theorem Heater.turnOff_undiagnosed (l : ElemState) (k : ElemId) (hd : h.diagnosis = false) : (h.turnOff l k).diagnosis = false := by
  unfold Heater.turnOff
  split
  · cases k
    · rfl
    · exact hd
  · exact hd

theorem Heater.turnOff_blanks {l : ElemState} (hon : (h.get k).isOn = true) : (h.turnOff l k).blanking = some 300 := by
  unfold Heater.turnOff
  rw [if_pos hon]

/-- The selection begins no diagnosis. -/
theorem Heater.applySelection_undiagnosed (a : Nat) (bars : TurnOnBars) (hd : h.diagnosis = false) :
    (h.applySelection a bars).diagnosis = false := by
  have hdrop {g : Heater} (x : Selection) (k : ElemId) (hg : g.diagnosis = false) : (g.dropUnselected x k).diagnosis = false := by
    unfold Heater.dropUnselected
    split
    · exact Heater.turnOff_undiagnosed _ _ hg
    · exact hg
  have htake {g : Heater} (x : Selection) (k : ElemId) (hg : g.diagnosis = false) :
      (g.takeSelected a bars x k).diagnosis = false := by
    by_cases on : g.TurnsOn a bars x k
    · rw [Heater.takeSelected_on on]
      cases k <;> exact hg
    · rwa [Heater.takeSelected_off on]
  exact htake _ _ (htake _ _ (hdrop _ _ (hdrop _ _ hd)))

/-- While E2 is held out by the diagnosis, an E1 that is on and fits stays the selection. -/
theorem Heater.applySelection_diagnosing {a : Nat} {bars : TurnOnBars} (hflag : h.thermostat = true) (hd : h.diagnosis = true)
    (h1 : h.e1.state = .on) (h2 : h.e2.state = .off) (hpos : 0 < h.e1.rated) (hfits : h.e1.rated ≤ a) :
    h.applySelection a bars = h := by
  have havail : h.available .e2 = false := by simp [Heater.available, hd]
  have f1 : h.fitsAlone a .e1 = true := by simp [Heater.fitsAlone, Heater.available, Heater.get, h1, hpos, hfits]
  have f2 : h.fitsAlone a .e2 = false := by simp [Heater.fitsAlone, havail]
  have hsel : h.selection a = ⟨true, false⟩ := by simp [Heater.selection, hflag, havail, Heater.single, f1, f2]
  have hoff : (h.get .e2).isOn = false := (Element.isOn_false h.e2).mpr (by rw [h2]; simp)
  have hdropped : h.dropped a = h := by
    rw [Heater.dropped, hsel, Heater.dropUnselected_kept (k := .e1) (.inl rfl), Heater.dropUnselected_off hoff]
  have hno1 : ¬ h.TurnsOn a bars ⟨true, false⟩ .e1 := fun on => by
    have hstate : h.e1.state = .off := on.off
    rw [h1] at hstate
    cases hstate
  have hno2 : ¬ h.TurnsOn a bars ⟨true, false⟩ .e2 := fun on => by cases on.selected
  rw [Heater.applySelection_eq, hdropped, hsel, Heater.takeSelected_off hno1, Heater.takeSelected_off hno2]

/-! ## The heater at the check, its elements cool and within the allowance -/

/-- The figures that the check judges. -/
structure HcJudged (x : SampleSet) (s : State) (h : Heater) : Prop where
  on1 : h.e1.isOn = s.hc.e1.isOn
  on2 : h.e2.isOn = s.hc.e2.isOn
  cause1 : h.e1.cause = s.hc.e1.cause
  cause2 : h.e2.cause = s.hc.e2.cause
  rated1 : h.e1.rated = x.vBus * x.vBus / (10 * s.cfg.resE1)
  current1 : h.e1.current = x.vBus * 100 / s.cfg.resE1
  current2 : h.e2.current = x.vBus * 100 / s.cfg.resE2
  blanking : h.blanking = s.hc.blanking
  diagnosis : h.diagnosis = s.hc.diagnosis
  thermostat : h.thermostat = true

theorem Element.tempTaken_isOn {r : TempReading} (e : Element) (hcool : hotAfter r e.hot = false) :
    (e.tempTaken r).isOn = e.isOn := by
  rw [Bool.eq_iff_iff, Element.isOn_iff, Element.isOn_iff]
  cases hs : e.state <;> simp [Element.tempTaken, hcool, hs]

theorem hcFitted_judged (h1 : hotAfter x.tEl1 s.hc.e1.hot = false) (h2 : hotAfter x.tEl2 s.hc.e2.hot = false)
    (hr : x.tPack.mark ≠ .missing) (hmode : s.hc.mode = true) (hthermo : s.hc.thermostat = true)
    (hcold : x.tPack.value < s.hc.target)
    (hfits : x.vBus * x.vBus / (10 * s.cfg.resE1) + x.vBus * x.vBus / (10 * s.cfg.resE2) ≤ s.pc.aH) :
    HcJudged x s (hcFitted x s) := by
  have hset := Heater.takeSet_cool (i := s.cfg) h1 h2
  have hsum : (s.hc.takeSet s.cfg x).hOn ≤ s.pc.aH := by
    refine (s.hc.takeSet_hOn_le s.cfg x).trans (le_trans (Nat.add_le_add ?_ ?_) hfits)
    all_goals split
    · exact le_rfl
    · exact Nat.zero_le _
    · exact le_rfl
    · exact Nat.zero_le _
  have hfitted := hcFitted_valued hr hsum
  have hflag : (hcFitted x s).thermostat = true := by
    rw [← (hcTake_requested x s).thermostat]
    exact (hcTake_flags x s).1.mpr ⟨hmode, hr, hcold, .inr hthermo⟩
  rw [hset] at hfitted
  refine ⟨?_, ?_, ?_, ?_, ?_, ?_, ?_, ?_, ?_, hflag⟩
  all_goals rw [hfitted]
  · exact Element.tempTaken_isOn (s.hc.e1.rate _ _) h1
  · exact Element.tempTaken_isOn (s.hc.e2.rate _ _) h2
  all_goals rfl

theorem hcTake_elements (x : SampleSet) (s : State) : (hcChecked x s).All Element.Turned (hcTake x s).hc := by
  intro k
  rw [hcTake_hc, Heater.startConnection_get]
  exact Heater.applySelection_turned _ _ _ k

/-- The element that the check has disabled with cause OPEN. -/
theorem hcTake_disabled {c : ElemCause} {g : Heater} (hc : (hcChecked x s).get k = (g.disable c k).get k) :
    ((hcTake x s).hc.get k).state = .disabled ∧ ((hcTake x s).hc.get k).cause = c := by
  have hturned := hcTake_elements x s k
  rw [hc] at hturned
  obtain ⟨hstate, hcause⟩ := g.disable_get c k
  exact ⟨hturned.disabled hstate, hturned.cause.trans hcause⟩

theorem hcTake_undiagnosed (hd : (hcChecked x s).diagnosis = false) : (hcTake x s).hc.diagnosis = false := by
  obtain ⟨-, -, -, -, hdiag, -⟩ := ((hcChecked x s).applySelection s.pc.aH (barsNow s)).startConnection_elements (barsNow s)
  rw [hcTake_hc, hdiag]
  exact Heater.applySelection_undiagnosed _ _ hd

end

/-- Settles O26. -/
theorem currentCheckFindsTheFaultyElement : Obligations.CurrentCheckFindsTheFaultyElement := by
  intro s x hs hx hdue cool p1 p2 expected cool1 cool2 hr hmode hthermo hcold hp1 hp2 hfits hany runs low high
  refine ⟨_, exec_hcSampleTaking hs hx hdue, ?_⟩
  obtain ⟨u, hu⟩ : ∃ u, u = s.onFe FrontEnd.hcTook := ⟨_, rfl⟩
  have huhc : u.hc = s.hc := by rw [hu]; rfl
  have hupc : u.pc = s.pc := by rw [hu]; rfl
  have hucfg : u.cfg = s.cfg := by rw [hu]; rfl
  have huse : u.se = s.se := by rw [hu]; rfl
  have huports : u.ports = s.ports := by rw [hu]; rfl
  have hcoolAfter {r : TempReading} {e : Element} (hc : cool r e) : hotAfter r e.hot = false := by
    obtain ⟨hm, hv⟩ := hc
    refine Bool.eq_false_iff.mpr fun hhot => ?_
    rcases (hotAfter_iff r e.hot).mp hhot with h | h | ⟨h, ho⟩
    · exact hm h
    · omega
    · rcases hv with hv | ⟨-, hv⟩
      · omega
      · rw [hv] at ho
        cases ho
  have judged : HcJudged x u (hcFitted x u) := by
    refine hcFitted_judged ?_ ?_ hr ?_ ?_ ?_ ?_
    · rw [huhc]; exact hcoolAfter cool1
    · rw [huhc]; exact hcoolAfter cool2
    · rw [huhc]; exact hmode
    · rw [huhc]; exact hthermo
    · rw [huhc]; exact hcold
    · rw [hucfg, hupc]; exact hfits
  rw [← hu]
  obtain ⟨h, hh⟩ : ∃ h, h = hcFitted x u := ⟨_, rfl⟩
  have hchecked : hcChecked x u = h.checked x.vBus x.iHeat := by rw [hh]; rfl
  obtain ⟨on1, on2, cause1, cause2, rated1, current1, current2, blanking, diagnosis, hflag⟩ := hh ▸ judged
  rw [huhc] at on1 on2 cause1 cause2 blanking diagnosis
  rw [hucfg] at rated1 current1 current2
  have hon : h.anyOn = true := by
    rw [Heater.anyOn, on1, on2, Bool.or_eq_true]
    exact hany
  have hexpected : h.expected = expected := by
    rw [Heater.expected, on1, on2, current1, current2]
  have hcheck (hruns : runs) : h.check x.vBus x.iHeat = if low then .low else if high then .high else .pass := by
    rw [Heater.check_runs hon (blanking.trans hruns.1) hruns.2, hexpected]
  have hevent (hfinds : h.finds x.vBus x.iHeat = true) : Raised .heater (hcTake x u) ∧ Fired .heaterEvent s (hcTake x u) := by
    obtain ⟨hraised, hfired⟩ := hcTake_event (s := u) (x := x) (hh ▸ hfinds)
    refine ⟨hraised, ?_⟩
    unfold Fired at hfired ⊢
    rwa [huse] at hfired
  have hsilent (hfinds : h.finds x.vBus x.iHeat = false) : (hcTake x u).ports = s.ports ∧ (hcTake x u).se = s.se := by
    obtain ⟨hports, hse⟩ := hcTake_silent (s := u) (x := x) hr (hh ▸ hfinds)
    exact ⟨hports.trans huports, hse.trans huse⟩
  refine ⟨fun hruns hhigh => ?_, fun hruns hlow h1 h2 => ?_, fun hruns hlow h1 h2 => ?_, fun hruns hlow h1 => ?_,
    fun hruns hlow hhigh hd => ?_, fun hquiet => ?_⟩
  · have hc : h.check x.vBus x.iHeat = .high := by
      rw [hcheck hruns, if_neg (by show ¬ 4 * x.iHeat < 3 * expected; have : 5 * expected < 4 * x.iHeat := hhigh; omega),
        if_pos hhigh]
    rw [Heater.checked_high hc] at hchecked
    have hdisabled (k : ElemId) := h.overcurrent_get k
    have hhc : (hcTake x u).hc = h.overcurrent.startConnection (barsNow u) := by
      rw [hcTake_hc, hchecked, Heater.applySelection_disabled fun k => (hdisabled k).1]
    obtain ⟨hraised, hfired⟩ := hevent (Heater.finds_high hc)
    obtain ⟨-, -, -, -, hdiag, -⟩ := h.overcurrent.startConnection_elements (barsNow u)
    refine ⟨fun k => ?_, ?_, fun hleg => ?_, hraised, hfired⟩
    · rw [hhc, Heater.startConnection_get]
      exact hdisabled k
    · rw [hhc, hdiag]
      rfl
    · have hleg' : h.leg = s.hc.leg := by rw [hh, (hcFitted_leg x u).1, huhc]
      obtain ⟨hopen, -, hsettle, -⟩ := Heater.overcurrent_closed (h := h) (by rw [hleg']; exact hleg.symm)
      rw [hhc, Heater.startConnection_other (.inr (by rw [hsettle]; simp))]
      exact ⟨hopen, hsettle⟩
  · have hc : h.check x.vBus x.iHeat = .low := by rw [hcheck hruns, if_pos hlow]
    obtain ⟨hdone, hfinds⟩ := Heater.low_both hc (on1.trans h1) (on2.trans h2)
    rw [hdone] at hchecked
    obtain ⟨hports, hse⟩ := hsilent hfinds
    have he2 : h.beginDiagnosis.e2 = { h.e2 with state := .off, dwell := 0 } := by
      have hget := Heater.turnOff_get_on (h := h) (l := .off) (k := .e2) (on2.trans h2)
      exact hget
    have he1 : h.beginDiagnosis.e1 = h.e1 := Heater.turnOff_e2_e1 .off h
    have hblank : h.beginDiagnosis.blanking = some 300 := Heater.turnOff_blanks (k := .e2) (on2.trans h2)
    have hstate : h.e1.state = .on := (Element.isOn_iff _).mp (on1.trans h1)
    have hthermo' : h.beginDiagnosis.thermostat = true := (h.turnOff_switched .off .e2).thermostat.trans hflag
    have hselected : h.beginDiagnosis.applySelection u.pc.aH (barsNow u) = h.beginDiagnosis := by
      refine Heater.applySelection_diagnosing hthermo' rfl (by rw [he1, hstate]) (by rw [he2]) ?_ ?_
      · rw [he1, rated1]
        exact hp1
      · rw [he1, rated1, hupc]
        exact (Nat.le_add_right p1 p2).trans hfits
    obtain ⟨g1, g2, gb, -, gd, -⟩ := h.beginDiagnosis.startConnection_elements (barsNow u)
    rw [hcTake_hc, hchecked, hselected, g1, g2, gb, gd, he1, he2]
    exact ⟨on1.trans h1, rfl, rfl, rfl, hblank, hports, hse⟩
  · have hc : h.check x.vBus x.iHeat = .low := by rw [hcheck hruns, if_pos hlow]
    obtain ⟨hdone, hfinds⟩ := Heater.low_e1 hc (on1.trans h1) (on2.trans h2)
    rw [hdone] at hchecked
    obtain ⟨hstate, hcause⟩ := hcTake_disabled (k := .e1) (by rw [hchecked, Heater.get_diagnosed])
    obtain ⟨hraised, hfired⟩ := hevent hfinds
    exact ⟨hstate, hcause, hcTake_undiagnosed (by rw [hchecked]), hraised, hfired⟩
  · have hc : h.check x.vBus x.iHeat = .low := by rw [hcheck hruns, if_pos hlow]
    obtain ⟨hdone, hfinds⟩ := Heater.low_e2 hc (on1.trans h1)
    rw [hdone] at hchecked
    obtain ⟨hstate, hcause⟩ := hcTake_disabled (k := .e2) (by rw [hchecked])
    exact ⟨hstate, hcause, hevent hfinds⟩
  · have hc : h.check x.vBus x.iHeat = .pass := by rw [hcheck hruns, if_neg hlow, if_neg hhigh]
    obtain ⟨hdone, hfinds⟩ := Heater.pass_diagnosed hc (diagnosis.trans hd)
    rw [hdone] at hchecked
    obtain ⟨hstate, hcause⟩ := hcTake_disabled (k := .e2) (by rw [hchecked, Heater.get_diagnosed])
    obtain ⟨hraised, hfired⟩ := hevent hfinds
    exact ⟨hstate, hcause, hcTake_undiagnosed (by rw [hchecked]), hraised, hfired⟩
  · have hrests : h.checked x.vBus x.iHeat = h ∧ h.finds x.vBus x.iHeat = false := by
      by_cases hruns : runs
      · obtain ⟨hlow, hhigh, hd⟩ := hquiet.resolve_left (not_not.mpr hruns)
        exact Heater.pass_plain (by rw [hcheck hruns, if_neg hlow, if_neg hhigh]) (diagnosis.trans hd)
      · have hc : h.check x.vBus x.iHeat = .notRun := Heater.check_rests (by rw [blanking]; exact hruns)
        exact ⟨Heater.checked_notRun hc, Heater.finds_notRun hc⟩
    obtain ⟨hports, hse⟩ := hsilent hrests.2
    rw [hrests.1] at hchecked
    have t1 := (hcTake_elements x u .e1).cause
    have t2 := (hcTake_elements x u .e2).cause
    rw [hchecked] at t1 t2
    exact ⟨t1.trans cause1, t2.trans cause2, hports, hse⟩

end Sys2Proof.Machine

/-! PROOFS. The end of a warm reset: what it writes of the ports and the snapshot engine, the tables it applies, the ABORTED
close (R36, R125, R130, R145, R164, R176, R188). -/

namespace Sys2Proof.Machine

set_option Elab.async false

/-! ## Signals: notice flags and the pending set -/

/-- Of a port unit only the notice flags may differ, of the snapshot engine the pending set and the missed counts. -/
structure Signalled (s t : State) : Prop where
  ports : ∀ p, t.ports.get p = { s.ports.get p with flags := (t.ports.get p).flags }
  se : t.se = { s.se with waiting := t.se.waiting, missed := t.se.missed }

namespace Signalled
variable {s t u : State}

theorem of_eq (hports : t.ports = s.ports) (hse : t.se = s.se) : Signalled s t := by
  refine ⟨fun p => ?_, ?_⟩
  · rw [hports]
  · rw [hse]

theorem of_touches {bs : List Block} (h : Touches bs s t) (hports : bs.contains .ports = false := by rfl)
    (hse : bs.contains .se = false := by rfl) : Signalled s t := of_eq (h.ports_eq hports) (h.se_eq hse)

theorem trans (h : Signalled s t) (h' : Signalled t u) : Signalled s u := by
  refine ⟨fun p => ?_, ?_⟩
  · rw [h'.ports p, h.ports p]
  · rw [h'.se, h.se]

theorem ite {c : Prop} [Decidable c] (h : Signalled s t) (h' : Signalled s u) : Signalled s (if c then t else u) := by
  split
  · exact h
  · exact h'

end Signalled

section
variable (s : State)

theorem raiseAll_signalled (n : Notice) : Signalled s (raiseAll n s) :=
  ⟨fun p => by rw [raiseAll_get]; rfl, rfl⟩

theorem refreshStream_signalled : Signalled s (refreshStream s) := ⟨fun p => by cases p <;> rfl, rfl⟩

theorem occur_signalled (src : Source) : Signalled s (occur src s) := by
  show Signalled s (occurFrom none src s)
  cases h : occurOutcome src s with
  | disabled =>
    rw [occurFrom_disabled s h]
    exact .of_eq rfl rfl
  | pended =>
    rw [occurFrom_pended s h]
    have hstamped : Signalled s (stamped s) := .of_touches (stamped_touches s)
    exact hstamped.trans ⟨fun _ => rfl, rfl⟩
  | missed =>
    rw [occurFrom_missed s h]
    have hcount : Signalled s (s.onSe fun e =>
        { e with missed := vput e.missed src.code (satAdd 255 (e.missed.get src.code) 1) }) := ⟨fun _ => rfl, rfl⟩
    exact hcount.trans (raiseAll_signalled _ _)

/-- An occurrence that finds its source not pending is not missed. -/
theorem occur_missed {src : Source} (h : s.se.waiting.get src.code = none) : (occur src s).se.missed = s.se.missed := by
  show (occurFrom none src s).se.missed = _
  cases ho : occurOutcome src s with
  | disabled => rw [occurFrom_disabled s ho]
  | pended =>
    rw [occurFrom_pended s ho]
    show (stamped s).se.missed = _
    rw [stamped_se]
  | missed =>
    have hsome := ((occurOutcome_eq_missed s).mp ho).2
    rw [h] at hsome
    cases hsome

theorem applyStaged_signalled (k : Payer) : Signalled s (applyStaged k s) := by
  cases h : (s.ct.kind k).staged with
  | none =>
    rw [applyStaged_of_none s h]
    exact .of_eq rfl rfl
  | some tab =>
    rw [applyStaged_of_some s h]
    have hct : Signalled s (s.onCt fun c => c.putKind k ⟨some tab, none, ((c.kind k).generation + 1) % 65536⟩) := .of_eq rfl rfl
    exact (hct.trans (raiseAll_signalled _ _)).trans (occur_signalled _ _)

/-- An offer to BILLING is an append or nothing. -/
theorem offer_billing_cases (rec : Record) : offer .billing rec s = s ∨ ∃ j, offer .billing rec s = appendRecord .billing rec j s := by
  cases hj : s.rs.billing.join with
  | none => exact .inl (offer_of_unjoined (st := .billing) rec hj)
  | some j =>
    by_cases hroom : j.count < (s.rs.area j.area).count
    · exact .inr ⟨j, offer_of_room (st := .billing) rec hj hroom⟩
    · exact .inl (offer_of_full (st := .billing) rec hj hroom)

theorem offer_billing_signalled (rec : Record) : Signalled s (offer .billing rec s) := by
  rcases offer_billing_cases s rec with h | ⟨j, h⟩
  · rw [h]
    exact .of_eq rfl rfl
  · rw [h]
    exact .trans (.of_touches (onRs_touches s _)) (refreshStream_signalled _)

theorem offer_billing_areas (rec : Record) : (offer .billing rec s).rs.areas = s.rs.areas := by
  rcases offer_billing_cases s rec with h | ⟨j, h⟩
  · rw [h]
  · rw [h]
    exact Store.putStream_areas _ _ _

theorem placeRecord_signalled (r : BillingRecord) : Signalled s (placeRecord r s) := by
  unfold placeRecord
  refine .ite (offer_billing_signalled _ _) (.ite ?_ (.of_eq rfl rfl))
  exact .trans (.of_touches (onCt_touches s _)) (raiseAll_signalled _ _)

theorem recorded_signalled (r : BillingRecord) : Signalled s (recorded r s) := by
  have hcost : Signalled s (costed s) := .of_touches (costed_touches s)
  have hkept : Signalled s ((costed s).onCt fun c => { c with finalRecord := some r }) := hcost.trans (.of_eq rfl rfl)
  unfold recorded
  exact .ite (hcost.trans (placeRecord_signalled _ _)) (hkept.trans (raiseAll_signalled _ _))

variable (reason : BillingReason) (lockout : Bool)

theorem realClose_signalled (i : Interval) : Signalled s (realClose reason lockout i s) := by
  rw [realClose_eq]
  exact ((recorded_signalled s _).trans (occur_signalled _ _)).trans (applyStaged_signalled _ _)

theorem finalClose_signalled : Signalled s (finalClose reason lockout s) := by
  cases h : s.ct.interval with
  | none =>
    rw [finalClose_of_none _ _ h]
    exact .of_eq rfl rfl
  | some i =>
    rw [finalClose_of_some _ _ h]
    have hended : Signalled s (accrualEnded s) := .of_eq rfl rfl
    exact (hended.trans (realClose_signalled _ reason lockout i)).trans (.of_eq rfl rfl)

variable {s}

theorem rested_of_open (h : s.sc.state ≠ .closing) : rested s = s := if_neg h

theorem sessionEnd_away (h : s.sc.state ≠ .closing) : Tells [.session, .capture] [.sessionClosed] s (sessionEnd s) := by
  have htells := sessionEnd_rest_tells s
  rwa [rested_of_open h] at htells

theorem answerClose_away (h : s.sc.state ≠ .closing) : Tells [.session, .capture] [.sessionClosed] s (answerClose s) := by
  unfold answerClose
  exact .ite (sessionEnd_away h) (((Tells.of_touches (onSc_touches s _)).step (raiseAll_tells _ _)))

theorem answerClose_signalled (h : s.sc.state ≠ .closing) : Signalled s (answerClose s) := by
  unfold answerClose
  refine .ite ?_ (.trans (.of_touches (onSc_touches s _)) (raiseAll_signalled _ _))
  rw [sessionEnd_eq, rested_of_open h]
  exact .trans (.trans (.of_touches (onSc_touches s _)) (raiseAll_signalled _ _)) (occur_signalled _ _)

/-! ## Sources that fire once are not missed -/

/-- INTERVAL_CLOSED fires once at a final close. -/
theorem finalClose_missed (h : s.se.waiting.get (Source.code .intervalClosed) = none) :
    (finalClose reason lockout s).se.missed.get (Source.code .intervalClosed) = s.se.missed.get (Source.code .intervalClosed) := by
  cases hi : s.ct.interval with
  | none => rw [finalClose_of_none _ _ hi]; rfl
  | some i =>
    rw [finalClose_of_some _ _ hi, State.onCt_se, realClose_eq]
    obtain ⟨u, hu⟩ : ∃ u, u = recorded (formRecord reason lockout i (accrualEnded s)) (accrualEnded s) := ⟨_, rfl⟩
    have huse : u.se = s.se := hu ▸ (recorded_touches _ (accrualEnded s)).se_eq
    rw [← hu, ((applyStaged_tells _ _).still .intervalClosed (by decide)).2, occur_missed u (by rw [huse]; exact h), huse]

/-- SESSION_CLOSED fires once at an answer. -/
theorem answerClose_missed (hstate : s.sc.state ≠ .closing) (h : s.se.waiting.get (Source.code .sessionClosed) = none) :
    (answerClose s).se.missed.get (Source.code .sessionClosed) = s.se.missed.get (Source.code .sessionClosed) := by
  unfold answerClose
  split
  · rw [sessionEnd_eq, rested_of_open hstate]
    refine (congrArg (fun m => m.get (Source.code .sessionClosed)) (occur_missed _ ?_)).trans ?_
    · exact h
    · rfl
  · rfl

/-! ## Every staged table is applied (R130) -/

/-- Since `s` the tables of each kind stand, or a staged one has been applied and told of. -/
def TablesTold (s t : State) : Prop := ∀ k, t.ct.kind k = s.ct.kind k ∨
  (t.ct.kind k = (s.ct.kind k).applied ∧ ((s.ct.kind k).staged ≠ none → Raised .tariff t ∧ Fired .tariffApplied s t))

theorem applyStaged_kind (k k' : Payer) : (applyStaged k s).ct.kind k' =
    if k' = k then (s.ct.kind k').applied else s.ct.kind k' := by
  rw [applyStaged_ct_eq]
  split
  · next h => rw [h, ClockTariff.kind_putKind_self]
  · next h => rw [ClockTariff.kind_putKind_other _ _ h]

theorem TariffKind.applied_applied (x : TariffKind) : x.applied.applied = x.applied :=
  TariffKind.applied_of_none x.applied_staged

/-- A record placed or kept at a close tells of the payer's table. -/
theorem finalClose_told : TablesTold s (finalClose reason lockout s) := by
  intro k
  cases h : s.ct.interval with
  | none =>
    rw [finalClose_of_none _ _ h]
    exact .inl rfl
  | some i =>
    obtain ⟨-, -, -, -, hstaged, hother, hnone⟩ := finalClose_placed (s := s) reason lockout h
    by_cases hk : k = s.sc.record.payer
    · subst hk
      cases htab : (s.ct.kind s.sc.record.payer).staged with
      | none => exact .inl (hnone htab)
      | some tab =>
        obtain ⟨happlied, hraised, hfired⟩ := hstaged tab htab
        exact .inr ⟨happlied.trans (TariffKind.applied_of_some htab).symm, fun _ => ⟨hraised, hfired⟩⟩
    · exact .inl (hother k hk)

/-- One kind applied after another operation. -/
theorem TablesTold.applyStaged {t : State} {ns : List Notice} {srcs : List Source} (told : TablesTold s t)
    (tells : Tells ns srcs s t) (k : Payer) : TablesTold s (applyStaged k t) ∧
      ((applyStaged k t).ct.kind k = (s.ct.kind k).applied ∧
        ((s.ct.kind k).staged ≠ none → Raised .tariff (Machine.applyStaged k t) ∧ Fired .tariffApplied s (Machine.applyStaged k t))) := by
  have hlater := applyStaged_tells t k
  have hown : (Machine.applyStaged k t).ct.kind k = (s.ct.kind k).applied ∧ ((s.ct.kind k).staged ≠ none →
      Raised .tariff (Machine.applyStaged k t) ∧ Fired .tariffApplied s (Machine.applyStaged k t)) := by
    rw [applyStaged_kind, if_pos rfl]
    rcases told k with hsame | ⟨happlied, htold⟩
    · rw [hsame]
      refine ⟨rfl, fun hstaged => ?_⟩
      obtain ⟨tab, htab⟩ := Option.ne_none_iff_exists'.mp hstaged
      have htab' : (t.ct.kind k).staged = some tab := by rw [hsame]; exact htab
      exact ⟨applyStaged_raised t htab', tells.fired_since (applyStaged_fired t htab')⟩
    · rw [happlied, TariffKind.applied_applied]
      exact ⟨rfl, fun hstaged => ⟨hlater.raised_of (htold hstaged).1, hlater.fired_of (htold hstaged).2⟩⟩
  refine ⟨fun k' => ?_, hown⟩
  by_cases hk : k' = k
  · subst hk
    exact .inr hown
  · rw [applyStaged_kind, if_neg hk]
    rcases told k' with hsame | ⟨happlied, htold⟩
    · exact .inl hsame
    · exact .inr ⟨happlied, fun hstaged => ⟨hlater.raised_of (htold hstaged).1, hlater.fired_of (htold hstaged).2⟩⟩

/-! ## What a final close leaves of the clock unit -/

theorem recorded_ct (r : BillingRecord) (s : State) : (recorded r s).ct = { s.ct with
    reported := (s.ct.cost + 500) / 1000, held := (recorded r s).ct.held, finalRecord := (recorded r s).ct.finalRecord } := by
  cases hroom : billingRoom s with
  | true => rw [(recorded_of_room hroom).2]; rfl
  | false =>
    cases hheld : s.ct.held with
    | none => rw [(recorded_of_slot hroom hheld).2.1]; rfl
    | some x =>
      rw [(recorded_kept ((not_placeable_iff s).mpr ⟨hroom, by simp [hheld]⟩)).2.1]
      rfl

theorem finalClose_ct {i : Interval} (h : s.ct.interval = some i) : (finalClose reason lockout s).ct = { s.ct with
    station := (finalClose reason lockout s).ct.station
    fleet := (finalClose reason lockout s).ct.fleet
    interval := none
    reported := (s.ct.cost + 500) / 1000
    held := (finalClose reason lockout s).ct.held
    finalRecord := (finalClose reason lockout s).ct.finalRecord } := by
  have hreal := realClose_tablesOnly reason lockout i (accrualEnded s)
  have hrec := recorded_ct (formRecord reason lockout i (accrualEnded s)) (accrualEnded s)
  rw [finalClose_of_some _ _ h, State.onCt_ct]
  obtain ⟨c, hc⟩ : ∃ c, c = (realClose reason lockout i (accrualEnded s)).ct := ⟨_, rfl⟩
  obtain ⟨d, hd⟩ : ∃ d, d = (recorded (formRecord reason lockout i (accrualEnded s)) (accrualEnded s)).ct := ⟨_, rfl⟩
  rw [← hc, ← hd] at hreal
  rw [← hd] at hrec
  rw [← hc, hreal, hrec]
  rfl

end

end Sys2Proof.Machine

/-! PROOFS. RESET_N rising: the warm values and the ABORTED close (R36, R55, R77, R107, R125, R130, R145, R147, R164, R176,
R188). -/

namespace Sys2Proof.Machine

set_option Elab.async false

/-! ## The ABORTED close (R36, R145) -/

section
variable {s : State}

theorem abortedClose_of_none (h : s.ct.interval = none) :
    abortedClose s = markFinal (fun r => { r with aborted := true }) s := by
  rw [abortedClose, h]
  rfl

theorem abortedClose_of_some {i : Interval} (h : s.ct.interval = some i) :
    abortedClose s = answerClose (finalClose .aborted false s) := by
  rw [abortedClose, h]
  rfl

/-- Nothing of a session stands but what the ABORTED close may still have to end: the state after the warm values. -/
structure AtRest (s : State) : Prop where
  state : s.sc.state ≠ .closing
  session : s.sc = { s.sc with hold := .empty, gate := false, commandZero := false, record := { s.sc.record with pause := false } }
  accruing : s.ea.accruing = false
  waiting : ∀ k, s.se.waiting.get k = none
  missed : ∀ k, s.se.missed.get k = 0

/-- What the ABORTED close leaves, with an interval in progress or without. -/
structure Aborted (s t : State) : Prop where
  frame : Touches [.sc, .ea, .ct, .rs, .ports, .se, .free] s t
  signalled : Signalled s t
  tells : Tells [.session, .stream, .billing, .tariff, .capture] [.intervalClosed, .tariffApplied, .sessionClosed] s t
  told : TablesTold s t
  missed : t.se.missed.get (Source.code .intervalClosed) = 0 ∧ t.se.missed.get (Source.code .sessionClosed) = 0
  clock : t.ct = { s.ct with
    station := t.ct.station
    fleet := t.ct.fleet
    interval := none
    reported := if s.ct.interval.isSome then (s.ct.cost + 500) / 1000 else s.ct.reported
    held := t.ct.held
    finalRecord := t.ct.finalRecord }
  session : t.sc = { s.sc with
    finalPending := if s.ct.interval.isSome then t.ct.finalRecord.isSome else s.sc.finalPending }
  account : t.ea = s.ea
  areas : t.rs.areas = s.rs.areas

/-- A clock unit without an interval. -/
theorem ClockTariff.pended {c : ClockTariff} (h : c.interval = none) (x : Option BillingRecord) :
    { c with finalRecord := x } = { c with interval := none, finalRecord := x } := by rw [← h]

theorem abortedClose_unopened (rest : AtRest s) (h : s.ct.interval = none) : Aborted s (abortedClose s) := by
  rw [abortedClose_of_none h]
  have hframe := markFinal_touches (fun r => { r with aborted := true }) s
  refine ⟨hframe.mono, .of_touches hframe, .of_touches hframe, fun k => .inl (by cases k <;> rfl), ⟨rest.missed _, rest.missed _⟩,
    ?_, ?_, rfl, rfl⟩
  · rw [h]
    exact ClockTariff.pended h _
  · rw [h]
    rfl

/-- A session answered for outside CLOSING keeps its state and its record. -/
theorem answerClose_rested (state : s.sc.state ≠ .closing)
    (session : s.sc = { s.sc with
      hold := .empty, gate := false, commandZero := false, record := { s.sc.record with pause := false } }) :
    (answerClose s).sc = { s.sc with finalPending := s.ct.finalRecord.isSome } := by
  cases hf : s.ct.finalRecord with
  | none =>
    rw [answerClose_of_none hf, sessionEnd_sc, if_neg state]
    obtain ⟨c, hc⟩ : ∃ c, c = s.sc := ⟨_, rfl⟩
    rw [← hc] at session ⊢
    rw [session]
    rfl
  | some r =>
    rw [answerClose_of_some (by rw [hf]; rfl)]
    rfl

theorem abortedClose_opened (rest : AtRest s) {i : Interval} (h : s.ct.interval = some i) : Aborted s (abortedClose s) := by
  rw [abortedClose_of_some h]
  have hframe := finalClose_touches .aborted false s
  have hct := finalClose_ct .aborted false h
  have hea : (finalClose .aborted false s).ea = { s.ea with accruing := false } := finalClose_ea _ _
  have htells := finalClose_tells .aborted false (s := s)
  have hmissed := finalClose_missed .aborted false (s := s) (rest.waiting _)
  have hsignalled := finalClose_signalled s .aborted false
  have htold := finalClose_told .aborted false (s := s)
  have hplaced := finalClose_placed .aborted false h
  have hkept := finalClose_keeps .aborted false h
  obtain ⟨u, hu⟩ : ∃ u, u = finalClose .aborted false s := ⟨_, rfl⟩
  rw [← hu] at hframe hct hea htells hmissed hsignalled htold hplaced hkept ⊢
  have husc : u.sc = s.sc := hframe.sc_eq
  have hstate : u.sc.state ≠ .closing := by rw [husc]; exact rest.state
  have haway := answerClose_touches_away hstate
  have hclosed := htells.still .sessionClosed (by decide)
  have hct' : (answerClose u).ct = u.ct := haway.ct_eq
  have hareas : u.rs.areas = s.rs.areas := by
    cases hplace : placeable s with
    | false => rw [(hkept hplace).1]
    | true =>
      cases hroom : billingRoom s with
      | true => rw [(hplaced.stream hroom).1, offer_billing_areas]
      | false => rw [(hplaced.slot hroom (((placeable_iff s).mp hplace).resolve_left (by rw [hroom]; simp))).1]
  refine ⟨(hframe.mono).step haway, hsignalled.trans (answerClose_signalled hstate),
    (htells.mono).step (answerClose_away hstate), fun k => ?_, ⟨?_, ?_⟩, ?_, ?_, ?_, ?_⟩
  · rw [hct']
    rcases htold k with hsame | ⟨happlied, hk⟩
    · exact .inl hsame
    · exact .inr ⟨happlied, fun hstaged => ⟨(answerClose_away hstate).raised_of (hk hstaged).1,
        (answerClose_away hstate).fired_of (hk hstaged).2⟩⟩
  · rw [((answerClose_away hstate).still .intervalClosed (by decide)).2, hmissed, rest.missed]
  · rw [answerClose_missed hstate (by rw [hclosed.1, rest.waiting]), hclosed.2, rest.missed]
  · rw [hct', h]
    exact hct
  · rw [answerClose_rested hstate (by rw [husc]; exact rest.session), husc, hct', h]
    rfl
  · rw [haway.ea_eq, hea]
    obtain ⟨a, ha⟩ : ∃ a, a = s.ea := ⟨_, rfl⟩
    have hacc := rest.accruing
    rw [← ha] at hacc ⊢
    rw [← hacc]
  · rw [haway.rs_eq, hareas]

theorem abortedClose_aborted (rest : AtRest s) : Aborted s (abortedClose s) := by
  cases h : s.ct.interval with
  | none => exact abortedClose_unopened rest h
  | some i => exact abortedClose_opened rest h

/-! ## The record of the ABORTED close -/

/-- Where the ABORTED record of interval `i` stands. -/
structure AbortedPlaced (i : Interval) (s t : State) : Prop where
  session : Raised .session t
  fired : Fired .intervalClosed s t
  room : billingRoom s = true → t.rs = (offer .billing (.billing (formRecord .aborted false i s)) s).rs ∧
    t.ct.held = s.ct.held ∧ t.ct.finalRecord = s.ct.finalRecord
  full : billingRoom s = false → t.rs = s.rs ∧ Raised .billing t
  slot : billingRoom s = false → s.ct.held = none →
    t.ct.held = some (formRecord .aborted false i s) ∧ t.ct.finalRecord = s.ct.finalRecord
  kept : billingRoom s = false → s.ct.held ≠ none →
    t.ct.held = s.ct.held ∧ t.ct.finalRecord = some (formRecord .aborted false i s)
  closed : t.ct.finalRecord = none → Fired .sessionClosed s t

theorem abortedClose_placed (rest : AtRest s) {i : Interval} (h : s.ct.interval = some i) :
    AbortedPlaced i s (abortedClose s) := by
  rw [abortedClose_of_some h]
  have hframe := finalClose_touches .aborted false s
  have htells := finalClose_tells .aborted false (s := s)
  have hplaced := finalClose_placed .aborted false h
  have hkept := finalClose_keeps .aborted false h
  have hfinal : (finalClose .aborted false s).ct.finalRecord =
      if placeable s then s.ct.finalRecord else some (formRecord .aborted false i s) := by
    rw [finalClose_finalRecord, h]
  obtain ⟨u, hu⟩ : ∃ u, u = finalClose .aborted false s := ⟨_, rfl⟩
  rw [← hu] at hframe htells hplaced hkept hfinal ⊢
  have hstate : u.sc.state ≠ .closing := by rw [hframe.sc_eq]; exact rest.state
  have haway := answerClose_touches_away hstate
  have hafter := answerClose_away hstate
  have hct : (answerClose u).ct = u.ct := haway.ct_eq
  have hrs : (answerClose u).rs = u.rs := haway.rs_eq
  have hnot (hroom : billingRoom s = false) (hheld : s.ct.held ≠ none) : placeable s = false :=
    (not_placeable_iff s).mpr ⟨hroom, hheld⟩
  have hyes (hp : billingRoom s = true ∨ s.ct.held = none) : u.ct.finalRecord = s.ct.finalRecord := by
    rw [hfinal, if_pos ((placeable_iff s).mpr hp)]
  refine ⟨answerClose_raised u, hafter.fired_of hplaced.fired, fun hroom => ?_, fun hroom => ?_, fun hroom hheld => ?_,
    fun hroom hheld => ?_, fun hnone => ?_⟩
  · obtain ⟨h1, h2⟩ := hplaced.stream hroom
    rw [hct, hrs]
    exact ⟨h1, h2, hyes (.inl hroom)⟩
  · rw [hrs]
    by_cases hheld : s.ct.held = none
    · obtain ⟨h1, -, h3⟩ := hplaced.slot hroom hheld
      exact ⟨h1, hafter.raised_of h3⟩
    · obtain ⟨h1, -, h3⟩ := hkept (hnot hroom hheld)
      exact ⟨h1, hafter.raised_of h3⟩
  · rw [hct]
    exact ⟨(hplaced.slot hroom hheld).2.1, hyes (.inr hheld)⟩
  · rw [hct, hfinal, hnot hroom hheld]
    exact ⟨(hkept (hnot hroom hheld)).2.1, rfl⟩
  · rw [hct] at hnone
    rw [answerClose_of_none hnone]
    exact htells.fired_since (sessionEnd_fired u)

/-! ## The warm values -/

theorem warmValues_rest (s : State) : AtRest (warmValues s) := by
  have hget {α : Type} (x : α) (k : Fin 12) : (Vector.replicate 12 x).get k = x := by simp [Vector.get]
  refine ⟨?_, rfl, rfl, hget none, hget 0⟩
  show (if s.sc.state = .lockedOut then SessionState.lockedOut else .unplugged) ≠ .closing
  split <;> simp

theorem formRecord_warm (i : Interval) (s : State) : formRecord .aborted false i (warmValues s) = formRecord .aborted false i s :=
  formRecord_congr rfl rfl rfl rfl rfl rfl rfl rfl

theorem Source.exists_code (k : Fin 12) : ∃ src : Source, src.code = k := by
  match k with
  | 0 => exact ⟨.sessionOpened, rfl⟩
  | 1 => exact ⟨.sessionClosed, rfl⟩
  | 2 => exact ⟨.stateChanged, rfl⟩
  | 3 => exact ⟨.intervalClosed, rfl⟩
  | 4 => exact ⟨.levelChanged, rfl⟩
  | 5 => exact ⟨.heaterEvent, rfl⟩
  | 6 => exact ⟨.derateChanged, rfl⟩
  | 7 => exact ⟨.tariffApplied, rfl⟩
  | 8 => exact ⟨.limitsChanged, rfl⟩
  | 9 => exact ⟨.offerChanged, rfl⟩
  | 10 => exact ⟨.periodic, rfl⟩
  | 11 => exact ⟨.request, rfl⟩

/-! ## The end of the reset -/

/-- Both staged tables applied, the STREAM flags refreshed. -/
def riseSettled (s : State) : State := refreshStream (applyStaged .fleet (applyStaged .station s))

theorem resetRises_eq (h : s.resetLow = true) :
    resetRises s = (riseSettled (abortedClose (warmValues s))).onEa EnergyAccount.takePulse := by
  rw [resetRises, if_pos h]
  rfl

theorem riseSettled_touches (s : State) : Touches (.ct :: signals) s (riseSettled s) :=
  ((applyStaged_touches _ _).trans (applyStaged_touches _ _)).step (refreshStream_touches _)

theorem riseSettled_signalled (s : State) : Signalled s (riseSettled s) :=
  ((applyStaged_signalled _ _).trans (applyStaged_signalled _ _)).trans (refreshStream_signalled _)

theorem riseSettled_tells (s : State) : Tells [.tariff, .capture, .stream] [.tariffApplied] s (riseSettled s) :=
  (((applyStaged_tells s .station).mono).step (applyStaged_tells _ .fleet)).step (refreshStream_tells _)

theorem riseSettled_tablesOnly (s : State) : s.ct.TablesOnly (riseSettled s).ct :=
  (applyStaged_tablesOnly _ _).trans (applyStaged_tablesOnly _ _)

theorem riseSettled_told {w : State}
    (tells : Tells [.session, .stream, .billing, .tariff, .capture] [.intervalClosed, .tariffApplied, .sessionClosed] w s)
    (told : TablesTold w s) (k : Payer) : (riseSettled s).ct.kind k = (w.ct.kind k).applied ∧
      ((w.ct.kind k).staged ≠ none → Raised .tariff (riseSettled s) ∧ Fired .tariffApplied w (riseSettled s)) := by
  obtain ⟨hfirst, hstation⟩ := told.applyStaged tells .station
  obtain ⟨-, hfleet⟩ := hfirst.applyStaged (tells.step (applyStaged_tells _ _)) .fleet
  have hsecond := applyStaged_tells (applyStaged .station s) .fleet
  have hlast := refreshStream_tells (applyStaged .fleet (applyStaged .station s))
  have hct : (riseSettled s).ct = (applyStaged .fleet (applyStaged .station s)).ct := rfl
  have hboth : (applyStaged .fleet (applyStaged .station s)).ct.kind k = (w.ct.kind k).applied ∧ ((w.ct.kind k).staged ≠ none →
      Raised .tariff (applyStaged .fleet (applyStaged .station s)) ∧
        Fired .tariffApplied w (applyStaged .fleet (applyStaged .station s))) := by
    cases k with
    | fleet => exact hfleet
    | station =>
      rw [applyStaged_kind, if_neg (by decide)]
      exact ⟨hstation.1, fun hstaged => ⟨hsecond.raised_of (hstation.2 hstaged).1, hsecond.fired_of (hstation.2 hstaged).2⟩⟩
  rw [hct]
  exact ⟨hboth.1, fun hstaged => ⟨hlast.raised_of (hboth.2 hstaged).1, hlast.fired_of (hboth.2 hstaged).2⟩⟩

end

end Sys2Proof.Machine

/-! PROOFS. RESET_N rising: the state it leaves (R36, R55, R77, R107, R125, R130, R145, R147, R164, R176, R188). -/

namespace Sys2Proof.Machine

set_option Elab.async false

/-- What a rise of RESET_N leaves, told from the warm values `w` and the state `y` the ABORTED close leaves. -/
structure Risen (w y z : State) : Prop where
  frame : Touches (.ct :: signals) y z
  signalled : Signalled w z
  tells : Tells [.tariff, .capture, .stream] [.tariffApplied] y z
  tables : y.ct.TablesOnly z.ct
  told : ∀ k, z.ct.kind k = (w.ct.kind k).applied ∧
    ((w.ct.kind k).staged ≠ none → Raised .tariff z ∧ Fired .tariffApplied w z)
  follows : StreamFollows z

theorem risen_of_aborted {w y : State} (wy : Aborted w y) : Risen w y (riseSettled y) :=
  ⟨riseSettled_touches y, wy.signalled.trans (riseSettled_signalled y), riseSettled_tells y, riseSettled_tablesOnly y,
    riseSettled_told wy.tells wy.told, refreshStream_follows _⟩

theorem EnergyAccount.takePulse_unassigned (a : EnergyAccount) : a.takePulse.unassigned = a.unassigned := by
  unfold EnergyAccount.takePulse
  split <;> rfl

section
variable {w y z : State}

/-- The sources that the rise of RESET_N does not fire have nothing pending, and those it fires once nothing missed. -/
theorem risen_quiet (rest : AtRest w) (wy : Aborted w y) (yz : Risen w y z) :
    (∀ k : Fin 12, k ≠ Source.code .sessionClosed → k ≠ Source.code .intervalClosed → k ≠ Source.code .tariffApplied →
      z.se.waiting.get k = none) ∧
    ∀ k : Fin 12, k ≠ Source.code .tariffApplied → z.se.missed.get k = 0 := by
  have hboth : Tells [.session, .stream, .billing, .tariff, .capture] [.intervalClosed, .tariffApplied, .sessionClosed] w z :=
    wy.tells.step yz.tells
  have hstill (k : Fin 12) (h1 : k ≠ Source.code .sessionClosed) (h2 : k ≠ Source.code .intervalClosed)
      (h3 : k ≠ Source.code .tariffApplied) : z.se.waiting.get k = none ∧ z.se.missed.get k = 0 := by
    obtain ⟨src, rfl⟩ := Source.exists_code k
    have hnot : src ∉ [Source.intervalClosed, .tariffApplied, .sessionClosed] := by
      simp only [List.mem_cons, List.not_mem_nil, or_false, not_or]
      exact ⟨fun h => h2 (congrArg _ h), fun h => h3 (congrArg _ h), fun h => h1 (congrArg _ h)⟩
    obtain ⟨hwaiting, hmissed⟩ := hboth.still src hnot
    exact ⟨hwaiting.trans (rest.waiting _), hmissed.trans (rest.missed _)⟩
  refine ⟨fun k h1 h2 h3 => (hstill k h1 h2 h3).1, fun k h3 => ?_⟩
  by_cases h1 : k = Source.code .sessionClosed
  · rw [h1, (yz.tells.still .sessionClosed (by decide)).2]
    exact wy.missed.2
  by_cases h2 : k = Source.code .intervalClosed
  · rw [h2, (yz.tells.still .intervalClosed (by decide)).2]
    exact wy.missed.1
  exact (hstill k h1 h2 h3).2

/-- Since the warm values the clock unit has at most the tables, the interval, the reported cost and the records new. -/
theorem risen_clock (wy : Aborted w y) (yz : Risen w y z) : z.ct = { w.ct with
    station := z.ct.station
    fleet := z.ct.fleet
    interval := none
    reported := if w.ct.interval.isSome then (w.ct.cost + 500) / 1000 else w.ct.reported
    held := z.ct.held
    finalRecord := z.ct.finalRecord } := by
  have hclock := wy.clock
  have htables := yz.tables
  obtain ⟨c, hc⟩ : ∃ c, c = y.ct := ⟨_, rfl⟩
  obtain ⟨d, hd⟩ : ∃ d, d = z.ct := ⟨_, rfl⟩
  unfold ClockTariff.TablesOnly at htables
  rw [← hc] at hclock htables
  rw [← hd] at htables ⊢
  rw [htables, hclock]

theorem risen_records (yz : Risen w y z) : z.ct.held = y.ct.held ∧ z.ct.finalRecord = y.ct.finalRecord := by
  rw [yz.tables]
  exact ⟨rfl, rfl⟩

end

/-- Settles O5. -/
theorem resetRiseGivesTheWarmValues : Obligations.ResetRiseGivesTheWarmValues := by
  intro s hlow
  have hrest := warmValues_rest s
  have hform := formRecord_warm (s := s)
  have wy := abortedClose_aborted hrest
  have yz := risen_of_aborted wy
  have hplaced := @abortedClose_placed (warmValues s) hrest
  have hnone := @abortedClose_of_none (warmValues s)
  have hexec : exec .resetNRise s = .next ((riseSettled (abortedClose (warmValues s))).onEa EnergyAccount.takePulse) :=
    congrArg Host.Outcome.next (resetRises_eq hlow)
  have hw : Touches [.resetLow, .fe, .sc, .pc, .hc, .im, .ea, .se, .ports] s (warmValues s) :=
    fun b hb => by cases b <;> first | rfl | simp at hb
  have hwsc : (warmValues s).sc = s.sc.warm := rfl
  have hwea : (warmValues s).ea = { s.ea with accruing := false, pulse := .ready, pulseMs := 0 } := rfl
  have hwse : (warmValues s).se = s.se.warm := rfl
  have hwports : (warmValues s).ports = State.reset.ports := rfl
  have hwlow : (warmValues s).resetLow = false := rfl
  have hwfe : (warmValues s).fe = State.reset.fe := rfl
  have hwpc : (warmValues s).pc = State.reset.pc := rfl
  have hwhc : (warmValues s).hc = s.hc.warm := rfl
  have hwim : (warmValues s).im = s.im.warm := rfl
  obtain ⟨z, hz⟩ : ∃ z, z = riseSettled (abortedClose (warmValues s)) := ⟨_, rfl⟩
  obtain ⟨y, hy⟩ : ∃ y, y = abortedClose (warmValues s) := ⟨_, rfl⟩
  obtain ⟨w, hwdef⟩ : ∃ w, w = warmValues s := ⟨_, rfl⟩
  rw [← hz] at hexec yz
  rw [← hwdef] at hrest hform wy yz hplaced hnone hw hwsc hwea hwse hwports hwlow hwfe hwpc hwhc hwim hy
  rw [← hy] at wy yz hplaced hnone
  have hwct : w.ct = s.ct := hw.ct_eq
  have hwrs : w.rs = s.rs := hw.rs_eq
  have hframe : Touches [.sc, .ea, .ct, .rs, .ports, .se, .free] w z := (wy.frame).step yz.frame
  have hclock := risen_clock wy yz
  obtain ⟨hheld, hfinal⟩ := risen_records yz
  obtain ⟨hwaiting, hmissed⟩ := risen_quiet hrest wy yz
  have hrs : z.rs = y.rs := yz.frame.rs_eq
  have hea : z.ea = w.ea := yz.frame.ea_eq.trans wy.account
  have hsc : z.sc = y.sc := yz.frame.sc_eq
  have hfired {src : Source} {t : State} (h : Fired src w t) : Fired src s t := fun hen => h (by rw [hwse]; exact hen)
  have hse := yz.signalled.se
  obtain ⟨hsession, hlifetime⟩ := EnergyAccount.takePulse_accounts w.ea
  refine ⟨z.onEa EnergyAccount.takePulse, hexec, ?_, ?_, ?_, ?_, ?_, ?_, fun hpulses => ?_, ?_, ?_, ?_, ?_, fun k => ?_,
    fun k hstaged => ?_, ?_, fun hopen => ?_, ?_, ?_, ?_, ?_, ?_, ?_, ?_, hwaiting, hmissed, fun p => ?_, fun p n hn => ?_,
    yz.follows, ?_, ?_⟩
  · exact hframe.resetLow_eq.trans hwlow
  · exact hframe.fe_eq.trans hwfe
  · exact hframe.pc_eq.trans hwpc
  · show z.sc = _
    rw [hsc, wy.session, hwct, hwsc, ← hfinal]
    rfl
  · exact hframe.hc_eq.trans hwhc
  · exact hframe.im_eq.trans hwim
  · show z.ea.takePulse = _
    rw [hea, hwea]
    exact (EnergyAccount.takePulse_cases _).2.1 (.inr hpulses)
  · show z.ea.takePulse.session = _
    rw [hea, hsession, hwea]
  · show z.ea.takePulse.lifetime = _
    rw [hea, hlifetime, hwea]
  · show z.ea.takePulse.unassigned = _
    rw [hea, EnergyAccount.takePulse_unassigned, hwea]
  · show z.ct = _
    rw [hwct] at hclock
    exact hclock
  · show z.ct.kind k = _
    rw [(yz.told k).1, hwct]
    cases h : (s.ct.kind k).staged with
    | none => exact TariffKind.applied_of_none h
    | some tab => exact TariffKind.applied_of_some h
  · obtain ⟨hraised, hfire⟩ := (yz.told k).2 (by rw [hwct]; exact hstaged)
    exact ⟨hraised, hfired hfire⟩
  · show z.rs.areas = _
    rw [hrs, wy.areas, hwrs]
  · have hmark := hnone (by rw [hwct]; exact hopen)
    have hstill := yz.tells.still .intervalClosed (by decide)
    rw [hmark] at hrs hheld hfinal hstill
    refine ⟨hrs.trans hwrs, hheld.trans (by rw [← hwct]; rfl), hfinal.trans (by rw [← hwct]; rfl), ?_, ?_⟩
    · refine hstill.1.trans ?_
      show w.se.waiting.get _ = _
      rw [hwse]
      rfl
    · refine hstill.2.trans ?_
      show w.se.missed.get _ = _
      rw [hwse]
      rfl
  · intro i hi r room
    obtain ⟨hsess, hclosed, hroom, hfull, hslot, hkept, hend⟩ := hplaced (i := i) (by rw [hwct]; exact hi)
    have hbill : billingRoom w = billingRoom s := billingRoom_congr hwrs
    rw [hform, hbill, offer_rs_congr hwrs, hwct] at hroom
    rw [hbill, hwrs] at hfull
    rw [hform, hbill, hwct] at hslot hkept
    have hno (h : ¬ room) : billingRoom s = false := Bool.eq_false_iff.mpr h
    refine ⟨rfl, rfl, rfl, rfl, yz.tells.raised_of hsess, hfired (yz.tells.fired_of hclosed), fun h => ?_, fun h => ?_,
      fun h hh => ?_, fun h hh => ?_, fun h => ?_⟩
    · obtain ⟨h1, h2, h3⟩ := hroom h
      exact ⟨hrs.trans h1, hheld.trans h2, hfinal.trans h3⟩
    · obtain ⟨h1, h2⟩ := hfull (hno h)
      exact ⟨hrs.trans h1, yz.tells.raised_of h2⟩
    · obtain ⟨h1, h2⟩ := hslot (hno h) hh
      exact ⟨hheld.trans h1, hfinal.trans h2⟩
    · obtain ⟨h1, h2⟩ := hkept (hno h) hh
      exact ⟨hheld.trans h1, hfinal.trans h2⟩
    · exact hfired (yz.tells.fired_of (hend (hfinal.symm.trans h)))
  · show z.se.vectors = _
    rw [hse, hwse]
    rfl
  · show z.se.descs = _
    rw [hse, hwse]
    rfl
  · show z.se.service = _
    rw [hse, hwse]
    rfl
  · show z.se.justServed = _
    rw [hse, hwse]
    rfl
  · show z.se.periodic = _
    rw [hse, hwse]
    rfl
  · show z.se.uptime = _
    rw [hse, hwse]
    rfl
  · have hport := yz.signalled.ports p
    rw [hwports] at hport
    exact hport
  · have hflags := ((wy.tells.step yz.tells).flags.mono (ms := [.session, .billing, .tariff, .capture, .stream])) p n hn
    rw [hwports] at hflags
    exact hflags
  · exact hframe.cfg_eq.trans hw.cfg_eq
  · exact hframe.pending_eq.trans hw.pending_eq

end Sys2Proof.Machine
